-- ==== Sys2Proof/Word.lean ====
section
/-! DEFINITION. The plain data of the model: words, bytes, fractions, sparse tables, and the packets and
records that reach the block from outside. -/

namespace Sys2Proof

/-- A register word, 32 bits (chapter 00, Registers). -/
abbrev Word := BitVec 32
/-- One byte of a packet, record or memory structure. -/
abbrev Byte := BitVec 8
/-- A run of bytes; multi-byte fields in it are little-endian (R7). -/
abbrev Bytes := List Byte

/-- An exact fraction `num / den`, used inside one computation only; `den` is positive in every value the
model makes. -/
structure Frac where
  num : Int
  den : Nat
  deriving DecidableEq, Repr, Inhabited

/-- A coefficient word (R171), held as its two fields: the value is `mant × 2^(exp − 23)`. -/
structure Coef where
  mant : Int
  exp : Int
  deriving DecidableEq, Repr

/-- An extended word (R169, R171): the value is `mant × 2^(exp − 31)`. -/
structure Ext where
  mant : Int
  exp : Int
  deriving DecidableEq, Repr

/-- A sparse table: keys strictly rising, and no entry equal to the value of an unlisted key. -/
abbrev Table (α : Type) := List (Nat × α)

/-- Where a host packet came from: ring pair `n` (R34), or a UDP source address and port (R36, R37). -/
inductive Via where
  | ring (n : Nat)
  | udp (addr : Nat) (port : Nat)
  deriving DecidableEq, Repr

/-- A host command packet (Table 2-1) without its opcode, which the row gives. `image` is what the controller's
DMA reads at the host address that the payload names (a map, a law, a boot image, a bank), empty where the
payload names none. -/
structure Cmd where
  via : Via
  flags : BitVec 16
  requester : BitVec 16
  length : Nat
  tag : Word
  sequence : Word
  payload : Bytes
  image : Bytes
  deriving DecidableEq, Repr

/-- A command packet as it arrives: opcode and the rest of Table 2-1. -/
structure Packet where
  opcode : BitVec 16
  cmd : Cmd
  deriving DecidableEq, Repr

/-- One boot-image slot as the boot ROM reads it from the flash (R70, R71, R76): the numbers of its header, the
outcome of each check of R70 that is mathematics on the image alone, and what its configuration section says. `ownerSig` is the owner key under
which that section verifies (R71), `ownerKey` the key that it carries. -/
structure SlotImage where
  version : Nat
  rollback : Nat
  digest : Nat
  vendorSig : Bool
  tagOk : Bool
  digestOk : Bool
  ownerSig : Option Nat
  ownerKey : Option Nat
  bind : List Nat
  cfg : List (Nat × BitVec 32)
  map : Bytes
  bindings : List (Nat × Nat × Nat)
  sets : List (Nat × List (BitVec 32))
  ucode : List (Nat × Nat)
  dir : List (Nat × Nat × Nat)
  cal : Option Bytes
  deriving DecidableEq, Repr

/-- What a writer brings to the shaping store (R138, R379, R380): part `part` of a library shape; a run of codes of an element's rake, each
held for one granule, with repeats and jump, `first` where it opens the sweep; the segment of an element's live steps. -/
inductive SegSource where
  | library (el bracket : Nat) (rise : Bool) (part : Nat)
  | sweep (el : Nat) (first : Bool) (rep jump : Nat) (codes : List Nat)
  | step (el : Nat)
  deriving DecidableEq, Repr

/-- A write to the shaping store (R142, R144): the descriptor concerned, its first granule, the descriptor that follows, and whose segment it
is. `complete` says that the segment's last granule and its descriptor are written. -/
structure SegWrite where
  desc : Nat
  base : Nat
  next : Nat
  complete : Bool
  source : SegSource
  deriving DecidableEq, Repr

/-- What a calibration sweep or live step of one element measured (R379, R380): the new element entry of 128 bytes
and the new shape entries of 8 bytes; empty where nothing was measured. -/
structure RakeResult where
  element : Nat
  valid : Bool
  entry : Bytes
  rise : Bytes
  fall : Bytes
  deriving DecidableEq, Repr

/-- The end that a sluice reaches: of a segment, or of a rake's sweep. `jump` is a jump registered with it (R149): at a segment end the number of
samples by which it came before the end, at the end of a sweep the sluice of the rake that it is for. -/
structure SluiceEnd where
  sluice : Nat
  jump : Option Nat
  deriving DecidableEq, Repr

/-- A record of the NV store (Table 15-2, Table 15-3) without its header's constants and its check word. -/
structure NvRec where
  rtype : Nat
  rsub : Nat
  body : Bytes
  deriving DecidableEq, Repr

/-- The dataset of an announcing IEEE 1588 master (R87): whether its Announce carries the PTP timescale, and the numbers that the standard's
dataset comparison looks at, the most significant first; the lesser dataset is the better. -/
structure PtpMaster where
  identity : Nat
  ptpScale : Bool
  rank : List Nat
  deriving DecidableEq, Repr

/-- A Sync measured on the management port (R87): how it came, the masters that announce themselves in its domain, and the offset found,
which is wall time less the master's, in ns. `interval` is the binary logarithm of the Sync interval in seconds. -/
structure SyncMsg where
  version : Nat
  l2 : Bool
  domain : Nat
  peerDelay : Bool
  twoStep : Bool
  interval : Int
  sender : Nat
  masters : List PtpMaster
  offset : Int
  deriving DecidableEq, Repr

/-- A record received on an element, cell or twin link: its bytes on the wire, CRC included. -/
structure WireRec where
  bytes : Bytes
  deriving DecidableEq, Repr

end Sys2Proof
end

