-- ==== Sys2Proof/Syntax.lean ====
section
/-! DEFINITION. The commands of the block: one constructor per row of spec/opcode_table.json. A host command packet
is a row with the packet as it came from its transport; the other rows are register writes, pin changes, records of
the far ends and the events of the block's own engines, with the instance or the value concerned. -/

namespace Sys2Proof

/-- One row of spec/opcode_table.json each, in the table's order. -/
inductive Instr where
  /-- POWER_UP (R69). Supply group 1 comes within tolerance and every output takes its pre-write state of Table 3-2. -/
  | powerUp
  /-- COLD_START (R67). PORST_N rises after the supplies and REFCLK are stable; both dice reset and boot from flash begins. -/
  | coldStart (unit : Bool)
  /-- COLD_RESET (R67). PORST_N is held low for at least 1 µs at any later time, which resets the device as a cold start. -/
  | coldReset
  /-- BOOT_VERIFY_DONE (R70). Slot verification finishes: the first accepted slot is booted and boot sets, or no_image sets. -/
  | bootVerifyDone (staged : Nat) (a : SlotImage) (b : SlotImage)
  /-- FUNCTION_READY (R77). A function becomes usable and sets its ready bit in CPX.READY0 or CPX.READY1. -/
  | functionReady (bit : Nat)
  /-- BROWN_OUT (R444). VDD_IO18, VDD_IO33 or AVDD falls below its brown-out level; the device is held in reset and cold-starts on recovery. -/
  | brownOut
  /-- REFCLK_LOSS (R16). The always-on monitor times a REFCLK loss of more than 2 µs and raises it as an FLT source. -/
  | refclkLoss
  /-- SUPPLY_EXCURSION (R442). A monitored rail stays outside its limits for 2 µs and raises its supply source. -/
  | supplyExcursion (rail : Nat) (mv : Nat)
  /-- SUPPLY_RECOVER (R442). A rail has been back within its limits for 100 µs; its source is no longer present and the actions of R443 resume. -/
  | supplyRecover (rail : Nat) (mv : Nat)
  /-- AUTO_RESTART (R393). restart_ms after device safe is entered, the always-on monitor pulls the unit into a cold reset, unless restart_max has been reached. -/
  | autoRestart
  /-- SQ_TAIL_DOORBELL (R32). The host writes CPX.SQ_TAIL, and the controller fetches the whole commands that lie between SQ_HEAD and SQ_TAIL. -/
  | sqTailDoorbell (n : Nat) (tail : Word) (slots : Bytes) (images : List Bytes)
  /-- CQ_HEAD_DOORBELL (R33). The host writes CPX.CQ_HEAD to free completion entries, and held replies may then be written. -/
  | cqHeadDoorbell (n : Nat) (v : Word)
  /-- EQ_HEAD_DOORBELL (R33). The host writes CPX.EQ_HEAD to free event-ring entries. -/
  | eqHeadDoorbell (v : Word)
  /-- RING_CONFIG_WRITE (R31). A write to a ring's base, size or requester; it is ignored with cfg_err while the pair is enabled or the value is invalid. -/
  | ringConfigWrite (off : Nat) (v : Word)
  /-- RING_ENABLE (R34). Setting en in CPX.RING_CTRL binds the ring pair to its requester, unless that requester is invalid or already bound. -/
  | ringEnable (n : Nat) (v : Word)
  /-- RING_DISABLE (R48). Clearing en in CPX.RING_CTRL requests that the ring pair be disabled. -/
  | ringDisable (n : Nat) (v : Word)
  /-- RING_DISABLE_EFFECT (R48). Once every command of the pair has its final reply, the pair stops fetching and its replay window is cleared. -/
  | ringDisableEffect (n : Nat)
  /-- EVENT_RING_ENABLE (R33). Setting en in CPX.EQ_SIZE enables the event ring, with its phase bit starting at 1. -/
  | eventRingEnable (v : Word)
  /-- RING_DMA_ERROR (R458). A PCIe read or write of a ring fails; dma_err sets and the ring pair stops. -/
  | ringDmaError (n : Nat)
  /-- UDP_DATAGRAM (R36). A UDP datagram arrives at the command port and is checked for enable, length and session binding before its command is taken. -/
  | udpDatagram (addr : Nat) (port : Nat) (whole : Bool) (bytes : Bytes) (image : Bytes)
  /-- CQ_STALL_TIMEOUT (R62). A completion ring stays full for more than 1 ms; cq_stall sets and a notify-class source is raised. -/
  | cqStallTimeout (n : Nat)
  /-- MSIX_COALESCE_EXPIRY (R35). The coalescing time runs out, or 16 unsignalled entries accumulate, and the MSI-X vector is raised. -/
  | msixCoalesceExpiry (v : Nat)
  /-- BAR0_WRITE (R9). A direct BAR0 write to a register without its own row takes effect, clears or sets bits, or is discarded, according to the access code. -/
  | bar0Write (off : Nat) (v : Word)
  /-- DEV_INFO (R488). Returns the part number, die revisions, firmware version and digests. -/
  | devInfo (c : Cmd)
  /-- DEV_RESTART (R482). Requests a warm or cold restart; DONE is sent before the restart begins. -/
  | devRestart (c : Cmd)
  /-- EVENT_SUBSCRIBE (R483). Sets the requester's group mask for the event ring or for its own session, and returns the previous mask. -/
  | eventSubscribe (c : Cmd)
  /-- REQ_CLOSE (R493). Ends the requester's binding, its replay window and its subscriptions. -/
  | reqClose (c : Cmd)
  /-- ECON_CONFIG (R484). Writes THS.ECON_CTRL and THS.ECON_LV at one instant, or neither. -/
  | econConfig (c : Cmd)
  /-- MAP_LOAD (R115). Checks and loads a signed fabric map. -/
  | mapLoad (c : Cmd)
  /-- MAP_LOAD_COMPLETE (R117). A map that passed every check takes effect at a frame boundary and releases adopted elements to idle. -/
  | mapLoadComplete
  /-- CIRCUIT_SET (R128). Plans and claims a keyed move that connects an input port to an output port, or changes its attenuation. -/
  | circuitSet (c : Cmd)
  /-- CIRCUIT_CLEAR (R130). Plans a keyed clear of a circuit, or releases every adopted element with ID 0xFFFF. -/
  | circuitClear (c : Cmd)
  /-- CIRCUIT_QUERY (R120). Returns circuit records for a range of circuit IDs. -/
  | circuitQuery (c : Cmd)
  /-- PORT_CEILING (R135). Sets a port's power ceiling, and unblanks the port if requested. -/
  | portCeiling (c : Cmd)
  /-- CIRCUIT_BATCH (R131). Plans up to 60 set and clear entries as one keyed move. -/
  | circuitBatch (c : Cmd)
  /-- SCHEDULE_QUERY (R104). Returns schedule entry records for a range of entries. -/
  | scheduleQuery (c : Cmd)
  /-- MOVE_CANCEL (R485). Withdraws a pending move of the requester before any of its sluices has started. -/
  | moveCancel (c : Cmd)
  /-- SLUICE_STATUS (R485). Returns sluice usage, queued demand and stall and abandon counts. -/
  | sluiceStatus (c : Cmd)
  /-- LAW_LOAD (R210). Checks, stores and schedules the switch of a signed owner law in slot 48 to 63. -/
  | lawLoad (c : Cmd)
  /-- LAW_SWITCH (R211). At its boundary the slot directory switches to the new owner law in every store. -/
  | lawSwitch (slot : Nat)
  /-- LOOP_BIND (R190). Binds an element's loop to a law slot and a coefficient set from the next frame strobe. -/
  | loopBind (c : Cmd)
  /-- COEF_SWAP (R192). Writes shadow copies of up to 27 coefficient sets for an atomic swap. -/
  | coefSwap (c : Cmd)
  /-- COEF_SWAP_BOUNDARY (R187). At the swap boundary the new copies become active and the integrators are recomputed. -/
  | coefSwapBoundary
  /-- SETPOINT_SET (R191). Sets the setpoint offset or operand of an element's loop from the next frame strobe. -/
  | setpointSet (c : Cmd)
  /-- LOOP_QUERY (R192). Returns loop records for a range of elements. -/
  | loopQuery (c : Cmd)
  /-- PLACE_PIN (R232). Pins a loop to an engine and a block. -/
  | placePin (c : Cmd)
  /-- PLACE_UNPIN (R233). Removes the pin from a loop. -/
  | placeUnpin (c : Cmd)
  /-- PLACE_HINT (R234). Sets or clears a placement hint on a group of elements. -/
  | placeHint (c : Cmd)
  /-- PLACE_STATS (R234). Returns placement statistics. -/
  | placeStats (c : Cmd)
  /-- TRAIN_REPORT (R92). Updates a train's track, reference point and speed, and recomputes its marks. -/
  | trainReport (c : Cmd)
  /-- TRAIN_DROP (R104). Drops a train and completes its waiting and held entries with REFUSED. -/
  | trainDrop (c : Cmd)
  /-- WSENSE_CONFIG (R96). Configures a wheel-sensor input and restarts its quiet time. -/
  | wsenseConfig (c : Cmd)
  /-- TIME_QUERY (R111). Returns TAI, frame count, PTP offset, angle and frequency, all at one timebase count. -/
  | timeQuery (c : Cmd)
  /-- SST_START (R301). Checks and starts the staged start-up of the SST. -/
  | sstStart (c : Cmd)
  /-- SST_STOP (R304). Ends a start, or ramps the SST down and blocks every cell. -/
  | sstStop (c : Cmd)
  /-- PERIOD_SET (R305). Changes the control period length from a later period start. -/
  | periodSet (c : Cmd)
  /-- CELL_BYPASS (R306). Keyed bypass of a cell, with the remaining cells re-spread into a new timing set. -/
  | cellBypass (c : Cmd)
  /-- NEUTRAL_SECTION (R309). Keyed ramp-down and coast of the SST through a neutral section. -/
  | neutralSection (c : Cmd)
  /-- SST_QUERY (R317). Returns the SST stage, the loop values and the cell states. -/
  | sstQuery (c : Cmd)
  /-- LEG_CONFIG (R345). Writes a disabled leg's PWM and GDP configuration. -/
  | legConfig (c : Cmd)
  /-- LEG_ENABLE (R342). Enables or disables the legs of a mask. -/
  | legEnable (c : Cmd)
  /-- LV_REFERENCE (R331). Sets the LV-bus target and its ramp time. -/
  | lvReference (c : Cmd)
  /-- LEG_QUERY (R345). Returns a leg's state, latches, active pair and flags. -/
  | legQuery (c : Cmd)
  /-- ADC_CONFIG (R355). Configures a pair's reference and trigger slots from the next frame strobe. -/
  | adcConfig (c : Cmd)
  /-- ADC_INJECT (R356). Requests one conversion outside the trigger slots. -/
  | adcInject (c : Cmd)
  /-- DAC_CONFIG (R364). Changes a channel's span and sample divider. -/
  | dacConfig (c : Cmd)
  /-- DAC_ENABLE (R362). Enables or disables the output channels of a mask. -/
  | dacEnable (c : Cmd)
  /-- CAL_RUN (R376). Starts a calibration job of the given kind, or an import or export of a bank. -/
  | calRun (c : Cmd)
  /-- CAL_GAP (R381). Declares a gap in which live steps may run on one link or on every link. -/
  | calGap (c : Cmd)
  /-- CAL_BANK (R370). Returns the active bank and the identities of banks A and B. -/
  | calBank (c : Cmd)
  /-- FAULT_MAP (R397). Maps a fault source to a reaction class, which takes effect at once. -/
  | faultMap (c : Cmd)
  /-- FAULT_CLEAR (R398). Clears the sticky bits of a mask whose sources are not present. -/
  | faultClear (c : Cmd)
  /-- FAULT_O_RELEASE (R394). Requests that FAULT_O be released once its 100 µs minimum has run. -/
  | faultORelease (c : Cmd)
  /-- FAULT_QUERY (R401). Returns the reaction state, the sticky and present bits, and the classes. -/
  | faultQuery (c : Cmd)
  /-- TWIN_PAIR (R431). Starts pairing, or repeats the digest comparison on a paired unit. -/
  | twinPair (c : Cmd)
  /-- TWIN_YIELD (R431). Makes the active unit yield, or asks the peer to yield. -/
  | twinYield (c : Cmd)
  /-- TWIN_QUERY (R431). Returns role, term, eligibility, offsets and peer information. -/
  | twinQuery (c : Cmd)
  /-- TRACE_ARM (R194). Arms trace capture of chosen loop signals with a trigger. -/
  | traceArm (c : Cmd)
  /-- TRACE_TRIGGER (R194). The trace trigger condition occurs and the trigger record is written. -/
  | traceTrigger
  /-- TRACE_CAPTURE_COMPLETE (R194). depth − pre − 1 records after the trigger, capture stops and event 0x0D02 is published. -/
  | traceCaptureComplete
  /-- HARVEST (R195). Copies the trace capture to the DDR5 harvest region. -/
  | harvest (c : Cmd)
  /-- HARVEST_COMPLETE (R195). The harvest has written its header and records, and its final reply is sent. -/
  | harvestComplete
  /-- TRACE_STOP (R194). Stops capture at once and keeps the records for harvest. -/
  | traceStop (c : Cmd)
  /-- REG_READ (R489). Returns 1 to 64 consecutive BAR0 registers. -/
  | regRead (c : Cmd)
  /-- REG_WRITE (R58). Writes the masked bits of a register of access RW. -/
  | regWrite (c : Cmd)
  /-- ECHO (R490). Returns its data bytes unchanged. -/
  | echo (c : Cmd)
  /-- MEM_STATUS (R452). Returns ECC counts and scrub progress of a DDR5 channel or of the SRAM. -/
  | memStatus (c : Cmd)
  /-- CFG_WRITE (R59). Writes the masked bits of a CW register that no command owns. -/
  | cfgWrite (c : Cmd)
  /-- SESSION_OPEN (R491). Verifies a signed nonce and binds a requester to a UDP source as a session. -/
  | sessionOpen (c : Cmd)
  /-- SESSION_CLOSE (R492). Closes the requester's own session. -/
  | sessionClose (c : Cmd)
  /-- IMAGE_UPDATE (R73). Writes, verifies and stages a new image in the slot that is not running. -/
  | imageUpdate (c : Cmd)
  /-- ATTEST (R75). Returns a signed identity report that carries the host's nonce. -/
  | attest (c : Cmd)
  /-- ENGINE_DISABLE (R197). Clearing an engine's en bit drains its blocks onto other engines. -/
  | engineDisable (e : Nat)
  /-- ENGINE_ENABLE (R197). Setting an engine's en bit returns the engine to service. -/
  | engineEnable (e : Nat)
  /-- ENGINE_RESTART (R196). Clearing stopped in LPC.ENG_ERR reloads the store and restarts the engine if the parity check passes. -/
  | engineRestart (e : Nat) (good : Bool)
  /-- ENGINE_PARITY_ERROR (R196). An engine finds a microcode or lane parity error and stops; its blocks are re-placed. -/
  | engineParityError (e : Nat) (lane : Bool)
  /-- TRN_DISABLE (R160). Clearing en in TRN.CTRL refuses new moves and stops running sluices. -/
  | trnDisable
  /-- TRN_ENABLE (R160). Setting en in TRN.CTRL makes the transition engine available again. -/
  | trnEnable
  /-- RAKE_ADMISSION_SET (R155). Writing rake_en in TRN.CTRL permits or stops grants of sluices to rakes. -/
  | rakeAdmissionSet (en : Bool)
  /-- LINK_DISABLE (R259). Clearing an element link's en refuses its work, closes its sluices and drains the link to IDLE. -/
  | linkDisable (l : Nat)
  /-- LINK_ENABLE (R256). Setting an element link's en starts its training. -/
  | linkEnable (l : Nat)
  /-- CHAIN_DISABLE (R283). Clearing a chain's en, which is refused while any cell is active, drains the chain to idle pairs. -/
  | chainDisable (ch : Nat)
  /-- CHAIN_ENABLE (R281). Setting a chain's en starts its states from sync. -/
  | chainEnable (ch : Nat)
  /-- ADC_PAIR_DISABLE (R358). Clearing a pair's en drops its pending and later firings and drains the pair. -/
  | adcPairDisable (p : Nat)
  /-- ADC_PAIR_ENABLE (R358). Setting a pair's en resumes firing from the next frame strobe. -/
  | adcPairEnable (p : Nat)
  /-- PWM_DISABLE (R343). Clearing en in PWM.CTRL disables every leg and sets drained. -/
  | pwmDisable
  /-- PWM_ENABLE (R343). Setting en in PWM.CTRL makes the LV-stage PWM available again. -/
  | pwmEnable
  /-- CAL_DISABLE (R383). Clearing en in CAL.CTRL stops rakes and steps and fails a running job. -/
  | calDisable
  /-- CAL_ENABLE (R383). Setting en in CAL.CTRL makes the calibration manager available again. -/
  | calEnable
  /-- REGROUP_DISABLE (R236). Clearing regroup_en lets prepared steps complete and starts no further repair. -/
  | regroupDisable
  /-- EVICT_DISABLE (R236). Clearing evict_en restores evicted loops over the following review boundaries. -/
  | evictDisable
  /-- THROTTLE_DISABLE (R440). Clearing thr_en ends pauses and clock division at the next frame strobe. -/
  | throttleDisable
  /-- PWM_COMMIT (R325). A write to PWM.COMMIT requests a commit of a host leg's staged pair at its next boundary. -/
  | pwmCommit (v : Word)
  /-- PWM_STAGE_WRITE (R326). A write to PER_STG or DUTY_STG records the commit count, or is discarded with src_err on a leg with src 0. -/
  | pwmStageWrite (off : Nat) (v : Word)
  /-- DAC_QUEUE_PUSH (R360). A write to DAC.QUEUE pushes a code into the channel's queue, or is discarded as full or off. -/
  | dacQueuePush (ch : Nat) (v : Word)
  /-- CAT_CFG_WRITE (R112). A change of system, input or pair in TBU.CAT_CFG clears angle, restarts the tracker and holds angle marks. -/
  | catCfgWrite (v : Word)
  /-- POWER_RESERVE_CLEAR (R164). Clearing reserve in LPC.POWER_CFG frees engines 14 and 15 for hold blocks; refused while cmu is set. -/
  | powerReserveClear
  /-- FRAME_STROBE (R18). Frame strobe F(n): codes take effect, sluices are handed back and per-frame work begins. -/
  | frameStrobe
  /-- SAMPLE_CUTOFF (R19). At 1.00 µs after F(n), blocks still waiting are taken with the lanes of late links masked. -/
  | sampleCutoff
  /-- BLOCK_EVALUATE (R181). An engine evaluates a ready block of loops and stores its codes and state. -/
  | blockEvaluate (e : Nat) (b : Nat)
  /-- PTP_SYNC (R88). A usable IEEE 1588 Sync is measured; wall time is stepped or slewed and ptp may set. -/
  | ptpSync (m : SyncMsg)
  /-- PTP_HOLDOVER_ENTER (R89). No usable Sync has arrived for 4 s, and the TBU enters holdover. -/
  | ptpHoldoverEnter
  /-- PTP_HOLDOVER_EXPIRY (R89). Holdover has lasted its limit and ptp clears. -/
  | ptpHoldoverExpiry
  /-- ANGLE_LOCK (R107). The lock condition has held for its duration; angle sets, lost clears, and a re-locked angle is stepped or slewed. -/
  | angleLock (angle : Nat) (freq : Nat) (amp : Nat)
  /-- CATENARY_LOSS (R108). The amplitude stays below loss_pct for 5 ms; lost sets and the flywheel runs. -/
  | catenaryLoss (amp : Nat)
  /-- LOSS_OF_LOCK (R486). The frequency stays outside the lock range for 20 ms with the amplitude present; the flywheel runs. -/
  | lossOfLock (freq : Nat)
  /-- FLYWHEEL_EXPIRY (R109). The flywheel has run for fly_max; angle clears and angle marks are held. -/
  | flywheelExpiry
  /-- ECONOMY_EXIT (R27). No trigger is present and the LV bus has stayed above exit_v for exit_dwell; economy mode ends. -/
  | economyExit
  /-- MARK_FIRE (R98). The timebase reaches a kind-1 instant or a predicted position crossing, and the keyed command runs. -/
  | markFire (entry : Nat)
  /-- ANGLE_MARK_FIRE (R101). The catenary angle reaches an angle mark's where, and the keyed command runs. -/
  | angleMarkFire (entry : Nat)
  /-- TRAIN_CONFIDENCE_FALL (R95). A train's age passes 2 s or 10 s; its confidence falls, and at level 0 its marks are held. -/
  | trainConfidenceFall (t : Nat)
  /-- WHEEL_PULSE (R96). A debounced wheel-sensor edge forms a pulse, which is attributed, unattributed or ignored. -/
  | wheelPulse (i : Nat)
  /-- CEILING_TRIP (R133). An output tap reads above ceiling + trip_margin for 4 frames, and the port is blanked. -/
  | ceilingTrip (p : Nat)
  /-- SLUICE_GRANT (R154). At a sample boundary, available sluices are granted the best-ranked waiting elements. -/
  | sluiceGrant
  /-- SLUICE_START (R145). At its start instant a sluice begins playing its element's shape. -/
  | sluiceStart (sl : Nat)
  /-- SEGMENT_END (R146). A sluice reaches the end of a segment: it goes on, ends, takes a jump or stop, or stalls.
  A jump may have been registered so many samples before the end (R149). -/
  | segmentEnd (e : SluiceEnd)
  /-- SLUICE_REARM_END (R146). The 100 ns re-arm after a transition ends, and the sluice is free. -/
  | sluiceRearmEnd (sl : Nat)
  /-- STALL_ABANDON (R152). A stall reaches 4 µs; the transition is abandoned and its move completes LATE. -/
  | stallAbandon (sl : Nat)
  /-- SEGMENT_WRITE (R144). A writer completes a shaping-store write, which is accepted or refused; a stalled sluice may then resume. -/
  | segmentWrite (w : SegWrite)
  /-- MEASUREMENT_CUTOFF (R24). At 0.25P the power loops start, using stale values for cells whose MEAS is missing. -/
  | measurementCutoff
  /-- POWER_PUBLISH (R184). At 0.40P the power outputs are published, or republished with power_late. -/
  | powerPublish
  /-- DUTY_WRITE (R327). At 0.50P the LV duty is written to the PWM staging of the legs with src 0. -/
  | dutyWrite
  /-- PERIOD_START (R23). Period start S(k): edges take effect, samples are taken and the SST stage logic runs. -/
  | periodStart
  /-- PERIOD_TRANSMIT (R270). At the transmission phase the CLN begins the PERIOD record on every running chain. -/
  | periodTransmit
  /-- TIME_BROADCAST (R275). Every time_int ms the CLN sends a broadcast TIME record in the command window. -/
  | timeBroadcast
  /-- DELAY_REMEASURE (R274). Once per second the CLN re-measures every cell's delay by PING. -/
  | delayRemeasure
  /-- SST_START_TIMEOUT (R303). A start stage limit or the 10 s limit is reached; the start fails with REFUSED. -/
  | sstStartTimeout
  /-- COAST_EXPIRY (R312). A coast has exceeded coast_max, and coast_exp trips the SST. -/
  | coastExpiry
  /-- BRK_TRIP_RELEASE (R315). brk_min has passed and the source's latch is clear; BRK_TRIP is released. -/
  | brkTripRelease
  /-- PERIOD_WATCHDOG (R315). No period start has been produced for 4 periods in stages 1 to 9; BRK_TRIP is asserted. -/
  | periodWatchdog
  /-- MEAS_RECEIVED (R273). A MEAS record from a cell is checked and taken for the current period. -/
  | measReceived (ch : Nat) (port : Nat) (r : WireRec)
  /-- PONG_RECEIVED (R274). A PONG answers a PING, and the cell's one-way delay is computed. -/
  | pongReceived (ch : Nat) (port : Nat) (r : WireRec) (rt : Nat)
  /-- ACK_RECEIVED (R278). A cell ACK answers a CMD record. -/
  | ackReceived (ch : Nat) (port : Nat) (r : WireRec)
  /-- CMD_TIMEOUT (R278). A CMD has no ACK within cmd_tmo; it is resent, and after cmd_retry resends cmd_tmo sets. -/
  | cmdTimeout (n : Nat)
  /-- CELL_LOST (R282). No MEAS from a cell in cell_miss periods; the cell is marked lost. -/
  | cellLost (n : Nat)
  /-- CHAIN_LOST (R282). Sync is lost on every port, or no MEAS arrives in 3 periods; the chain retrains. -/
  | chainLost (ch : Nat)
  /-- CHAIN_TRAIN_STEP (R281). A chain's exit condition for its current state holds, and it passes to the next state. -/
  | chainTrainStep (ch : Nat)
  /-- CHAIN_RETRY_TIMER (R281). 10 ms after a failure, the chain returns to state 1. -/
  | chainRetryTimer (ch : Nat)
  /-- PWM_BOUNDARY (R324). At a leg's period end or mid-period boundary, committed values become active. -/
  | pwmBoundary (leg : Nat)
  /-- REFRESH_PULSE (R323). After bst_n periods without a low-side pulse, a bootstrap refresh pulse is inserted. -/
  | refreshPulse (leg : Nat)
  /-- LEG_PRECHARGE_END (R342). After the 10 µs pre-charge, a leg's first period starts in state 2. -/
  | legPrechargeEnd (leg : Nat)
  /-- PWM_TRIGGER_PULSE (R329). A leg's carrier reaches a trigger position and pulses its trigger line. -/
  | pwmTriggerPulse (leg : Nat) (b : Bool)
  /-- MAIN_COMPARATOR_TRIP (R334). An unblanked shunt signal exceeds oc_thr; both outputs turn off and oc latches. -/
  | mainComparatorTrip (leg : Nat)
  /-- HARD_COMPARATOR_TRIP (R335). The shunt signal exceeds the hard threshold; both outputs turn off and hard_oc latches. -/
  | hardComparatorTrip (leg : Nat)
  /-- SHOOT_THROUGH_BLOCK (R336). Both gate commands of a leg are on; the interlock turns both off and latches shoot_block. -/
  | shootThroughBlock (leg : Nat)
  /-- TRIP_IN_ASSERT (R337). A TRIP_IN input stays active for its filter time and forces its legs to their safe levels. -/
  | tripInAssert (i : Nat) (level : Bool)
  /-- DRV_EN_FALL (R340). DRV_EN falls; every gate output turns off and enabled legs latch drv_en_drop. -/
  | drvEnFall
  /-- DRV_EN_RISE (R341). DRV_EN rises after at least 10 µs low, and the latches of legs without a present cause clear. -/
  | drvEnRise (main : Nat) (hard : Nat)
  /-- VGD_UNDERVOLTAGE (R333). VGD falls below 10.5 V; every output turns off and vgd_uv latches. -/
  | vgdUndervoltage
  /-- BOOTSTRAP_UNDERVOLTAGE (R333). VBST − VSW falls below 8.0 V and GATE_HI of that leg is held off. -/
  | bootstrapUndervoltage (leg : Nat) (low : Bool)
  /-- ADC_SLOT_FIRE (R351). A trigger slot fires and is given to a free converter, made pending, or dropped with overrun. -/
  | adcSlotFire (p : Nat) (slot : Nat)
  /-- ADC_CONVERSION_DONE (R348). A conversion ends; its result is written and a pending conversion may start. -/
  | adcConversionDone (p : Nat) (b : Bool) (code : Nat)
  /-- ADC_REF_SETTLED (R349). Reference settling ends, settling clears and event 0x0902 is published. -/
  | adcRefSettled (p : Nat)
  /-- ADC_INJECT_TIMEOUT (R356). An injected conversion has not started within 100 µs and completes with CONFLICT. -/
  | adcInjectTimeout (p : Nat)
  /-- DAC_SAMPLE_TICK (R360). At a channel's sample tick the head of its queue is applied. -/
  | dacSampleTick (ch : Nat)
  /-- DAC_ENABLE_SETTLE (R362). At the first tick at least 10 µs after enabling, a channel enters state 2. -/
  | dacEnableSettle (ch : Nat)
  /-- DAC_DRAIN_DONE (R363). After 10 µs at the safe value, a disabling channel enters state 0 and sets drained. -/
  | dacDrainDone (ch : Nat)
  /-- DAC_SPAN_RELAY_SETTLE (R364). The span relay has settled, and the channel resumes at the new span. -/
  | dacSpanRelaySettle (ch : Nat)
  /-- RAKE_COMPLETE (R379). A rake's sweep ends; its result is kept, or it is replayed or marked rake_fail.
  A jump may be registered now on the rake of another sluice (R149). -/
  | rakeComplete (e : SluiceEnd) (r : RakeResult)
  /-- LIVE_STEP_COMPLETE (R380). A live step on an element of a live circuit ends, and its result is gathered. -/
  | liveStepComplete (r : RakeResult)
  /-- GAP_OPEN (R381). A declared gap reaches its start and live steps may run on its links. -/
  | gapOpen (i : Nat)
  /-- DETECTED_GAP_OPEN (R231). A live circuit has been dark for 400 frames, which opens a detected gap. -/
  | detectedGapOpen (circ : Nat)
  /-- CAL_COMMIT (R382). 64 elements are complete, or 60 s have passed since the first result, and gathered results are committed. -/
  | calCommit (stored : Bool)
  /-- CAL_JOB_COMPLETE (R377). A calibration job passes or fails, and its new bank is written. -/
  | calJobComplete (good : Bool) (stored : Bool) (recs : List NvRec)
  /-- BANK_SWITCH (R373). At a frame strobe a written bank becomes active and the integrators are recomputed. -/
  | bankSwitch
  /-- NV_HOURLY_CHECK (R375). The hourly check of both banks marks or rewrites a bank that fails. -/
  | nvHourlyCheck (okA : Bool) (okB : Bool)
  /-- PLACEMENT_REVIEW (R221). At a review boundary the PLM reviews every hold block and evicts evictable loops. -/
  | placementReview
  /-- MIGRATION_STEP (R223). At a frame strobe up to mig_max loops move to their new blocks. -/
  | migrationStep
  /-- LOOP_RESTORE (R227). A restore of an evicted loop completes and the loop is placed in a block. -/
  | loopRestore (el : Nat)
  /-- SAMPLES_RECEIVED (R251). A SAMPLES part arrives; it is checked, written, and marks the link ready when complete. -/
  | samplesReceived (l : Nat) (r : WireRec)
  /-- FASTUP_RECEIVED (R251). A FASTUP record carrying fast-mode tap samples arrives. -/
  | fastupReceived (l : Nat) (r : WireRec)
  /-- RESP_RECEIVED (R255). A RESP answers an outstanding CTRL on an element link. -/
  | respReceived (l : Nat) (r : WireRec) (rt : Nat)
  /-- CTRL_TIMEOUT (R255). A CTRL has no RESP within ctrl_tmo; it is resent, and after ctrl_retry resends the link retrains. -/
  | ctrlTimeout (l : Nat)
  /-- LINK_LOST (R257). An element link loses block lock or valid parts; it is declared lost and retrained. -/
  | linkLost (l : Nat) (why : Nat)
  /-- LINK_LATE (R258). A link's lanes have been masked in late_max consecutive frames; late sets. -/
  | linkLate (l : Nat)
  /-- LINK_TRAIN_STEP (R256). A training state's exit condition holds, and the link passes to the next state. -/
  | linkTrainStep (l : Nat)
  /-- LINK_RETRY_TIMER (R256). 10 ms after a training failure, the link returns to state 1. -/
  | linkRetryTimer (l : Nat)
  /-- FAULT_SOURCE_ASSERT (R387). A fault source asserts; its sticky bit sets and its class's reaction is applied. -/
  | faultSourceAssert (src : Nat)
  /-- FAULT_O_HOLD_EXPIRY (R394). FAULT_O's 100 µs minimum ends, and a waiting release takes effect. -/
  | faultOHoldExpiry
  /-- FLT_SELF_CHECK_FAIL (R400). A parity error, a copy disagreement or a missed service puts the device into device safe. -/
  | fltSelfCheckFail (kind : Nat)
  /-- SENSOR_READING (R432). A temperature sensor delivers a reading at 1 kHz or 16 kHz. -/
  | sensorReading (i : Nat) (v : Int)
  /-- THROTTLE_FALL (R437). The throttle level falls by one step after 100 ms below the threshold. -/
  | throttleFall
  /-- SRAM_UNCORRECTABLE (R446). An uncorrectable SRAM error raises source 418 and the reader is treated as Table 19-2 states. -/
  | sramUncorrectable (reader : Nat) (arg : Nat) (addr : Nat)
  /-- DDR_UNCORRECTABLE (R452). An uncorrectable DDR5 read raises source 416 or 417 and the reader is treated as Table 19-2 states. -/
  | ddrUncorrectable (ch : Nat) (reader : Nat) (arg : Nat) (addr : Nat)
  /-- HEARTBEAT_RECEIVED (R407). A HEARTBEAT from the peer arrives. -/
  | heartbeatReceived (r : WireRec)
  /-- HEARTBEAT_MISSED (R407). A heartbeat is not received within 1 µs of being due; 3 misses lose the link and may cause a claim. -/
  | heartbeatMissed
  /-- TWIN_LINK_LOST (R409). Block lock is lost on a twin lane; pairing ends and twin clears. -/
  | twinLinkLost (lane : Nat)
  /-- MIRROR_RECEIVED (R408). The standby applies a MIRROR record in order, or answers a gap. -/
  | mirrorReceived (r : WireRec)
  /-- MACK_RECEIVED (R420). A MACK covers mirror records, and the replies waiting for them are sent. -/
  | mackReceived (r : WireRec)
  /-- MIRROR_TIMEOUT (R420). 20 µs pass without a MACK; the reply is sent and the standby becomes ineligible. -/
  | mirrorTimeout
  /-- FORWARD_RECEIVED (R421). The standby applies a forwarded command at its boundary and answers FRESULT. -/
  | forwardReceived (r : WireRec)
  /-- FRESULT_RECEIVED (R421). The standby's FRESULT arrives, and the active unit sends the final reply. -/
  | fresultReceived (r : WireRec)
  /-- FORWARD_TIMEOUT (R421). 50 ms pass without the standby's answer, and the active unit sends its final reply. -/
  | forwardTimeout
  /-- YIELD_RECEIVED (R416). A YIELD from the peer arrives, and an eligible standby claims. -/
  | yieldReceived (r : WireRec)
  /-- DIGEST_RECEIVED (R413). A DIGEST record arrives; digests are compared and wall time is aligned. -/
  | digestReceived (r : WireRec)
  /-- PAIR_OFFSET_CHECK (R412). The standby re-measures the pair offset every second and becomes ineligible on a drift. -/
  | pairOffsetCheck (drift : Int)
  /-- PEER_CLAIM_CONFLICT (R418). PEER_CLAIM_IN has stayed high for 100 µs while this unit ranks lower, and it withdraws. -/
  | peerClaimConflict
  /-- SOLO_WAIT_EXPIRY (R415). PEER_CLAIM_IN has stayed low for solo_wait at start without a twin link, and the unit claims. -/
  | soloWaitExpiry
  /-- RESYNC_STEP (R429). A resynchronising standby completes one step of pairing, offset, digests, mirror copy and shadow bring-up. -/
  | resyncStep
  /-- PCIE_LINK_DOWN (R458). The PCIe link goes down or PERST_N asserts; pcie clears and bus master 1 is reset. -/
  | pcieLinkDown
  /-- MGMT_LINK_DOWN (R77). The management port link goes down and mgmt clears. -/
  | mgmtLinkDown
  /-- REFCLK_RESTORE (R395). REFCLK returns after a loss, so source 302 is no longer present. -/
  | refclkRestore
  /-- PEER_CLAIM_IN_CHANGE (R416). PEER_CLAIM_IN changes level, which can meet a claim condition of a standby whose peer has fallen silent. -/
  | peerClaimInChange (level : Bool)
  /-- CELL_LINK_SYNC_LOSS (R266). A cell-link port loses sync after 4 code violations within 256 code groups and sets sync in CLN.CHAIN_ERR. -/
  | cellLinkSyncLoss (ch : Nat) (port : Nat)
  /-- COMMAND_WINDOW (R276). At 0.30P the command window opens and pending CMD records such as BYPASS and BLOCK are sent to the cells. -/
  | commandWindow
  /-- DECLARED_GAP_CLOSE (R381). A declared gap reaches start + dur and closes, ending live steps on its links. -/
  | declaredGapClose (i : Nat)
  /-- MIRROR_GAP_TIMEOUT (R423). A MIRROR gap stays outstanding for more than 100 µs and the standby becomes ineligible with cause mirror. -/
  | mirrorGapTimeout
  /-- IMAGE_UPDATE_COMPLETE (R73). The new image has been written, verified and staged, and IMAGE_UPDATE's final reply is sent. -/
  | imageUpdateComplete (img : SlotImage)
  /-- BROWN_OUT_RECOVERY (R444). VDD_IO18, VDD_IO33 and AVDD recover from brown-out, and a cold start begins with cause 0x01. -/
  | brownOutRecovery
  /-- DDR_TRAINING_FAILED (R447). DDR5 channel training ends on an unsupported DIMM; the channel enters state 4 with spd_bad and ddr stays 0. -/
  | ddrTrainingFailed (ch : Nat)
  /-- ECC_CORRECTED_ERROR (R451). A read or scrub corrects an ECC error, writes the word back and counts it. -/
  | eccCorrectedError (ch : Nat) (addr : Nat)
  /-- JTAG_INSTRUCTION (R471). An IEEE 1149.1 instruction is loaded through the TAP, and EXTEST or SAMPLE/PRELOAD act only while PORST_N is low. -/
  | jtagInstruction (ir : Nat)
  deriving DecidableEq, Repr

end Sys2Proof
end

