-- ==== Sys2Proof/Machine/Tbl.lean ====
section
/-! DEFINITION. Sparse tables and byte strings: the operations every register, buffer and record goes through.
A table lists only what differs from the value an unlisted key reads as, keys strictly rising. -/

namespace Sys2Proof.Machine

/-- What key `n` of the table reads as; `dflt n` where it is not listed. -/
def tget {α : Type} (dflt : Nat → α) : Table α → Nat → α
  | [], n => dflt n
  | (k, v) :: r, n => if n = k then v else if n < k then dflt n else tget dflt r n

/-- The entries from the first key above `n` on: all of them where the keys rise from above `n`. -/
def tdrop {α : Type} (n : Nat) : Table α → Table α
  | [] => []
  | (k, w) :: r => if n < k then (k, w) :: r else tdrop n r

/-- The table with `v` at key `n`: an entry equal to the unlisted value is removed. -/
def tput {α : Type} [DecidableEq α] (dflt : Nat → α) : Table α → Nat → α → Table α
  | [], n, v => if v = dflt n then [] else [(n, v)]
  | (k, w) :: r, n, v =>
    if n = k then (if v = dflt n then tdrop n r else (n, v) :: r)
    else if n < k then (if v = dflt n then (k, w) :: r else (n, v) :: (k, w) :: r)
    else (k, w) :: tput dflt r n v

/-- Every key of the table is above `b`, the keys rise, and no entry equals its unlisted value. -/
def tableWfAbove {α : Type} [DecidableEq α] (dflt : Nat → α) (b : Option Nat) : Table α → Bool
  | [] => true
  | (k, v) :: r => (match b with | none => true | some m => decide (m < k)) && decide (v ≠ dflt k)
      && tableWfAbove dflt (some k) r

/-- The canonical form of a table. -/
def tableWf {α : Type} [DecidableEq α] (dflt : Nat → α) (t : Table α) : Bool := tableWfAbove dflt none t

/-- The entry of an association list with rising keys. -/
def aget {α : Type} : List (Nat × α) → Nat → Option α
  | [], _ => none
  | (k, v) :: r, n => if n = k then some v else aget r n

/-- The association list with `v` at key `n`, keys rising. -/
def aput {α : Type} : List (Nat × α) → Nat → α → List (Nat × α)
  | [], n, v => [(n, v)]
  | (k, w) :: r, n, v =>
    if n = k then (n, v) :: r else if n < k then (n, v) :: (k, w) :: r else (k, w) :: aput r n v

/-- The association list without key `n`. -/
def adel {α : Type} : List (Nat × α) → Nat → List (Nat × α)
  | [], _ => []
  | (k, w) :: r, n => if n = k then r else (k, w) :: adel r n

/-- The lowest number at or after `from`, below `from + fuel`, that the association list does not use. -/
def firstFree {α : Type} (t : List (Nat × α)) (start : Nat) : Nat → Option Nat
  | 0 => none
  | fuel + 1 => match aget t start with
    | none => some start
    | some _ => firstFree t (start + 1) fuel

/-- `n` bytes of `v`, least significant first (R7). -/
def le : Nat → Nat → Bytes
  | 0, _ => []
  | n + 1, v => BitVec.ofNat 8 (v % 256) :: le n (v / 256)

/-- The number in a run of bytes, least significant first (R7). -/
def unle : Bytes → Nat
  | [] => 0
  | b :: r => b.toNat + 256 * unle r

/-- The little-endian number in `n` bytes at offset `o`; bytes past the end read 0. -/
def rd (b : Bytes) (o n : Nat) : Nat := unle ((b.drop o).take n)

/-- Two's complement of `bits` bits (R6). -/
def signed (bits n : Nat) : Int := if n < 2 ^ (bits - 1) then (n : Int) else (n : Int) - (2 ^ bits : Nat)

/-- The `bits`-bit two's complement pattern of an integer (R6). -/
def pattern (bits : Nat) (i : Int) : Nat := (i % ((2 ^ bits : Nat) : Int)).toNat

/-- An integer held to `lo … hi`. -/
def clampInt (lo hi i : Int) : Int := if i < lo then lo else if hi < i then hi else i

/-- The byte string cut or filled with zeros to `n` bytes. -/
def fitBytes (n : Nat) (b : Bytes) : Bytes := (b ++ List.replicate (n - b.length) 0).take n

/-- One bit of the CRC-32C register (reflected polynomial 0x82F6_3B78). -/
def crcStep (c : Nat) : Nat := if c % 2 = 1 then Nat.xor (c / 2) 0x82F63B78 else c / 2

/-- One byte into the CRC-32C register. -/
def crcByte (c : Nat) (b : Byte) : Nat :=
  crcStep (crcStep (crcStep (crcStep (crcStep (crcStep (crcStep (crcStep (Nat.xor c b.toNat))))))))

/-- CRC-32C of a run of bytes (R46, R242). -/
def crc32c (b : Bytes) : Nat := Nat.xor (b.foldl crcByte 0xFFFFFFFF) 0xFFFFFFFF

/-- Bit `i` of a number. -/
def bit (n i : Nat) : Bool := (n >>> i) % 2 = 1

/-- The number with bit `i` set or cleared. -/
def setBit (n i : Nat) (v : Bool) : Nat :=
  if bit n i = v then n else if v then n + 2 ^ i else n - 2 ^ i

/-- The bits of `a` that are not in `b`. -/
def andNot (a b : Nat) : Nat := a - Nat.land a b

/-- 1 for true, 0 for false. -/
def b2n (b : Bool) : Nat := if b then 1 else 0

/-- The positions below `n` of the bits set in `m`, rising. -/
def bitsOf (m n : Nat) : List Nat := (List.range n).filter (fun i => bit m i)

/-- How many of the numbers below `n` satisfy `p`. -/
def countBelow (n : Nat) (p : Nat → Bool) : Nat := ((List.range n).filter p).length

end Sys2Proof.Machine
end

