-- ==== Sys2Proof/Machine/Num.lean ====
section
/-! DEFINITION. Exact fractions, and the coefficient and extended words that hold them (R166, R168, R171). -/

namespace Sys2Proof

open Machine

/-- A fraction in lowest terms. -/
def Frac.reduce (f : Frac) : Frac :=
  let g := Nat.gcd f.num.natAbs f.den
  if g ≤ 1 then f else ⟨f.num / (g : Int), f.den / g⟩

/-- A whole number as a fraction. -/
def Frac.ofInt (i : Int) : Frac := ⟨i, 1⟩

/-- `i / n`. -/
def Frac.mk2 (i : Int) (n : Nat) : Frac := Frac.reduce ⟨i, max n 1⟩

/-- Sum. -/
def Frac.add (a b : Frac) : Frac := Frac.reduce ⟨a.num * b.den + b.num * a.den, a.den * b.den⟩
/-- Negation. -/
def Frac.neg (a : Frac) : Frac := ⟨-a.num, a.den⟩
/-- Difference. -/
def Frac.sub (a b : Frac) : Frac := Frac.add a (Frac.neg b)
/-- Product. -/
def Frac.mul (a b : Frac) : Frac := Frac.reduce ⟨a.num * b.num, a.den * b.den⟩
/-- Quotient by a fraction that is not zero; 0 otherwise. -/
def Frac.div (a b : Frac) : Frac :=
  if b.num = 0 then ⟨0, 1⟩
  else Frac.reduce (if b.num < 0 then ⟨-(a.num * b.den), a.den * b.num.natAbs⟩ else ⟨a.num * b.den, a.den * b.num.natAbs⟩)
/-- `a < b`. -/
def Frac.lt (a b : Frac) : Bool := decide (a.num * b.den < b.num * a.den)
/-- `a ≤ b`. -/
def Frac.le (a b : Frac) : Bool := !Frac.lt b a
/-- The greater of two fractions. -/
def Frac.max (a b : Frac) : Frac := if Frac.lt a b then b else a
/-- The lesser of two fractions. -/
def Frac.min (a b : Frac) : Frac := if Frac.lt b a then b else a
/-- A fraction held to `lo … hi`. -/
def Frac.clamp (lo hi a : Frac) : Frac := Frac.max lo (Frac.min hi a)
/-- Magnitude. -/
def Frac.abs (a : Frac) : Frac := ⟨(a.num.natAbs : Int), a.den⟩
/-- Zero. -/
def Frac.zero : Frac := ⟨0, 1⟩
/-- One. -/
def Frac.one : Frac := ⟨1, 1⟩

/-- The nearest integer, ties away from zero (R143, R166). -/
def Frac.round (a : Frac) : Int :=
  let q := (2 * a.num.natAbs + a.den) / (2 * a.den)
  if a.num < 0 then -(q : Int) else q

/-- The greatest integer not above the fraction. -/
def Frac.floor (a : Frac) : Int := a.num / (a.den : Int)

/-- Times two to the power `e`. -/
def Frac.scale (a : Frac) (e : Int) : Frac :=
  if 0 ≤ e then Frac.reduce ⟨a.num * (2 ^ e.toNat : Nat), a.den⟩ else Frac.reduce ⟨a.num, a.den * 2 ^ (-e).toNat⟩

/-- The own exponent of R166: the smallest `e` with `|a| < 2^e`; −128 for zero. -/
def Frac.ownExp (a : Frac) : Int :=
  if a.num = 0 then -128
  else
    let e : Int := (Nat.log2 a.num.natAbs : Int) - (Nat.log2 a.den : Int)
    if Frac.lt (Frac.abs a) (Frac.scale Frac.one e) then e else e + 1

/-- The value of a coefficient word (R171). -/
def coefValue (w : Word) : Frac :=
  Frac.scale (Frac.ofInt (signed 24 (w.toNat % 2 ^ 24))) (signed 8 (w.toNat / 2 ^ 24) - 23)

/-- Mantissa of `a` at exponent `e` with `b` fraction bits, ties away from zero. -/
def mantissaAt (b : Int) (a : Frac) (e : Int) : Int := Frac.round (Frac.scale a (b - e))

/-- Mantissa and exponent of a fraction normalised alone to a signed mantissa of `b + 1` bits (R166, R169), the
exponent held to 8 bits. -/
def normalise (b : Nat) (a : Frac) : Int × Int :=
  let e := max (-128) a.ownExp
  let m := mantissaAt b a e
  let (m1, e1) := if m.natAbs ≥ 2 ^ b then (mantissaAt b a (e + 1), e + 1) else (m, e)
  if 127 < e1 then ((if a.num < 0 then -(2 ^ b - 1 : Int) else 2 ^ b - 1), 127) else (m1, e1)

/-- A fraction as a normalised coefficient word (R169, R171). -/
def coefWord (a : Frac) : Word :=
  let (m, e) := normalise 23 a
  BitVec.ofNat 32 (pattern 24 m + 2 ^ 24 * pattern 8 e)

/-- A fraction as an extended word (R169, R171). -/
def extWord (a : Frac) : Ext :=
  let (m, e) := normalise 31 a
  ⟨m, e⟩

/-- The value of an extended word (R171). -/
def extValue (x : Ext) : Frac := Frac.scale (Frac.ofInt x.mant) (x.exp - 31)

/-- The 8 bytes of an extended word (R171). -/
def extBytes (x : Ext) : Bytes := le 4 (pattern 32 x.mant) ++ le 4 (pattern 8 x.exp)

end Sys2Proof
end

