-- ==== Sys2Proof/Machine/TypesCal.lean ====
section
/-! DEFINITION. Plain data of the calibration manager and the NV store (chapter 15). -/

namespace Sys2Proof.Machine

/-- A calibration bank (R369): whether it is valid, its SEAL's `seq` and identity, and its records. -/
structure Bank where
  valid : Bool := false
  seq : Nat := 0
  ident : Nat := 0
  recs : List NvRec := []
  deriving DecidableEq, Repr, Inhabited

/-- A running CAL_RUN (Table 15-4). -/
structure CalJob where
  oid : Nat
  kind : Nat
  mask : Nat
  first : Nat
  count : Nat
  addr : Nat
  length : Nat
  image : Bytes
  began : Nat
  deriving DecidableEq, Repr

/-- A declared gap (R381): link or 0xFF, and the ticks at which it opens and closes. -/
structure Gap where
  link : Nat
  opens : Nat
  closes : Nat
  isOpen : Bool
  deriving DecidableEq, Repr

/-- An element queued for calibration. `job`: the running CAL_RUN asks for it, by live steps where `live`; `origin` is 1 where
R371 flagged it, 2 where R148 did, otherwise 0. `tries` counts its invalid rakes in a row, `steps` holds the ticks of its live
steps, `gaps` the opening ticks of the gaps in which it has had a step (R231). -/
structure CalItem where
  el : Nat
  live : Bool := false
  tries : Nat := 0
  steps : List Nat := []
  job : Bool := false
  origin : Nat := 0
  gaps : List Nat := []
  deriving DecidableEq, Repr

/-- A rake or live step whose transition has ended and whose result is awaited: sluice, element, and whether it is spoiled. -/
structure CalEnd where
  sluice : Nat
  el : Nat
  live : Bool
  invalid : Bool
  deriving DecidableEq, Repr

/-- A complete result that waits for its bank: what was measured, the bracket in force, and whether by live steps. -/
structure Gathered where
  result : RakeResult
  bracket : Nat
  live : Bool
  deriving DecidableEq, Repr

/-- The calibration manager beside its registers. `written`: the inactive bank is written and switches in at a frame; the
open command that this completes, and the frame. `gathered` holds the complete elements since `firstResult`, `ended` what has
played and awaits its result, `detected` the circuits with a detected gap and its opening tick, `switchedAt` the tick of the last switch of
bank, `mirrorNo` the MIRROR record that carries a job's optical records to the standby, with the tick at which the wait for its
acknowledgement ends (R378). -/
structure Cal where
  bankA : Bank := {}
  bankB : Bank := {}
  job : Option CalJob := none
  gaps : List Gap := []
  detected : List (Nat × Nat) := []
  items : List CalItem := []
  failed : List Nat := []
  ended : List CalEnd := []
  gathered : List Gathered := []
  firstResult : Option Nat := none
  written : Option (Option Nat × Nat) := none
  switchedAt : Nat := 0
  mirrorNo : Option (Nat × Nat) := none
  deriving DecidableEq, Repr

end Sys2Proof.Machine
end

