-- ==== Sys2Proof/Machine/TypesCpx.lean ====
section
/-! DEFINITION. Plain data of the command processor, the host interface, boot and the timebase unit. -/

namespace Sys2Proof.Machine

/-- A reply to be numbered and sent (Table 2-4). `owner` is the requester that the transport is bound to (R480),
`desc` the result descriptor of R40 where the command brought one, `record` whether the reply belongs in the replay
window (R45), `again` the recorded number and time of a duplicate's answer (R46), `publish` whether
`event_on_done` asks for an event (R481), `cut` whether the command itself has cut its result short (R195), `time` the TAI ns of the
instant at which the status was decided, once it has been (Table 2-4). -/
structure Reply where
  via : Via
  owner : Nat
  opcode : Nat
  requester : Nat
  tag : Nat
  seq : Nat
  status : Nat
  final : Bool
  dup : Bool
  lowConf : Bool
  result : Bytes
  desc : Option (Nat × Nat)
  record : Bool
  again : Option (Nat × Nat)
  publish : Bool
  cut : Bool := false
  time : Option Nat := none
  deriving DecidableEq, Repr

/-- An event to be numbered and delivered (Table 2-8); `data` is bytes [63:24], cut or filled to 40 bytes. `tick` is the instant at
which it occurred and `time` that instant in TAI ns (R15). -/
structure Event where
  code : Nat
  source : Nat
  lowConf : Bool
  data : Bytes
  tick : Nat
  time : Nat
  deriving DecidableEq, Repr

/-- What one row has to say to the host, in the order in which it came about, before R25 numbers it; `tick` is the instant. A reply,
an event, the event of R481 for a reply, and the loss records of R54: of the event ring, and of session `number`. -/
inductive Emission where
  | reply (tick : Nat) (r : Reply)
  | event (e : Event)
  | done (tick : Nat) (r : Reply)
  | ringLoss (tick : Nat)
  | sessionLoss (tick number : Nat)
  deriving DecidableEq, Repr

/-- What a reply of the row has received with its number: requester, tag, number and flags (R481). -/
structure Numbered where
  requester : Nat
  tag : Nat
  evseq : Nat
  rflags : Nat
  deriving DecidableEq, Repr

/-- What the block has sent out, oldest first: the observable record of a run. -/
inductive Output where
  | hostWrite (addr : Nat) (bytes : Bytes)
  | msix (vector : Nat)
  | datagram (addr port : Nat) (bytes : Bytes)
  | element (link : Nat) (kind : Nat) (fields : List Nat)
  | cell (chain : Nat) (kind : Nat) (fields : List Nat)
  | twin (kind : Nat) (fields : List Nat)
  | flash (slot : Nat) (image : SlotImage)
  deriving DecidableEq, Repr

/-- The latest reply a replay-window entry keeps (R46). -/
structure Recorded where
  opcode : Nat
  requester : Nat
  seq : Nat
  status : Nat
  final : Bool
  lowConf : Bool
  evseq : Nat
  time : Nat
  result : Bytes
  cut : Bool
  deriving DecidableEq, Repr

/-- One entry of a replay window (R46). -/
structure WinEntry where
  tag : Nat
  crc : Nat
  reply : Option Recorded
  deriving DecidableEq, Repr

/-- What the CPX keeps for one requester number: its replay window (R46), the highest sequence seen (R52) with the tag and sequence
of the commands refused transiently, whose resend is no jump, its two event masks (R483) and the replies that are held for it, each with
its transport (R62). -/
structure Requester where
  window : List WinEntry := []
  highSeq : Option Nat := none
  refused : List (Nat × Nat) := []
  ringMask : Nat := 0
  ownMask : Nat := 0
  held : List (Via × Bytes) := []
  deriving DecidableEq, Repr

/-- One ring pair beside its registers: the requester it serves, the completion phase bit, a disable that waits
(R48), MSI-X coalescing (R35) and since when the completion ring has been full (R62). `slots` is what host memory holds from SQ_HEAD on, as
the last doorbell has brought it, and `images` what the host addresses in those commands hold: what the pair has still to fetch (R50). -/
structure Ring where
  bound : Option Nat := none
  phase : Bool := true
  disabling : Bool := false
  unsignalled : Nat := 0
  firstUnsignalled : Nat := 0
  fullSince : Option Nat := none
  slots : Bytes := []
  images : List Bytes := []
  deriving DecidableEq, Repr

/-- An open UDP session (R37, R491). -/
structure Session where
  number : Nat
  requester : Nat
  addr : Nat
  port : Nat
  lost : Nat
  deriving DecidableEq, Repr

/-- A command that has been taken and has no final reply yet (R44). -/
structure OpenCmd where
  oid : Nat
  owner : Nat
  packet : Packet
  lowConf : Bool := false
  deriving DecidableEq, Repr

/-- A command taken from its transport whose start waits for a fence (Table 2-2), with the wall time at which it was taken. -/
structure WaitCmd where
  owner : Nat
  packet : Packet
  arrived : Int
  deriving DecidableEq, Repr

/-- A command under execution: its number among the open commands, the requester it belongs to (R480), the packet, and the wall time of
its arrival where that lies before its start (R93). -/
structure Call where
  oid : Nat
  owner : Nat
  packet : Packet
  arrived : Option Int := none
  deriving DecidableEq, Repr

/-- What the body of a command answers: a final status with its result, or ACCEPTED with its result (R44). -/
inductive Verdict where
  | final (status : Nat) (result : Bytes)
  | accepted (result : Bytes)
  deriving DecidableEq, Repr

/-- How a key stands when its command is checked (R42, R99, R101): run now, passed (with its entry), passed and strict,
no schedule entry free, or waiting in an entry. -/
inductive KeyState where
  | now
  | late (entry : Nat)
  | tooLate
  | full
  | waits (entry : Nat)
  deriving DecidableEq, Repr

/-- What is done once the replies of the row have been sent (R482, R485, R493). -/
inductive PostAction where
  | close (owner : Nat)
  | restart (cold : Bool)
  | cancel (oid : Nat)
  deriving DecidableEq, Repr

/-- The command processor's state beside its registers. `turn` is the participant of R50 whose turn is next (0 to 7 the ring pairs, 8 the UDP
intake). -/
structure Cpx where
  requesters : Table Requester := []
  rings : Table Ring := []
  eqPhase : Bool := true
  eqLost : Nat := 0
  sessions : List Session := []
  waiting : List WaitCmd := []
  opened : List OpenCmd := []
  nextOid : Nat := 1
  accepting : Bool := false
  emissions : List Emission := []
  post : List PostAction := []
  turn : Nat := 0
  deriving DecidableEq, Repr

/-- Boot and identity (chapter 03): fused values, NV values and the booted image. `staged` is the flash slot that IMAGE_UPDATE has written and
staged last, with what it holds (R73). -/
structure Hst where
  ownerKey : Option Nat := none
  nonceCount : Nat := 0
  image : Option SlotImage := none
  bootedSlot : Nat := 0
  warm : Bool := false
  portIdle : Bool := true
  restartsAt : List Int := []
  restartDue : Option Nat := none
  update : Option (Nat × Nat × Bytes) := none
  nextCause : Nat := 1
  lawStore : List (Nat × Bytes) := []
  staged : Option (Nat × SlotImage) := none
  deriving DecidableEq, Repr

/-- A key (Table 2-3). -/
structure Key where
  kind : Nat
  train : Nat
  track : Nat
  pos : Nat
  time : Nat
  deriving DecidableEq, Repr

/-- A tracked train (R91, R92): track, reference point, speed and the instant of its last report. -/
structure Train where
  track : Nat
  pRef : Int
  tRef : Int
  speed : Int
  tLast : Int
  level : Nat
  deriving DecidableEq, Repr

/-- A wheel-sensor input (Table 4-2, R96). `quietFrom` is the tick from which the quiet time counts. -/
structure WheelSensor where
  en : Bool := false
  falling : Bool := false
  track : Nat := 0
  position : Int := 0
  debounce : Nat := 0
  quiet : Nat := 0
  window : Nat := 0
  quietFrom : Nat := 0
  deriving DecidableEq, Repr

/-- A schedule entry in use (R104): state 1 waiting, 2 held, 3 fired and not yet final. `predicted` is the tick at
which it is predicted to fire. -/
structure SchedEntry where
  state : Nat
  strict : Bool
  lowConf : Bool
  late : Bool
  owner : Nat
  opcode : Nat
  tag : Nat
  key : Key
  oid : Nat
  predicted : Option Nat
  angleFrom : Nat
  deriving DecidableEq, Repr

/-- The timebase unit beside its registers: wall time (R88), the 1588 servo (R89), trains, wheel sensors, the
schedule and the angle tracker (R105 to R109). Wall time is `wallBase` half ns at timebase count `wallRef`; from there it runs with the
rate correction `wallRate`, in 10⁻⁹, and takes `slewLeft` half ns in. `est` and `estTick` are the tracker's own estimate of the angle and the tick
that it belongs to; `estFreq` is its frequency. -/
structure Tbu where
  wallBase : Int := 0
  wallRef : Nat := 0
  wallRate : Int := 0
  slewLeft : Int := 0
  goodSyncs : Nat := 0
  lastSync : Option Nat := none
  holdoverFrom : Option Nat := none
  evseq : Nat := 1
  trains : List (Nat × Train) := []
  wheels : Table WheelSensor := []
  sched : List (Nat × SchedEntry) := []
  angleRef : Nat := 0
  angleTick : Nat := 0
  everLocked : Bool := false
  flywheelFrom : Option Nat := none
  angleSlew : Int := 0
  est : Nat := 0
  estFreq : Nat := 0
  estTick : Nat := 0
  deriving DecidableEq, Repr

end Sys2Proof.Machine
end

