-- ==== Sys2Proof/Machine/TypesOpt.lean ====
section
/-! DEFINITION. Plain data of the optical core: the fabric map and the circuit table (chapter 05), moves, sluices and
the shaping store (chapter 06), loops and their state (chapter 07). -/

namespace Sys2Proof.Machine

/-- An element record (Table 5-3). -/
structure MapElem where
  kind : Nat
  stage : Nat
  idleCross : Bool
  row : Nat
  assoc : Nat
  deriving DecidableEq, Repr

/-- A port record (Table 5-4); attachments as (cell, side). -/
structure MapPort where
  inTap : Nat
  outVoa : Nat
  outTap : Nat
  ceilMax : Int
  ceilDef : Int
  inCell : Nat
  inSide : Nat
  outCell : Nat
  outSide : Nat
  deriving DecidableEq, Repr

/-- An edge record (Table 5-5): the cell and input side each output feeds; none where it leaves to a port. -/
structure MapEdge where
  cell : Nat
  out0 : Option (Nat × Nat)
  out1 : Option (Nat × Nat)
  deriving DecidableEq, Repr

/-- A path record (Table 5-6); hops as (cell, cross). -/
structure MapPath where
  inPort : Nat
  outPort : Nat
  rank : Nat
  hops : List (Nat × Bool)
  deriving DecidableEq, Repr

/-- A fabric map (Table 5-2 and its four tables). The default is the empty map of R119. -/
structure FabricMap where
  topology : Nat := 0
  ports : Nat := 0
  stages : Nat := 0
  nDrive : Nat := 0
  nMon : Nat := 0
  mapId : Nat := 0
  darkThr : Int := 0
  tripMargin : Nat := 0
  attMax : Nat := 0
  elems : List (Nat × MapElem) := []
  portTab : List MapPort := []
  edges : List MapEdge := []
  paths : List MapPath := []
  deriving DecidableEq, Repr

/-- A circuit in use (Table 5-9) with its path: switch cells and their settings (true is cross). `darkAt` is the tick at
which `dark` was last set; `loss` is the insertion loss of the path, summed as the circuit became live (R176). -/
structure Circuit where
  state : Nat
  inPort : Nat
  outPort : Nat
  att : Nat
  path : List (Nat × Bool)
  dark : Bool
  setTag : Nat
  distTag : Nat
  tLive : Nat
  darkAt : Nat := 0
  loss : Frac := ⟨0, 1⟩
  deriving DecidableEq, Repr

/-- One element that a move changes, in plan order. `cross` is the new setting of a switch cell, `att` the new
attenuation target of a VOA (kind 2) in 0.01 dB. `phase`: 0 waits for its key, 1 waits for a sluice, 2 in a sluice,
3 played and waiting for hand-back, 4 handed back, 5 withdrawn. `bracket` is that whose shape a class 0 element plays (R140); `missed` says that its
first segment has been found incomplete (R230). -/
structure MoveElem where
  el : Nat
  kind : Nat
  cross : Bool
  att : Nat
  phase : Nat
  started : Bool
  bracket : Nat := 0
  missed : Bool := false
  deriving DecidableEq, Repr

/-- An accepted move of group 0x02 that has no final reply yet (R121, R156, R485). `fire` is the tick at which its
key fired, `lastEnd` that of the latest end among its transitions (R147). -/
structure Move where
  oid : Nat
  owner : Nat
  tag : Nat
  opcode : Nat
  keyKind : Nat
  fire : Option Nat
  entry : Option Nat
  klass : Nat
  order : Nat
  strict : Bool
  late : Bool
  refused : Bool
  deferred : Bool
  elems : List MoveElem
  sets : List Nat
  clears : List Nat
  path : List (Nat × List (Nat × Bool))
  atts : List (Nat × Nat)
  dist : List Nat
  result : Bytes
  settled : Nat
  blank : List Nat
  lastEnd : Option Nat := none
  deriving DecidableEq, Repr

/-- A circuit as a plan under way sees it (R121, R131): `state` of Table 5-8 before the command, `own` where the
command sets, clears or re-attenuates it. -/
structure PlanCirc where
  state : Nat
  inPort : Nat
  outPort : Nat
  path : List (Nat × Bool)
  own : Bool
  deriving DecidableEq, Repr

/-- A plan under way: circuits taken as live, ports of pending clears, new cell settings, VOA targets, the elements
in plan order with the entry that first changed each, circuits set and cleared, and targets that are only stored. -/
structure Work where
  circs : List (Nat × PlanCirc)
  heldIn : List Nat
  heldOut : List Nat
  cur : List (Nat × Bool)
  voas : List (Nat × Nat)
  order : List (Nat × Nat)
  born : List Nat
  cleared : List Nat
  atts : List (Nat × Nat)
  used : List Nat
  deriving DecidableEq, Repr

/-- A finished plan (R125 to R127). -/
structure Plan where
  elems : List (Nat × Nat × Bool × Nat)
  paths : List (Nat × List (Nat × Bool))
  dist : List Nat
  demand : Nat
  waves : Nat
  deriving DecidableEq, Repr

/-- A trip of the looping algorithm (R123): a circuit of the resulting permutation at one level of the network.
`present` holds the cells of its present route from this level inwards, `home` the first-stage cells of the network
that its present route crosses at this level. -/
structure Trip where
  id : Nat
  existing : Bool
  inPort : Nat
  inCell : Nat
  inSide : Nat
  outCell : Nat
  outSide : Nat
  present : List Nat
  home : List Nat
  deriving DecidableEq, Repr

/-- The route planner beside its registers. `overs` has, for each port whose tap reads above its ceiling and margin, the number of consecutive frames
in which it did, and the last of them plus 1 (R133); `ceilDue` the ceilings that apply from the next frame (R135). -/
structure Rtp where
  map : FabricMap := {}
  circuits : List (Nat × Circuit) := []
  settings : Table Bool := []
  adopted : List (Nat × Nat) := []
  loading : Option (Nat × FabricMap) := none
  moves : List Move := []
  nextOrder : Nat := 0
  overs : Table (Nat × Nat) := []
  ceilDue : List (Nat × Nat) := []
  deriving DecidableEq, Repr

/-- Whose segment a descriptor holds: element, bracket (16 for a rake, 17 for live steps), direction and part of the shape. -/
structure SegTag where
  el : Nat := 0
  bracket : Nat := 0
  rise : Bool := false
  part : Nat := 0
  deriving DecidableEq, Repr

/-- A segment descriptor (Table 6-1), whether its segment is complete (Table 6-2), whose it is, and whether it is of a calibration bank
that is no longer in force. -/
structure SegDesc where
  base : Nat
  len : Nat
  rep : Nat
  next : Nat
  jump : Nat
  last : Bool
  complete : Bool
  tag : SegTag := {}
  stale : Bool := false
  deriving DecidableEq, Repr

/-- What a sluice plays or is to play next: the element, its move (none for calibration work), the class of R154, the
first descriptor, the start instant, and whether its samples are absolute codes (a rake, R143). `kept` has the samples of its shape where
the bank has been switched since the grant (R373). -/
structure Grant where
  el : Nat
  oid : Option Nat
  klass : Nat
  desc : Nat
  startAt : Nat
  rake : Bool
  kept : List Nat := []
  deriving DecidableEq, Repr

/-- One sluice beside its registers: the transition in progress, the segment and pass it plays, and the grant made
in advance (R145, R154). `passAt` is the tick at which the current pass of the segment began; `ended` holds the elements that it
has played and that wait for their hand-back. `shape` has the samples of the shape in play and `tag` its part (R140); `closed` says that the sample
carrying `last` has been sent (R247). -/
structure Sluice where
  cur : Option Grant := none
  next : Option Grant := none
  desc : Nat := 0
  passAt : Nat := 0
  passes : Nat := 0
  c0 : Nat := 0
  c1 : Nat := 0
  lastCode : Nat := 0
  jump : Option Nat := none
  stop : Bool := false
  stopCode : Option Nat := none
  stalledAt : Option Nat := none
  freeAt : Nat := 0
  ended : List Nat := []
  invalid : Bool := false
  shape : List Nat := []
  tag : SegTag := {}
  closed : Bool := false
  deriving DecidableEq, Repr

/-- A calibration sweep that waits for a sluice (R155, R379). -/
structure RakeWait where
  el : Nat
  desc : Nat
  order : Nat
  live : Bool
  deriving DecidableEq, Repr

/-- The transition engine beside its registers. -/
structure Trn where
  sluices : Table Sluice := []
  descs : List (Nat × SegDesc) := []
  granules : Table (List Nat) := []
  sweeps : Table Nat := []
  rakes : List RakeWait := []
  fast : List (Nat × List (Nat × Nat)) := []
  deriving DecidableEq, Repr

/-- Why a loop sends no code (Table 7-3): parked, adopted, blanked; an empty set suspends without a bit here. `waits`: a move has taken the
element out of economy and plays its shape from code 0 (R28), so its loop does not drive it before. -/
structure Suspend where
  parked : Bool := false
  adopted : Bool := false
  blanked : Bool := false
  waits : Bool := false
  deriving DecidableEq, Repr

/-- How a loop that begins to drive starts (Table 7-6): the starting code, and the start error where it is not the
error of the first frame's samples. -/
structure LoopStart where
  code : Nat
  err : Option Frac
  deriving DecidableEq, Repr

/-- The record of one hold loop (R169): its binding, the code last sent, the integrator, the last error, flags, the
setpoint operand (R191), the start that is due, precision history and placement. `maskAt` is a frame in which the lane is
masked because its record could not be read (R452). `aTap` and `bTap` are the taps of its last evaluation outside a sluice (R198). -/
structure Loop where
  slot : Nat := 0xFF
  set : Nat := 0
  code : Nat := 0
  i : Ext := ⟨0, -128⟩
  eLast : Frac := ⟨0, 1⟩
  target : Frac := ⟨0, 1⟩
  flags : Nat := 0
  operand : Word := 0
  start : Option LoopStart := none
  susp : Suspend := {}
  inSluice : Bool := false
  bits : List Nat := []
  words : List Frac := []
  out : Frac := ⟨0, 1⟩
  bindDue : Option (Nat × Nat) := none
  operandDue : Option Word := none
  evicted : Bool := false
  exps : List Int := []
  lowBits : Bool := false
  darkFrom : Option Nat := none
  aTap : Nat := 0
  bTap : Nat := 0
  uUnsat : Frac := ⟨0, 1⟩
  f : Frac := ⟨0, 1⟩
  stageExp : Int := -128
  maskAt : Option Nat := none
  deriving DecidableEq, Repr

/-- A COEF_SWAP that has not reached its boundary (R187, R192). -/
structure SwapDue where
  oid : Nat
  atFrame : Nat
  power : Bool
  sets : List Nat
  deriving DecidableEq, Repr

/-- A signal of a trace capture (Table 7-11). -/
structure TraceSignal where
  source : Nat
  quantity : Nat
  deriving DecidableEq, Repr

/-- Trace capture (R193, R194) and harvest (R195). `seen` and `seenBefore` are what the trigger watches, as the last two
records found it; `trigDue` says that this frame's record, still to be written, is the trigger record. -/
structure Trace where
  signals : List TraceSignal := []
  trigKind : Nat := 0
  trigArg : Nat := 0
  depth : Nat := 0
  pre : Nat := 0
  records : List Bytes := []
  trigAt : Option Nat := none
  left : Nat := 0
  gap : Bool := false
  harvest : Option (Nat × Nat × Nat) := none
  seenBefore : Nat := 0
  seen : Nat := 0
  lastFrame : Option Nat := none
  trigDue : Bool := false
  deriving DecidableEq, Repr

/-- An owner law that has been loaded (R210) and switches in at a boundary (R211). -/
structure LawLoad where
  oid : Nat
  slot : Nat
  words : List Nat
  base : Nat
  kind : Nat
  cost : Nat
  lawId : Nat
  version : Nat
  digest : Nat
  was : Bytes := []
  atFrame : Nat := 0
  deriving DecidableEq, Repr

/-- One block of an engine's placement list (R161, R218): law slot and the elements in its lanes. -/
structure LpcBlock where
  slot : Nat
  lanes : List (Option Nat)
  ended : Nat
  deriving DecidableEq, Repr

/-- An engine's progress in the frame (R181, R183, R438): when it is free for its next block, when its last block ended, the
ticks for which it has been paused, and the blocks that it has run. -/
structure EngTime where
  free : Nat := 0
  last : Nat := 0
  paused : Nat := 0
  blocks : Nat := 0
  deriving DecidableEq, Repr

/-- The loop cluster beside its registers. `eng` is each engine's progress in this frame, `slacks` its slack in the last
400 frames, newest first. `samples` and `taps` are the two buffers of R17, by element and parity of the frame. Codes go from `codesDue` (stored, not yet sent) by `codesSent` (sent, to act at
the next strobe, R20) to `applied` (in force at the front-end); those stored too late for
this frame wait in `codesNext`. -/
structure Lpc where
  loops : Table Loop := []
  sets : Table (List Word) := []
  shadow : Table (List Word) := []
  swaps : List SwapDue := []
  blocks : Table (List LpcBlock) := []
  ucode : Table Nat := []
  laws : List LawLoad := []
  trace : Trace := {}
  samples : Table (Nat × Nat) := []
  taps : Table Nat := []
  linkFrame : Table Nat := []
  strobeAt : Nat := 0
  codesDue : List (Nat × Nat) := []
  codesNext : List (Nat × Nat) := []
  codesSent : List (Nat × Nat) := []
  applied : Table Nat := []
  eng : Table EngTime := []
  slacks : Table (List Nat) := []
  rewritten : List Nat := []
  deriving DecidableEq, Repr

end Sys2Proof.Machine
end

