-- ==== Sys2Proof/Machine/TypesSst.lean ====
section
/-! DEFINITION. Plain data of the cell link (chapter 11) and of the cell modulation unit (chapter 12). -/

namespace Sys2Proof.Machine

/-- A CMD record sent to a cell whose ACK has not arrived (R278): what it asks, in which period it was last sent, how
often it was resent, and the command it serves. -/
structure CellCmd where
  cseq : Nat
  op : Nat
  tAct : Nat
  sent : Nat
  retries : Nat
  oid : Option Nat
  deriving DecidableEq, Repr

/-- A CMD record that waits for the next command window (R276). -/
structure CellCmdWait where
  op : Nat
  tAct : Nat
  oid : Option Nat
  deriving DecidableEq, Repr

/-- One cell beside its registers: its last measurements in the units of R272, whether the MEAS of the current period
has arrived and on which sides, whether one has arrived since its chain entered state 2, the periods missed in a row, what the PINGs answered
on each side have measured (round trip less `turn`, R274), its commands, and the v_dc values of the last periods, newest first (R287). -/
structure CellNode where
  vDc : Nat := 0
  iAc : Int := 0
  iDab : Int := 0
  vOut : Nat := 0
  tHot : Int := 0
  faultCode : Nat := 0
  got : Bool := false
  sideA : Bool := false
  sideB : Bool := false
  seen : Bool := false
  missed : Nat := 0
  pingsA : List Nat := []
  pingsB : List Nat := []
  cmds : List CellCmd := []
  waiting : List CellCmdWait := []
  hist : List Nat := []
  deriving DecidableEq, Repr

/-- One chain beside its registers: command numbers (R278), the ports without sync, when a failure or
a state's time limit falls due, and the periods without any MEAS (R282). -/
structure Chain where
  cseq : Nat := 0
  lostPorts : Nat := 0
  retryAt : Option Nat := none
  stateFrom : Nat := 0
  silent : Nat := 0
  deriving DecidableEq, Repr

/-- An addressed TIME record that waits for the next command window (R275, R276): port, distance and delay. -/
structure TimeDue where
  port : Nat
  dest : Nat
  dly : Nat
  deriving DecidableEq, Repr

/-- The cell link beside its registers; `sent` counts the records sent on each port (Table 11-2). -/
structure Cln where
  chains : Table Chain := []
  sent : Table Nat := []
  timesDue : List TimeDue := []
  cells : Table CellNode := []
  timeAt : Nat := 0
  remeasureAt : Nat := 0
  windowAt : Nat := 0
  deriving DecidableEq, Repr

/-- A ramp (R296): `done` of `steps` equal steps from `start` to `stop` have been made. -/
structure Ramp where
  start : Frac
  stop : Frac
  steps : Nat
  done : Nat
  deriving DecidableEq, Repr

/-- One lane of a power loop (R169): integrator, resonator states, previous output and error, whether it runs, its unsaturated output and the
exponent of its error stage (R193), and the least bits kept in the last 400 evaluations (R170). -/
structure PowerLane where
  run : Bool := false
  i : Ext := ⟨0, -128⟩
  s0 : Ext := ⟨0, -128⟩
  s1 : Ext := ⟨0, -128⟩
  out : Frac := ⟨0, 1⟩
  eLast : Frac := ⟨0, 1⟩
  flags : Nat := 0
  fresh : Bool := false
  f : Frac := ⟨0, 1⟩
  uUnsat : Frac := ⟨0, 1⟩
  stageExp : Int := -128
  bits : List Nat := []
  deriving DecidableEq, Repr

/-- The outputs of one evaluation of the power loops (R289). -/
structure PowerOut where
  psel : Frac := ⟨0, 1⟩
  sel : Nat := 0
  cands : List (Option Frac) := []
  vmod : Frac := ⟨0, 1⟩
  dm : List (Nat × Frac) := []
  phi : List (Nat × Frac) := []
  pdab : Frac := ⟨0, 1⟩
  duty : Frac := ⟨0, 1⟩
  deriving DecidableEq, Repr

/-- The parameters of an accepted SST_START (Table 12-6). -/
structure StartParams where
  vdcRef : Nat
  voutRef : Nat
  pcWait : Nat
  pcTmax : Nat
  pcPct : Nat
  legMask : Nat
  rampMs : Nat
  dabRampMs : Nat
  deriving DecidableEq, Repr, Inhabited

/-- A coast that a NEUTRAL_SECTION key has started (R309, R310). -/
structure Coast where
  kind : Nat
  train : Nat
  endPos : Int
  rising : Bool
  endAt : Nat
  rampMs : Nat
  deriving DecidableEq, Repr

/-- A bypass that acts at a later period start (R306). -/
structure BypassDue where
  oid : Nat
  cell : Nat
  period : Nat
  deriving DecidableEq, Repr

/-- The cell modulation unit beside its registers. `period` is the period length in frames, `k` the count and `start`
the tick of the period in progress; `limDue` are limit registers (offset and word) that take effect at the next period start. `stopEngines` are the engines that stopped in
period `stopPeriod` (R196); `lanesWere` are the lanes before this period's evaluation, `shown` those published at 0.40P (R194). `legsOff` says that a failed start forces the LV
legs off at the next period start (R303, R343). -/
structure Cmu where
  period : Nat := 20
  k : Nat := 0
  start : Nat := 0
  nextPeriod : Option (Nat × Nat × Nat) := none
  limDue : List (Nat × BitVec 32) := []
  startCmd : Option (Nat × StartParams) := none
  startAt : Nat := 0
  stageAt : Nat := 0
  within : Nat := 0
  params : StartParams := ⟨0, 0, 0, 0, 0, 0, 0, 0⟩
  stopOid : Option Nat := none
  vdcRamp : Option Ramp := none
  voutRamp : Option Ramp := none
  vdcRef : Frac := ⟨0, 1⟩
  voutRef : Frac := ⟨0, 1⟩
  lvRamp : Option Ramp := none
  rRamp : Option Ramp := none
  rHold : Bool := false
  coasts : List Coast := []
  coastFrom : Option Nat := none
  neutralTrigger : Bool := false
  nextSet : Option Nat := none
  bypasses : List BypassDue := []
  blockDue : Option Nat := none
  legsOff : Bool := false
  lanes : Table PowerLane := []
  next : PowerOut := {}
  outNow : PowerOut := {}
  evaluated : Bool := true
  stopPeriod : Option Nat := none
  stopEngines : List Nat := []
  lanesWere : Table PowerLane := []
  shown : Table PowerLane := []
  lateStreak : Nat := 0
  overStreak : Nat := 0
  ocStreak : Nat := 0
  voutHold : Bool := false
  levels : Table Nat := []
  edges : List (Nat × List (Nat × Nat × Bool)) := []
  brkAt : Nat := 0
  brkSource : Option Nat := none
  iCat : Int := 0
  vLv : Int := 0
  iLv : Int := 0
  stale : Nat := 0
  deriving DecidableEq, Repr

end Sys2Proof.Machine
end

