-- ==== Sys2Proof/Machine/TypesTwn.lean ====
section
/-! DEFINITION. Plain data of the twin manager (chapter 17). -/

namespace Sys2Proof.Machine

/-- A reply that waits for the standby: for MACK of a MIRROR record (R420) or for the FRESULT of a forwarded command
(R421). `number` is the record's, `due` the tick at which the wait ends without it. -/
structure TwinWait where
  number : Nat
  due : Nat
  reply : Reply
  deriving DecidableEq, Repr

/-- A command that this unit, as the active one, has forwarded and not answered finally yet (R421): the number of its last record, the
command's owner and tag, when the wait for the
standby ends, the standby's status once it has answered, and its records: number, and what each carries beside it. -/
structure ForwardSent where
  number : Nat
  owner : Nat
  tag : Nat
  due : Nat
  status : Option Nat
  records : List (Nat × List Nat)
  deriving DecidableEq, Repr

/-- A forwarded command that this unit has received and that waits for its boundary (R421): number, opcode, payload. -/
structure Forwarded where
  number : Nat
  opcode : Nat
  boundary : Nat
  payload : Bytes
  deriving DecidableEq, Repr

/-- The twin manager's state beside its registers. `offset` is the pair offset in counts; `hbDue` the tick at which the next
heartbeat is due, `streak` the heartbeats missed in a row, `txPair` and `rxPair` the pair counts at which this unit's last
heartbeat left and the peer's last one arrived; `ofsRuns` the offsets measured so far, in half counts, `resync` the step of R429 to be
completed next (0: none), `digestSeen` whether a DIGEST has arrived since it began. `peerHighFrom` and `peerLowFrom` are since
when PEER_CLAIM_IN has had its level. `switchAt` is the switching strobe of a claim under way (R425). `yieldOids` and
`pairing` are the TWIN_YIELD and TWIN_PAIR commands without their final reply. `peerReady0` and `peerReady1` are the active
unit's ready bits as the standby knows them (Table 17-5), `timeDiff` the last wall-time difference in ns (R413), and
`inherited` the commands taken over from the peer: number, tag, schedule entry (R428). `mirrorSent` holds the MIRROR records not
yet acknowledged, `peerMseq` the last one that the peer's heartbeat names, `items` the items received since resynchronisation began,
`payloads` the payloads of keyed commands of the peer, `startTag` the tag of its SST_START, `peerConfig` its last mirrored digest. `fstatus` is the last status
answered, `fwdOpen` the forwarded commands that run here: number of the command and of the record, `fwdPart` what has arrived of a command whose
image goes on in the next FORWARD record. -/
structure Twn where
  offset : Int := 0
  peerHighFrom : Nat := 0
  peerLowFrom : Nat := 0
  peerYield : Bool := false
  yielding : Bool := false
  heard : Option Nat := none
  hbDue : Option Nat := none
  streak : Nat := 0
  txPair : Nat := 0
  rxPair : Nat := 0
  peerEvseq : Nat := 0
  ofsRuns : List Int := []
  resync : Nat := 0
  digestSeen : Bool := false
  digestAt : Nat := 0
  switchAt : Option Nat := none
  pairing : List Nat := []
  yieldOids : List Nat := []
  mseq : Nat := 0
  mapplied : Nat := 0
  gapFrom : Option Nat := none
  fseq : Nat := 0
  fapplied : Nat := 0
  fstatus : Nat := 0
  fwdOpen : List (Nat × Nat) := []
  fwdSent : List ForwardSent := []
  fwdPart : Bytes := []
  forwarded : List Forwarded := []
  mirrorSent : List (Nat × List Nat) := []
  peerMseq : Nat := 0
  items : List Nat := []
  payloads : List (Nat × Bytes) := []
  startTag : Nat := 0
  peerConfig : Nat := 0
  waitMack : List TwinWait := []
  waitForward : List TwinWait := []
  peerFirmware : Nat := 0
  peerCal : Nat := 0
  peerReady0 : Nat := 0
  peerReady1 : Nat := 0
  timeDiff : Int := 0
  inherited : List (Nat × Nat × Nat) := []
  deriving DecidableEq, Repr

end Sys2Proof.Machine
end

