-- ==== Sys2Proof/Machine/TypesMirror.lean ====
section
/-! DEFINITION. The mirrored items of Table 17-4 as plain data: what a MIRROR record brings up to date on the standby. -/

namespace Sys2Proof.Machine

/-- The content of the mirrored items (Table 17-4, R316): item 1 from `circuits` to `blanked`, item 2 to `payloads`, item 3 to
`legs`, item 4 `bank` and `switchAt`, item 5 `config`, item 6 the moves whose key has fired. The moves whose keys wait belong to
their schedule entries. `ready0` and `ready1` are the ready bits of the active unit (Table 17-5). -/
structure Mirrored where
  circuits : List (Nat × Circuit) := []
  settings : Table Bool := []
  adopted : List (Nat × Nat) := []
  ceilings : List Nat := []
  blanked : List Nat := []
  sched : List (Nat × SchedEntry) := []
  waits : List Move := []
  trains : List (Nat × Train) := []
  wheels : List Nat := []
  payloads : List (Nat × Bytes) := []
  stage : Nat := 0
  set : Nat := 0
  service : List Nat := []
  vdcRamp : Option Ramp := none
  voutRamp : Option Ramp := none
  lvRamp : Option Ramp := none
  rRamp : Option Ramp := none
  coasts : List Coast := []
  start : Option (Nat × StartParams) := none
  startTag : Nat := 0
  params : StartParams := default
  latches : Nat := 0
  lvRef : Nat := 0
  legs : Nat := 0
  bank : Bank := {}
  switchAt : Nat := 0
  config : Nat := 0
  fired : List Move := []
  ready0 : Nat := 0
  ready1 : Nat := 0
  deriving DecidableEq, Repr, Inhabited

end Sys2Proof.Machine
end

