-- ==== Sys2Proof/Config.lean ====
section
/-! DEFINITION. The free values of the model: what the spec leaves open or takes from mathematics that it does not
write out. Nothing here has a body, so no proof can use a value of one. -/

namespace Sys2Proof.Config

/-- A value the spec calls undefined or does not state; `n` counts the uses (State's `free`). -/
opaque freeValue : Nat → Nat

/-- Whether a signature verifies: key hash, message, signature (ECDSA P-384 over SHA-384; R60, R115, R210). -/
opaque ecdsaVerify : Nat → Bytes → Bytes → Bool

/-- The device key's signature over a message (R75). -/
opaque ecdsaSign : Bytes → Bytes

/-- SHA-384 of a message, 48 bytes least significant first. -/
opaque sha384 : Bytes → Nat

/-- The device public key's x coordinate and the parity byte of y (R75). -/
opaque devicePublicKey : Nat × Bool

/-- The session nonce drawn for the `n`-th time (R60). -/
opaque nonce : Nat → Nat

/-- 2 to the power −k/τ for a decay of `tau` (Q8.8), the real function of Table 15-3. -/
opaque decay : Nat → Nat → Frac

/-- The optical power that a raw tap sample stands for under a tap scale and a bracket tap scale of 8 bytes each
(Table 15-3); only its linearity is stated. -/
opaque tapPower : Nat → Nat → Nat → Frac

/-- A power in dBm (R132, R176): ten times the logarithm to the base 10, with the value the spec does not state at 0. -/
opaque dBm : Frac → Frac

/-- The quotient of a fraction by zero: the laws state none (R175). -/
opaque overZero : Frac → Frac

/-- The square root of 2 of R290 and R301. -/
opaque sqrtTwo : Frac

/-- sin 2πθ and cos 2πθ of an angle in 2^−32 turn (R290). -/
opaque sinTurn : Nat → Frac
/-- See `sinTurn`. -/
opaque cosTurn : Nat → Frac

/-- The resonator of law 16 (R290): gain, frequency in 2^−16 Hz, period in counts, states and error give the output
and the new states; the spec does not write it out. -/
opaque resonator : Frac → Nat → Nat → Frac → Frac → Frac → Frac × Frac × Frac

/-- The filters of laws 4 to 6 (R174, Table 7-2), which the spec does not write out: slot, c5, c6, c7, error and state words give the
derivative term or the shaped error, and the new state words. -/
opaque genericFilter : Nat → Frac → Frac → Frac → Frac → List Frac → Frac × List Frac

/-- The angle tracker's estimate after one sample (R105): from angle, frequency and amplitude carried forward, the
sample's code and TBU.CAT_SCALE it gives the new angle, frequency and amplitude; the spec gives its bounds only. -/
opaque catTrack : Nat × Nat × Nat → Int → Nat → Nat × Nat × Nat

/-- A conversion corrected with the offset and gain that a CONV record (Table 15-3) holds for a pair, converter and
reference (R348), and for the internal reference with that record's temperature coefficients (R441); the spec does not lay the record out. From
body, pair, converter B, reference, temperature of the reference in °C, bipolar and raw code. -/
opaque adcCorrect : List (BitVec 8) → Nat → Bool → Nat → Option Frac → Bool → Nat → Int

/-- The level in volts to which a DAC code is corrected (R359, R373, R441), from the CONV record's body, channel, span, temperature of the span
references in °C, and code. -/
opaque dacLevel : List (BitVec 8) → Nat → Nat → Option Frac → Nat → Frac

/-- The delay-line trim of a leg in ticks of 125 ps (R441), from the DELAY record's body, leg, and temperature of the delay lines in °C. -/
opaque delayTrim : List (BitVec 8) → Nat → Option Frac → Int

/-- Converter B is the one of its pair under calibration at a tick of a job (R357): the two are taken one at a time, in an order and at instants that
the spec does not state. From the job's command and the tick. -/
opaque calOnB : Nat → Nat → Bool

/-- A compiled map fits the route-table pool (check 9 of R115); the spec gives no size of a compiled map. -/
opaque mapFits : Bytes → Bool

/-- The mean of a hand-back's last samples, taps a and b, lies outside the element's crosstalk target for its new setting (R148); the spec
gives that target no number. The last operand is the target of the element's law under the new setting (R175, R176). -/
opaque settleMiss : Nat → Nat → Nat → Frac → Bool

/-- When the STROBE of a link has left in a frame (R245), in bit times after the strobe: the spec bounds that instant (Table 10-9) and does not
fix it. -/
opaque strobeEnd : Nat → Nat → Nat

/-- The DIMM of a DDR5 channel as its SPD tells it (R447), by channel: which of the three rates is the highest that it supports, and which of the
three sizes it has, each taken modulo 3. -/
opaque dimm : Nat → Nat × Nat

/-- What the spec leaves open of the JTAG IDCODE (R471): how its bits [31:28] write the revision, and its bits [11:0]. -/
opaque idcodeRest : Nat

/-- What a byte of DDR5 reads as that nothing has written since power-on: the spec does not say. -/
opaque ddrPowerOn : Nat → Byte

/-- What a read of the bus matrix's burst and ownership counters returns (BMX.M_STAT, BMX.T_STAT): no command of the block moves
single bursts. From the register's offset and the tick of the read. -/
opaque busState : Nat → Nat → Nat

/-- The mirrored items after a MIRROR record (Table 17-2): the spec does not lay out an item's update. From the item's number, the
update's bytes and the items before it. -/
opaque mirrorItem : Nat → Bytes → Machine.Mirrored → Machine.Mirrored

end Sys2Proof.Config
end

