-- ==== Sys2Proof/Machine/Regs.lean ====
section
/-! DEFINITION. The register map of BAR0: every register of the spec's register tables with its offset (R13), its
access code (Table 0-2), its reset value and the bits its access code covers, and the named fields of each register.
Made from the register and field tables of the spec's chapters. -/

namespace Sys2Proof.Machine

/-- The access codes of Table 0-2. -/
inductive Access where
  | ro | rw | d | w1c | w1s | cw
  deriving DecidableEq, Repr

/-- One bank of registers: `n1 × n2` registers at `base + i × s1 + j × s2`, their access code, reset value, and the
bits that the access code covers (`wmask`; the others are `rsvd` or read only). -/
structure RegBank where
  base : Nat
  s1 : Nat
  n1 : Nat
  s2 : Nat
  n2 : Nat
  acc : Access
  reset : Word
  wmask : Word
  deriving DecidableEq, Repr

/-- A field of one register: bits `lo + width − 1` to `lo` of the register at `off`. -/
structure FieldRef where
  off : Nat
  lo : Nat
  width : Nat
  deriving DecidableEq, Repr

/-- THS.ECON_CTRL (Table 1-7). -/
def R.thsEconCtrl : Nat := 0x110400
/-- THS.ECON_LV (Table 1-7). -/
def R.thsEconLv : Nat := 0x110404
/-- THS.ECON_STAT (Table 1-7). -/
def R.thsEconStat : Nat := 0x110408
/-- CPX.READY0 (Table 2-11). -/
def R.cpxReady0 : Nat := 0x0
/-- CPX.READY1 (Table 2-11). -/
def R.cpxReady1 : Nat := 0x4
/-- CPX.STATUS (Table 2-11). -/
def R.cpxStatus : Nat := 0x8
/-- CPX.UDP_CFG (Table 2-11). -/
def R.cpxUdpCfg : Nat := 0x10
/-- CPX.UDP_STAT (Table 2-11). -/
def R.cpxUdpStat : Nat := 0x14
/-- CPX.CMD_COUNT (Table 2-11). -/
def R.cpxCmdCount : Nat := 0x20
/-- CPX.DUP_COUNT (Table 2-11). -/
def R.cpxDupCount : Nat := 0x24
/-- CPX.BUSY_COUNT (Table 2-11). -/
def R.cpxBusyCount : Nat := 0x28
/-- CPX.SEQ_GAPS (Table 2-11). -/
def R.cpxSeqGaps : Nat := 0x2C
/-- CPX.SQ_BASE_LO (Table 2-11). -/
def R.cpxSqBaseLo (n : Nat) : Nat := 0x100 + n * 0x40
/-- CPX.SQ_BASE_HI (Table 2-11). -/
def R.cpxSqBaseHi (n : Nat) : Nat := 0x104 + n * 0x40
/-- CPX.SQ_SIZE (Table 2-11). -/
def R.cpxSqSize (n : Nat) : Nat := 0x108 + n * 0x40
/-- CPX.SQ_TAIL (Table 2-11). -/
def R.cpxSqTail (n : Nat) : Nat := 0x10C + n * 0x40
/-- CPX.SQ_HEAD (Table 2-11). -/
def R.cpxSqHead (n : Nat) : Nat := 0x110 + n * 0x40
/-- CPX.CQ_BASE_LO (Table 2-11). -/
def R.cpxCqBaseLo (n : Nat) : Nat := 0x114 + n * 0x40
/-- CPX.CQ_BASE_HI (Table 2-11). -/
def R.cpxCqBaseHi (n : Nat) : Nat := 0x118 + n * 0x40
/-- CPX.CQ_SIZE (Table 2-11). -/
def R.cpxCqSize (n : Nat) : Nat := 0x11C + n * 0x40
/-- CPX.CQ_HEAD (Table 2-11). -/
def R.cpxCqHead (n : Nat) : Nat := 0x120 + n * 0x40
/-- CPX.CQ_TAIL (Table 2-11). -/
def R.cpxCqTail (n : Nat) : Nat := 0x124 + n * 0x40
/-- CPX.RING_CTRL (Table 2-11). -/
def R.cpxRingCtrl (n : Nat) : Nat := 0x128 + n * 0x40
/-- CPX.RING_STAT (Table 2-11). -/
def R.cpxRingStat (n : Nat) : Nat := 0x12C + n * 0x40
/-- CPX.EQ_BASE_LO (Table 2-11). -/
def R.cpxEqBaseLo : Nat := 0x300
/-- CPX.EQ_BASE_HI (Table 2-11). -/
def R.cpxEqBaseHi : Nat := 0x304
/-- CPX.EQ_SIZE (Table 2-11). -/
def R.cpxEqSize : Nat := 0x308
/-- CPX.EQ_HEAD (Table 2-11). -/
def R.cpxEqHead : Nat := 0x30C
/-- CPX.EQ_TAIL (Table 2-11). -/
def R.cpxEqTail : Nat := 0x310
/-- CPX.EQ_LOST (Table 2-11). -/
def R.cpxEqLost : Nat := 0x314
/-- HST.BOOT_STAT (Table 3-5). -/
def R.hstBootStat : Nat := 0x10000
/-- HST.RESET_CAUSE (Table 3-5). -/
def R.hstResetCause : Nat := 0x10004
/-- HST.ROLLBACK (Table 3-5). -/
def R.hstRollback : Nat := 0x10008
/-- HST.COLD_COUNT (Table 3-5). -/
def R.hstColdCount : Nat := 0x1000C
/-- HST.DEVID (Table 3-5). -/
def R.hstDevid (n : Nat) : Nat := 0x10010 + n * 0x4
/-- HST.NONCE (Table 3-5). -/
def R.hstNonce (n : Nat) : Nat := 0x10020 + n * 0x4
/-- HST.OWNER_SET (Table 3-5). -/
def R.hstOwnerSet : Nat := 0x10040
/-- TBU.FRAME_LO (Table 4-7). -/
def R.tbuFrameLo : Nat := 0x90000
/-- TBU.FRAME_HI (Table 4-7). -/
def R.tbuFrameHi : Nat := 0x90004
/-- TBU.CYCLE (Table 4-7). -/
def R.tbuCycle : Nat := 0x90008
/-- TBU.TAI_LO (Table 4-7). -/
def R.tbuTaiLo : Nat := 0x90010
/-- TBU.TAI_HI (Table 4-7). -/
def R.tbuTaiHi : Nat := 0x90014
/-- TBU.EVSEQ_LO (Table 4-7). -/
def R.tbuEvseqLo : Nat := 0x90018
/-- TBU.EVSEQ_HI (Table 4-7). -/
def R.tbuEvseqHi : Nat := 0x9001C
/-- TBU.PTP_CTRL (Table 4-7). -/
def R.tbuPtpCtrl : Nat := 0x90020
/-- TBU.PTP_STAT (Table 4-7). -/
def R.tbuPtpStat : Nat := 0x90024
/-- TBU.PTP_OFFSET (Table 4-7). -/
def R.tbuPtpOffset : Nat := 0x90028
/-- TBU.CAT_CFG (Table 4-7). -/
def R.tbuCatCfg : Nat := 0x90030
/-- TBU.CAT_SCALE (Table 4-7). -/
def R.tbuCatScale : Nat := 0x90034
/-- TBU.CAT_STAT (Table 4-7). -/
def R.tbuCatStat : Nat := 0x90038
/-- TBU.ANGLE (Table 4-7). -/
def R.tbuAngle : Nat := 0x9003C
/-- TBU.FREQ (Table 4-7). -/
def R.tbuFreq : Nat := 0x90040
/-- TBU.SCHED_STAT (Table 4-7). -/
def R.tbuSchedStat : Nat := 0x90050
/-- TBU.WS_COUNT (Table 4-7). -/
def R.tbuWsCount (i : Nat) : Nat := 0x90100 + i * 0x4
/-- TBU.TRAIN_POS (Table 4-7). -/
def R.tbuTrainPos (t : Nat) : Nat := 0x91000 + t * 0x20
/-- TBU.TRAIN_SPEED (Table 4-7). -/
def R.tbuTrainSpeed (t : Nat) : Nat := 0x91004 + t * 0x20
/-- TBU.TRAIN_TRACK (Table 4-7). -/
def R.tbuTrainTrack (t : Nat) : Nat := 0x91008 + t * 0x20
/-- TBU.TRAIN_AGE (Table 4-7). -/
def R.tbuTrainAge (t : Nat) : Nat := 0x9100C + t * 0x20
/-- RTP.MAP_ID (Table 5-15). -/
def R.rtpMapId : Nat := 0x70000
/-- RTP.MAP_STAT (Table 5-15). -/
def R.rtpMapStat : Nat := 0x70004
/-- RTP.MAP_SIZE (Table 5-15). -/
def R.rtpMapSize : Nat := 0x70008
/-- RTP.MON_COUNT (Table 5-15). -/
def R.rtpMonCount : Nat := 0x7000C
/-- RTP.CIRC_STAT (Table 5-15). -/
def R.rtpCircStat : Nat := 0x70010
/-- RTP.ADOPTED (Table 5-15). -/
def R.rtpAdopted : Nat := 0x70014
/-- RTP.PLAN_COUNT (Table 5-15). -/
def R.rtpPlanCount : Nat := 0x70020
/-- RTP.DIST_COUNT (Table 5-15). -/
def R.rtpDistCount : Nat := 0x70024
/-- RTP.CONFL_COUNT (Table 5-15). -/
def R.rtpConflCount : Nat := 0x70028
/-- RTP.TRIP_MARGIN (Table 5-15). -/
def R.rtpTripMargin : Nat := 0x70030
/-- RTP.BLANKED (Table 5-15). -/
def R.rtpBlanked (w : Nat) : Nat := 0x70100 + w * 0x4
/-- RTP.CEILING (Table 5-15). -/
def R.rtpCeiling (p : Nat) : Nat := 0x70200 + p * 0x4
/-- TRN.CTRL (Table 6-7). -/
def R.trnCtrl : Nat := 0x80000
/-- TRN.STAT (Table 6-7). -/
def R.trnStat : Nat := 0x80004
/-- TRN.BRACKET_CFG (Table 6-7). -/
def R.trnBracketCfg : Nat := 0x80008
/-- TRN.STORE_FREE (Table 6-7). -/
def R.trnStoreFree : Nat := 0x8000C
/-- TRN.DESC_FREE (Table 6-7). -/
def R.trnDescFree : Nat := 0x80010
/-- TRN.STALL_COUNT (Table 6-7). -/
def R.trnStallCount : Nat := 0x80020
/-- TRN.ABANDON_COUNT (Table 6-7). -/
def R.trnAbandonCount : Nat := 0x80024
/-- TRN.LATEJUMP_COUNT (Table 6-7). -/
def R.trnLatejumpCount : Nat := 0x80028
/-- TRN.WR_REFUSED (Table 6-7). -/
def R.trnWrRefused : Nat := 0x8002C
/-- TRN.NOSLUICE_COUNT (Table 6-7). -/
def R.trnNosluiceCount : Nat := 0x80030
/-- TRN.SETTLE_MISS (Table 6-7). -/
def R.trnSettleMiss : Nat := 0x80034
/-- TRN.SLACK (Table 6-7). -/
def R.trnSlack : Nat := 0x80038
/-- TRN.LINK_STAT (Table 6-7). -/
def R.trnLinkStat (l : Nat) : Nat := 0x80100 + l * 0x4
/-- TRN.SL_STATE (Table 6-7). -/
def R.trnSlState (s : Nat) : Nat := 0x80200 + s * 0x10
/-- TRN.SL_POS (Table 6-7). -/
def R.trnSlPos (s : Nat) : Nat := 0x80204 + s * 0x10
/-- TRN.SL_FLAGS (Table 6-7). -/
def R.trnSlFlags (s : Nat) : Nat := 0x80208 + s * 0x10
/-- TRN.SL_TAG (Table 6-7). -/
def R.trnSlTag (s : Nat) : Nat := 0x8020C + s * 0x10
/-- LPC.ENG_EN (Table 7-14). -/
def R.lpcEngEn : Nat := 0x40000
/-- LPC.ENG_DRAIN (Table 7-14). -/
def R.lpcEngDrain : Nat := 0x40004
/-- LPC.POWER_CFG (Table 7-14). -/
def R.lpcPowerCfg : Nat := 0x40008
/-- LPC.PREC_CFG (Table 7-14). -/
def R.lpcPrecCfg : Nat := 0x4000C
/-- LPC.MASK_COUNT (Table 7-14). -/
def R.lpcMaskCount : Nat := 0x40010
/-- LPC.SAT_COUNT (Table 7-14). -/
def R.lpcSatCount : Nat := 0x40014
/-- LPC.OVF_COUNT (Table 7-14). -/
def R.lpcOvfCount : Nat := 0x40018
/-- LPC.FLUSH_COUNT (Table 7-14). -/
def R.lpcFlushCount : Nat := 0x4001C
/-- LPC.LOWBITS_COUNT (Table 7-14). -/
def R.lpcLowbitsCount : Nat := 0x40020
/-- LPC.POWER_LATE (Table 7-14). -/
def R.lpcPowerLate : Nat := 0x40024
/-- LPC.SWAP_LO (Table 7-14). -/
def R.lpcSwapLo : Nat := 0x40028
/-- LPC.SWAP_HI (Table 7-14). -/
def R.lpcSwapHi : Nat := 0x4002C
/-- LPC.COOLER_CFG (Table 7-14). -/
def R.lpcCoolerCfg : Nat := 0x40030
/-- LPC.COOLER_STAT (Table 7-14). -/
def R.lpcCoolerStat : Nat := 0x40034
/-- LPC.ENG_STAT (Table 7-14). -/
def R.lpcEngStat (e : Nat) : Nat := 0x40100 + e * 0x10
/-- LPC.ENG_SLACK (Table 7-14). -/
def R.lpcEngSlack (e : Nat) : Nat := 0x40104 + e * 0x10
/-- LPC.ENG_ERR (Table 7-14). -/
def R.lpcEngErr (e : Nat) : Nat := 0x40108 + e * 0x10
/-- LPC.TRACE_STAT (Table 7-14). -/
def R.lpcTraceStat : Nat := 0x40200
/-- LPC.TRACE_COUNT (Table 7-14). -/
def R.lpcTraceCount : Nat := 0x40204
/-- LPC.UCODE_STAT (Table 8-10). -/
def R.lpcUcodeStat : Nat := 0x40300
/-- LPC.UCODE_DIGEST (Table 8-10). -/
def R.lpcUcodeDigest (i : Nat) : Nat := 0x40310 + i * 0x4
/-- LPC.SLOT_INFO (Table 8-10). -/
def R.lpcSlotInfo (s : Nat) : Nat := 0x40400 + s * 0x10
/-- LPC.SLOT_COST (Table 8-10). -/
def R.lpcSlotCost (s : Nat) : Nat := 0x40404 + s * 0x10
/-- LPC.SLOT_ID (Table 8-10). -/
def R.lpcSlotId (s : Nat) : Nat := 0x40408 + s * 0x10
/-- LPC.SLOT_VER (Table 8-10). -/
def R.lpcSlotVer (s : Nat) : Nat := 0x4040C + s * 0x10
/-- PLM.CTRL (Table 9-7). -/
def R.plmCtrl : Nat := 0x50000
/-- PLM.CFG (Table 9-7). -/
def R.plmCfg : Nat := 0x50004
/-- PLM.EVICT_CFG (Table 9-7). -/
def R.plmEvictCfg : Nat := 0x50008
/-- PLM.HOLD_SET (Table 9-7). -/
def R.plmHoldSet : Nat := 0x5000C
/-- PLM.STAT (Table 9-7). -/
def R.plmStat : Nat := 0x50010
/-- PLM.RESIDENT (Table 9-7). -/
def R.plmResident : Nat := 0x50014
/-- PLM.UNPLACED (Table 9-7). -/
def R.plmUnplaced : Nat := 0x50018
/-- PLM.PINS (Table 9-7). -/
def R.plmPins : Nat := 0x5001C
/-- PLM.REGROUP_COUNT (Table 9-7). -/
def R.plmRegroupCount : Nat := 0x50020
/-- PLM.MIG_COUNT (Table 9-7). -/
def R.plmMigCount : Nat := 0x50024
/-- PLM.EVICT_COUNT (Table 9-7). -/
def R.plmEvictCount : Nat := 0x50028
/-- PLM.RESTORE_COUNT (Table 9-7). -/
def R.plmRestoreCount : Nat := 0x5002C
/-- PLM.PREFETCH_MISS (Table 9-7). -/
def R.plmPrefetchMiss : Nat := 0x50030
/-- PLM.LINK_WIN (Table 9-7). -/
def R.plmLinkWin (l : Nat) : Nat := 0x50100 + l * 0x4
/-- ELK.LINK_EN (Table 10-14). -/
def R.elkLinkEn : Nat := 0x60000
/-- ELK.DRAINED (Table 10-14). -/
def R.elkDrained : Nat := 0x60004
/-- ELK.CFG (Table 10-14). -/
def R.elkCfg : Nat := 0x60008
/-- ELK.REJECTED (Table 10-14). -/
def R.elkRejected : Nat := 0x6000C
/-- ELK.LINK_STAT (Table 10-14). -/
def R.elkLinkStat (l : Nat) : Nat := 0x60100 + l * 0x20
/-- ELK.LINK_ERR (Table 10-14). -/
def R.elkLinkErr (l : Nat) : Nat := 0x60104 + l * 0x20
/-- ELK.LINK_DELAY (Table 10-14). -/
def R.elkLinkDelay (l : Nat) : Nat := 0x60108 + l * 0x20
/-- ELK.CRC_COUNT (Table 10-14). -/
def R.elkCrcCount (l : Nat) : Nat := 0x6010C + l * 0x20
/-- ELK.LATE_COUNT (Table 10-14). -/
def R.elkLateCount (l : Nat) : Nat := 0x60110 + l * 0x20
/-- ELK.FE_ID_LO (Table 10-14). -/
def R.elkFeIdLo (l : Nat) : Nat := 0x60114 + l * 0x20
/-- ELK.FE_ID_HI (Table 10-14). -/
def R.elkFeIdHi (l : Nat) : Nat := 0x60118 + l * 0x20
/-- ELK.FE_INFO (Table 10-14). -/
def R.elkFeInfo (l : Nat) : Nat := 0x6011C + l * 0x20
/-- CLN.CHAIN_EN (Table 11-9). -/
def R.clnChainEn : Nat := 0xA0000
/-- CLN.DRAINED (Table 11-9). -/
def R.clnDrained : Nat := 0xA0004
/-- CLN.CFG (Table 11-9). -/
def R.clnCfg : Nat := 0xA0008
/-- CLN.REJECTED (Table 11-9). -/
def R.clnRejected : Nat := 0xA000C
/-- CLN.CHAIN_CFG (Table 11-9). -/
def R.clnChainCfg (c : Nat) : Nat := 0xA0100 + c * 0x20
/-- CLN.CHAIN_STAT (Table 11-9). -/
def R.clnChainStat (c : Nat) : Nat := 0xA0104 + c * 0x20
/-- CLN.CHAIN_ERR (Table 11-9). -/
def R.clnChainErr (c : Nat) : Nat := 0xA0108 + c * 0x20
/-- CLN.CHAIN_DLY (Table 11-9). -/
def R.clnChainDly (c : Nat) : Nat := 0xA010C + c * 0x20
/-- CLN.CRC_COUNT (Table 11-9). -/
def R.clnCrcCount (c : Nat) : Nat := 0xA0110 + c * 0x20
/-- CLN.CELL_STAT (Table 11-9). -/
def R.clnCellStat (n : Nat) : Nat := 0xA1000 + n * 0x10
/-- CLN.CELL_DLY (Table 11-9). -/
def R.clnCellDly (n : Nat) : Nat := 0xA1004 + n * 0x10
/-- CMU.SST_STAT (Table 12-13). -/
def R.cmuSstStat : Nat := 0xB0000
/-- CMU.MOD_CFG (Table 12-13). -/
def R.cmuModCfg : Nat := 0xB0004
/-- CMU.CELL_CFG (Table 12-13). -/
def R.cmuCellCfg : Nat := 0xB0008
/-- CMU.VDC_LIM (Table 12-13). -/
def R.cmuVdcLim : Nat := 0xB000C
/-- CMU.PLIM (Table 12-13). -/
def R.cmuPlim : Nat := 0xB0010
/-- CMU.THERM (Table 12-13). -/
def R.cmuTherm : Nat := 0xB0014
/-- CMU.ICAT_CFG (Table 12-13). -/
def R.cmuIcatCfg : Nat := 0xB0018
/-- CMU.ICAT_SCALE (Table 12-13). -/
def R.cmuIcatScale : Nat := 0xB001C
/-- CMU.LVB_CFG (Table 12-13). -/
def R.cmuLvbCfg : Nat := 0xB0020
/-- CMU.LVB_SCALE (Table 12-13). -/
def R.cmuLvbScale : Nat := 0xB0024
/-- CMU.VOUT_OV (Table 12-13). -/
def R.cmuVoutOv : Nat := 0xB0028
/-- CMU.COAST (Table 12-13). -/
def R.cmuCoast : Nat := 0xB002C
/-- CMU.BRK_CFG (Table 12-13). -/
def R.cmuBrkCfg : Nat := 0xB0030
/-- CMU.PROT_STAT (Table 12-13). -/
def R.cmuProtStat : Nat := 0xB0034
/-- CMU.PSEL (Table 12-13). -/
def R.cmuPsel : Nat := 0xB0038
/-- CMU.CAND (Table 12-13). -/
def R.cmuCand (i : Nat) : Nat := 0xB0040 + i * 0x4
/-- CMU.VDC_MEAN (Table 12-13). -/
def R.cmuVdcMean : Nat := 0xB0060
/-- CMU.MCOMMON (Table 12-13). -/
def R.cmuMcommon : Nat := 0xB0064
/-- CMU.CELL_SVC (Table 12-13). -/
def R.cmuCellSvc (n : Nat) : Nat := 0xB0100 + n * 0x10
/-- CMU.CELL_MOD (Table 12-13). -/
def R.cmuCellMod (n : Nat) : Nat := 0xB0104 + n * 0x10
/-- CMU.CELL_VDC (Table 12-13). -/
def R.cmuCellVdc (n : Nat) : Nat := 0xB0108 + n * 0x10
/-- CMU.TSET (Table 12-13). -/
def R.cmuTset (n : Nat) (s : Nat) : Nat := 0xB2000 + n * 0x20 + s * 0x4
/-- PWM.CTRL (Table 13-6). -/
def R.pwmCtrl : Nat := 0xC0000
/-- PWM.STAT (Table 13-6). -/
def R.pwmStat : Nat := 0xC0004
/-- PWM.COMMIT (Table 13-6). -/
def R.pwmCommit : Nat := 0xC0008
/-- PWM.LVP_CFG (Table 13-6). -/
def R.pwmLvpCfg : Nat := 0xC000C
/-- PWM.LVP_SCALE (Table 13-6). -/
def R.pwmLvpScale : Nat := 0xC0010
/-- PWM.LVREF (Table 13-6). -/
def R.pwmLvref : Nat := 0xC0014
/-- PWM.PLV (Table 13-6). -/
def R.pwmPlv : Nat := 0xC0018
/-- PWM.LV_D (Table 13-6). -/
def R.pwmLvD : Nat := 0xC001C
/-- PWM.LEG_CFG (Table 13-6). -/
def R.pwmLegCfg (l : Nat) : Nat := 0xC0100 + l * 0x40
/-- PWM.LEG_DT (Table 13-6). -/
def R.pwmLegDt (l : Nat) : Nat := 0xC0104 + l * 0x40
/-- PWM.LEG_MP (Table 13-6). -/
def R.pwmLegMp (l : Nat) : Nat := 0xC0108 + l * 0x40
/-- PWM.LEG_LIM (Table 13-6). -/
def R.pwmLegLim (l : Nat) : Nat := 0xC010C + l * 0x40
/-- PWM.LEG_FIX (Table 13-6). -/
def R.pwmLegFix (l : Nat) : Nat := 0xC0110 + l * 0x40
/-- PWM.PER_STG (Table 13-6). -/
def R.pwmPerStg (l : Nat) : Nat := 0xC0114 + l * 0x40
/-- PWM.DUTY_STG (Table 13-6). -/
def R.pwmDutyStg (l : Nat) : Nat := 0xC0118 + l * 0x40
/-- PWM.PER_ACT (Table 13-6). -/
def R.pwmPerAct (l : Nat) : Nat := 0xC011C + l * 0x40
/-- PWM.DUTY_ACT (Table 13-6). -/
def R.pwmDutyAct (l : Nat) : Nat := 0xC0120 + l * 0x40
/-- PWM.TRG_A (Table 13-6). -/
def R.pwmTrgA (l : Nat) : Nat := 0xC0124 + l * 0x40
/-- PWM.TRG_B (Table 13-6). -/
def R.pwmTrgB (l : Nat) : Nat := 0xC0128 + l * 0x40
/-- PWM.LEG_STAT (Table 13-6). -/
def R.pwmLegStat (l : Nat) : Nat := 0xC012C + l * 0x40
/-- PWM.LEG_FLAGS (Table 13-6). -/
def R.pwmLegFlags (l : Nat) : Nat := 0xC0130 + l * 0x40
/-- PWM.LEG_COUNT (Table 13-6). -/
def R.pwmLegCount (l : Nat) : Nat := 0xC0134 + l * 0x40
/-- GDP.STAT (Table 13-10). -/
def R.gdpStat : Nat := 0xD0000
/-- GDP.TRIP_CFG (Table 13-10). -/
def R.gdpTripCfg (i : Nat) : Nat := 0xD0010 + i * 0x4
/-- GDP.TRIP_STAT (Table 13-10). -/
def R.gdpTripStat : Nat := 0xD0020
/-- GDP.LEG_PROT (Table 13-10). -/
def R.gdpLegProt (l : Nat) : Nat := 0xD0100 + l * 0x20
/-- GDP.LEG_LATCH (Table 13-10). -/
def R.gdpLegLatch (l : Nat) : Nat := 0xD0104 + l * 0x20
/-- GDP.LEG_COUNT (Table 13-10). -/
def R.gdpLegCount (l : Nat) : Nat := 0xD0108 + l * 0x20
/-- ADC.CTRL (Table 14-6). -/
def R.adcCtrl : Nat := 0xE0000
/-- ADC.STAT (Table 14-6). -/
def R.adcStat : Nat := 0xE0004
/-- ADC.PAIR_CFG (Table 14-6). -/
def R.adcPairCfg (p : Nat) : Nat := 0xE0100 + p * 0x20
/-- ADC.PAIR_STAT (Table 14-6). -/
def R.adcPairStat (p : Nat) : Nat := 0xE0104 + p * 0x20
/-- ADC.PAIR_COUNT (Table 14-6). -/
def R.adcPairCount (p : Nat) : Nat := 0xE0108 + p * 0x20
/-- ADC.CAP_POS (Table 14-6). -/
def R.adcCapPos (p : Nat) : Nat := 0xE010C + p * 0x20
/-- ADC.SLOT (Table 14-6). -/
def R.adcSlot (p : Nat) (s : Nat) : Nat := 0xE0400 + p * 0x80 + s * 0x10
/-- ADC.RES (Table 14-6). -/
def R.adcRes (p : Nat) (s : Nat) : Nat := 0xE0404 + p * 0x80 + s * 0x10
/-- ADC.RES_TIME (Table 14-6). -/
def R.adcResTime (p : Nat) (s : Nat) : Nat := 0xE0408 + p * 0x80 + s * 0x10
/-- ADC.RES_COUNT (Table 14-6). -/
def R.adcResCount (p : Nat) (s : Nat) : Nat := 0xE040C + p * 0x80 + s * 0x10
/-- ADC.CAP (Table 14-6). -/
def R.adcCap (p : Nat) (i : Nat) : Nat := 0xE4000 + p * 0x1000 + i * 0x4
/-- DAC.STAT (Table 14-10). -/
def R.dacStat : Nat := 0xF0000
/-- DAC.CH_CFG (Table 14-10). -/
def R.dacChCfg (c : Nat) : Nat := 0xF0100 + c * 0x20
/-- DAC.QUEUE (Table 14-10). -/
def R.dacQueue (c : Nat) : Nat := 0xF0104 + c * 0x20
/-- DAC.CH_STAT (Table 14-10). -/
def R.dacChStat (c : Nat) : Nat := 0xF0108 + c * 0x20
/-- DAC.CH_FLAGS (Table 14-10). -/
def R.dacChFlags (c : Nat) : Nat := 0xF010C + c * 0x20
/-- DAC.CH_COUNT (Table 14-10). -/
def R.dacChCount (c : Nat) : Nat := 0xF0110 + c * 0x20
/-- CAL.CTRL (Table 15-9). -/
def R.calCtrl : Nat := 0x100000
/-- CAL.STAT (Table 15-9). -/
def R.calStat : Nat := 0x100004
/-- CAL.ID_A (Table 15-9). -/
def R.calIdA : Nat := 0x100008
/-- CAL.ID_B (Table 15-9). -/
def R.calIdB : Nat := 0x10000C
/-- CAL.SEQ (Table 15-9). -/
def R.calSeq : Nat := 0x100010
/-- CAL.LIVE_CFG (Table 15-9). -/
def R.calLiveCfg : Nat := 0x100014
/-- CAL.SWITCH_LO (Table 15-9). -/
def R.calSwitchLo : Nat := 0x100018
/-- CAL.SWITCH_HI (Table 15-9). -/
def R.calSwitchHi : Nat := 0x10001C
/-- CAL.JOB_COUNT (Table 15-9). -/
def R.calJobCount : Nat := 0x100020
/-- CAL.RAKE_COUNT (Table 15-9). -/
def R.calRakeCount : Nat := 0x100024
/-- CAL.GAP_STAT (Table 15-9). -/
def R.calGapStat : Nat := 0x100028
/-- CAL.LINK_CAL (Table 15-9). -/
def R.calLinkCal (l : Nat) : Nat := 0x100100 + l * 0x4
/-- FLT.STICKY (Table 16-7). -/
def R.fltSticky (i : Nat) : Nat := 0x120000 + i * 0x4
/-- FLT.PRESENT (Table 16-7). -/
def R.fltPresent (i : Nat) : Nat := 0x120040 + i * 0x4
/-- FLT.STATE (Table 16-7). -/
def R.fltState : Nat := 0x120080
/-- FLT.CFG (Table 16-7). -/
def R.fltCfg : Nat := 0x120084
/-- FLT.SAFE_CAUSE (Table 16-7). -/
def R.fltSafeCause : Nat := 0x120088
/-- FLT.SELF (Table 16-7). -/
def R.fltSelf : Nat := 0x12008C
/-- FLT.COUNT (Table 16-7). -/
def R.fltCount : Nat := 0x120090
/-- FLT.CLASS (Table 16-7). -/
def R.fltClass (s : Nat) : Nat := 0x120400 + s * 0x4
/-- TWN.CTRL (Table 17-9). -/
def R.twnCtrl : Nat := 0x130000
/-- TWN.STAT (Table 17-9). -/
def R.twnStat : Nat := 0x130004
/-- TWN.ELIG (Table 17-9). -/
def R.twnElig : Nat := 0x130008
/-- TWN.PAIR_OFS_LO (Table 17-9). -/
def R.twnPairOfsLo : Nat := 0x13000C
/-- TWN.PAIR_OFS_HI (Table 17-9). -/
def R.twnPairOfsHi : Nat := 0x130010
/-- TWN.TIME_DIFF (Table 17-9). -/
def R.twnTimeDiff : Nat := 0x130014
/-- TWN.HB_MISS (Table 17-9). -/
def R.twnHbMiss : Nat := 0x130018
/-- TWN.MSEQ (Table 17-9). -/
def R.twnMseq : Nat := 0x13001C
/-- TWN.LINK_DELAY (Table 17-9). -/
def R.twnLinkDelay : Nat := 0x130020
/-- TWN.PEER (Table 17-9). -/
def R.twnPeer : Nat := 0x130024
/-- THS.CTRL (Table 18-5). -/
def R.thsCtrl : Nat := 0x110000
/-- THS.TEMP_CFG (Table 18-5). -/
def R.thsTempCfg : Nat := 0x110004
/-- THS.STAT (Table 18-5). -/
def R.thsStat : Nat := 0x110008
/-- THS.SUSPECT (Table 18-5). -/
def R.thsSuspect : Nat := 0x11000C
/-- THS.EXCLUDED (Table 18-5). -/
def R.thsExcluded : Nat := 0x110010
/-- THS.THR_COUNT (Table 18-5). -/
def R.thsThrCount : Nat := 0x110014
/-- THS.SUP_STAT (Table 18-5). -/
def R.thsSupStat : Nat := 0x110018
/-- THS.SENS_T (Table 18-5). -/
def R.thsSensT (i : Nat) : Nat := 0x110100 + i * 0x10
/-- THS.SENS_FLAGS (Table 18-5). -/
def R.thsSensFlags (i : Nat) : Nat := 0x110104 + i * 0x10
/-- THS.SENS_MAX (Table 18-5). -/
def R.thsSensMax (i : Nat) : Nat := 0x110108 + i * 0x10
/-- THS.SUP_V (Table 18-5). -/
def R.thsSupV (r : Nat) : Nat := 0x110300 + r * 0x10
/-- THS.SUP_LIM (Table 18-5). -/
def R.thsSupLim (r : Nat) : Nat := 0x110304 + r * 0x10
/-- MEM.CTRL (Table 19-4). -/
def R.memCtrl : Nat := 0x30000
/-- MEM.STAT (Table 19-4). -/
def R.memStat : Nat := 0x30004
/-- MEM.SCRUB_CFG (Table 19-4). -/
def R.memScrubCfg : Nat := 0x30008
/-- MEM.SRAM_CE (Table 19-4). -/
def R.memSramCe : Nat := 0x30010
/-- MEM.SRAM_UE (Table 19-4). -/
def R.memSramUe : Nat := 0x30014
/-- MEM.SRAM_ADDR (Table 19-4). -/
def R.memSramAddr : Nat := 0x30018
/-- MEM.DDR_CFG (Table 19-4). -/
def R.memDdrCfg (c : Nat) : Nat := 0x30100 + c * 0x40
/-- MEM.DDR_STAT (Table 19-4). -/
def R.memDdrStat (c : Nat) : Nat := 0x30104 + c * 0x40
/-- MEM.DDR_CE (Table 19-4). -/
def R.memDdrCe (c : Nat) : Nat := 0x30108 + c * 0x40
/-- MEM.DDR_UE (Table 19-4). -/
def R.memDdrUe (c : Nat) : Nat := 0x3010C + c * 0x40
/-- MEM.DDR_EADDR_LO (Table 19-4). -/
def R.memDdrEaddrLo (c : Nat) : Nat := 0x30110 + c * 0x40
/-- MEM.DDR_EADDR_HI (Table 19-4). -/
def R.memDdrEaddrHi (c : Nat) : Nat := 0x30114 + c * 0x40
/-- MEM.SCRUB_POS (Table 19-4). -/
def R.memScrubPos (c : Nat) : Nat := 0x30118 + c * 0x40
/-- BMX.CTRL (Table 19-5). -/
def R.bmxCtrl : Nat := 0x20000
/-- BMX.DECODE_ERR (Table 19-5). -/
def R.bmxDecodeErr : Nat := 0x20004
/-- BMX.M_STAT (Table 19-5). -/
def R.bmxMStat (m : Nat) : Nat := 0x20100 + m * 0x10
/-- BMX.M_RESET (Table 19-5). -/
def R.bmxMReset (m : Nat) : Nat := 0x20104 + m * 0x10
/-- BMX.T_STAT (Table 19-5). -/
def R.bmxTStat (t : Nat) : Nat := 0x20200 + t * 0x10
/-- BMX.T_PATHS (Table 19-5). -/
def R.bmxTPaths (t : Nat) : Nat := 0x20204 + t * 0x10

def F.thsEconCtrl_enCatenary : FieldRef := ⟨R.thsEconCtrl, 0, 1⟩
def F.thsEconCtrl_enNeutral : FieldRef := ⟨R.thsEconCtrl, 1, 1⟩
def F.thsEconCtrl_enLvbus : FieldRef := ⟨R.thsEconCtrl, 2, 1⟩
def F.thsEconCtrl_force : FieldRef := ⟨R.thsEconCtrl, 3, 1⟩
def F.thsEconCtrl_halveDark : FieldRef := ⟨R.thsEconCtrl, 4, 1⟩
def F.thsEconCtrl_parkIdle : FieldRef := ⟨R.thsEconCtrl, 5, 1⟩
def F.thsEconCtrl_exitDwell : FieldRef := ⟨R.thsEconCtrl, 16, 8⟩
def F.thsEconLv_enterV : FieldRef := ⟨R.thsEconLv, 0, 16⟩
def F.thsEconLv_exitV : FieldRef := ⟨R.thsEconLv, 16, 16⟩
def F.thsEconStat_active : FieldRef := ⟨R.thsEconStat, 0, 1⟩
def F.thsEconStat_causeCatenary : FieldRef := ⟨R.thsEconStat, 1, 1⟩
def F.thsEconStat_causeNeutral : FieldRef := ⟨R.thsEconStat, 2, 1⟩
def F.thsEconStat_causeLvbus : FieldRef := ⟨R.thsEconStat, 3, 1⟩
def F.thsEconStat_causeForce : FieldRef := ⟨R.thsEconStat, 4, 1⟩
def F.thsEconStat_dwellLeft : FieldRef := ⟨R.thsEconStat, 8, 8⟩
def F.thsEconStat_parked : FieldRef := ⟨R.thsEconStat, 16, 16⟩
def F.cpxReady1_aon : FieldRef := ⟨R.cpxReady1, 0, 1⟩
def F.cpxReady1_boot : FieldRef := ⟨R.cpxReady1, 1, 1⟩
def F.cpxReady1_pcie : FieldRef := ⟨R.cpxReady1, 2, 1⟩
def F.cpxReady1_mgmt : FieldRef := ⟨R.cpxReady1, 3, 1⟩
def F.cpxReady1_ddr0 : FieldRef := ⟨R.cpxReady1, 4, 1⟩
def F.cpxReady1_ddr1 : FieldRef := ⟨R.cpxReady1, 5, 1⟩
def F.cpxReady1_ucode : FieldRef := ⟨R.cpxReady1, 6, 1⟩
def F.cpxReady1_plm : FieldRef := ⟨R.cpxReady1, 7, 1⟩
def F.cpxReady1_rtp : FieldRef := ⟨R.cpxReady1, 8, 1⟩
def F.cpxReady1_trn : FieldRef := ⟨R.cpxReady1, 9, 1⟩
def F.cpxReady1_frame : FieldRef := ⟨R.cpxReady1, 10, 1⟩
def F.cpxReady1_ptp : FieldRef := ⟨R.cpxReady1, 11, 1⟩
def F.cpxReady1_angle : FieldRef := ⟨R.cpxReady1, 12, 1⟩
def F.cpxReady1_cal : FieldRef := ⟨R.cpxReady1, 13, 1⟩
def F.cpxReady1_ths : FieldRef := ⟨R.cpxReady1, 14, 1⟩
def F.cpxReady1_flt : FieldRef := ⟨R.cpxReady1, 15, 1⟩
def F.cpxReady1_twin : FieldRef := ⟨R.cpxReady1, 16, 1⟩
def F.cpxReady1_chain : FieldRef := ⟨R.cpxReady1, 17, 8⟩
def F.cpxReady1_cmu : FieldRef := ⟨R.cpxReady1, 25, 1⟩
def F.cpxReady1_pwm : FieldRef := ⟨R.cpxReady1, 26, 1⟩
def F.cpxReady1_adc : FieldRef := ⟨R.cpxReady1, 27, 1⟩
def F.cpxReady1_dac : FieldRef := ⟨R.cpxReady1, 28, 1⟩
def F.cpxStatus_accepting : FieldRef := ⟨R.cpxStatus, 0, 1⟩
def F.cpxStatus_active : FieldRef := ⟨R.cpxStatus, 1, 1⟩
def F.cpxStatus_requesters : FieldRef := ⟨R.cpxStatus, 8, 8⟩
def F.cpxStatus_held : FieldRef := ⟨R.cpxStatus, 16, 16⟩
def F.cpxUdpCfg_port : FieldRef := ⟨R.cpxUdpCfg, 0, 16⟩
def F.cpxUdpCfg_en : FieldRef := ⟨R.cpxUdpCfg, 16, 1⟩
def F.cpxUdpStat_sessions : FieldRef := ⟨R.cpxUdpStat, 0, 8⟩
def F.cpxUdpStat_badDgram : FieldRef := ⟨R.cpxUdpStat, 16, 16⟩
def F.cpxSqSize_log2Slots (n : Nat) : FieldRef := ⟨R.cpxSqSize n, 0, 4⟩
def F.cpxSqTail_slot (n : Nat) : FieldRef := ⟨R.cpxSqTail n, 0, 12⟩
def F.cpxSqHead_slot (n : Nat) : FieldRef := ⟨R.cpxSqHead n, 0, 12⟩
def F.cpxCqSize_log2Slots (n : Nat) : FieldRef := ⟨R.cpxCqSize n, 0, 4⟩
def F.cpxCqHead_slot (n : Nat) : FieldRef := ⟨R.cpxCqHead n, 0, 12⟩
def F.cpxCqTail_slot (n : Nat) : FieldRef := ⟨R.cpxCqTail n, 0, 12⟩
def F.cpxRingCtrl_requester (n : Nat) : FieldRef := ⟨R.cpxRingCtrl n, 0, 16⟩
def F.cpxRingCtrl_en (n : Nat) : FieldRef := ⟨R.cpxRingCtrl n, 16, 1⟩
def F.cpxRingCtrl_irqEn (n : Nat) : FieldRef := ⟨R.cpxRingCtrl n, 17, 1⟩
def F.cpxRingCtrl_coalesce (n : Nat) : FieldRef := ⟨R.cpxRingCtrl n, 24, 8⟩
def F.cpxRingStat_cfgErr (n : Nat) : FieldRef := ⟨R.cpxRingStat n, 0, 1⟩
def F.cpxRingStat_cqStall (n : Nat) : FieldRef := ⟨R.cpxRingStat n, 1, 1⟩
def F.cpxRingStat_holdFull (n : Nat) : FieldRef := ⟨R.cpxRingStat n, 2, 1⟩
def F.cpxRingStat_dmaErr (n : Nat) : FieldRef := ⟨R.cpxRingStat n, 3, 1⟩
def F.cpxRingStat_inIntake (n : Nat) : FieldRef := ⟨R.cpxRingStat n, 16, 16⟩
def F.cpxEqSize_log2Slots : FieldRef := ⟨R.cpxEqSize, 0, 4⟩
def F.cpxEqSize_en : FieldRef := ⟨R.cpxEqSize, 4, 1⟩
def F.cpxEqHead_slot : FieldRef := ⟨R.cpxEqHead, 0, 12⟩
def F.cpxEqTail_slot : FieldRef := ⟨R.cpxEqTail, 0, 12⟩
def F.hstBootStat_slot : FieldRef := ⟨R.hstBootStat, 0, 1⟩
def F.hstBootStat_fallback : FieldRef := ⟨R.hstBootStat, 1, 1⟩
def F.hstBootStat_noImage : FieldRef := ⟨R.hstBootStat, 2, 1⟩
def F.hstBootStat_foreign : FieldRef := ⟨R.hstBootStat, 3, 1⟩
def F.hstBootStat_failWhy : FieldRef := ⟨R.hstBootStat, 4, 4⟩
def F.hstResetCause_cause : FieldRef := ⟨R.hstResetCause, 0, 8⟩
def F.hstRollback_value : FieldRef := ⟨R.hstRollback, 0, 6⟩
def F.hstOwnerSet_fused : FieldRef := ⟨R.hstOwnerSet, 0, 1⟩
def F.tbuCycle_count : FieldRef := ⟨R.tbuCycle, 0, 10⟩
def F.tbuPtpCtrl_domain : FieldRef := ⟨R.tbuPtpCtrl, 0, 8⟩
def F.tbuPtpCtrl_en : FieldRef := ⟨R.tbuPtpCtrl, 8, 1⟩
def F.tbuPtpCtrl_l2 : FieldRef := ⟨R.tbuPtpCtrl, 9, 1⟩
def F.tbuPtpCtrl_holdover : FieldRef := ⟨R.tbuPtpCtrl, 16, 8⟩
def F.tbuPtpStat_pstate : FieldRef := ⟨R.tbuPtpStat, 0, 2⟩
def F.tbuPtpStat_steps : FieldRef := ⟨R.tbuPtpStat, 16, 16⟩
def F.tbuCatCfg_system : FieldRef := ⟨R.tbuCatCfg, 0, 2⟩
def F.tbuCatCfg_input : FieldRef := ⟨R.tbuCatCfg, 2, 5⟩
def F.tbuCatCfg_pair : FieldRef := ⟨R.tbuCatCfg, 7, 3⟩
def F.tbuCatCfg_lossPct : FieldRef := ⟨R.tbuCatCfg, 16, 8⟩
def F.tbuCatCfg_flyMax : FieldRef := ⟨R.tbuCatCfg, 24, 8⟩
def F.tbuCatStat_locked : FieldRef := ⟨R.tbuCatStat, 0, 1⟩
def F.tbuCatStat_flywheel : FieldRef := ⟨R.tbuCatStat, 1, 1⟩
def F.tbuCatStat_lost : FieldRef := ⟨R.tbuCatStat, 2, 1⟩
def F.tbuCatStat_outOfRange : FieldRef := ⟨R.tbuCatStat, 3, 1⟩
def F.tbuCatStat_amplitude : FieldRef := ⟨R.tbuCatStat, 16, 16⟩
def F.tbuSchedStat_inUse : FieldRef := ⟨R.tbuSchedStat, 0, 13⟩
def F.tbuSchedStat_held : FieldRef := ⟨R.tbuSchedStat, 16, 13⟩
def F.tbuWsCount_attributed (i : Nat) : FieldRef := ⟨R.tbuWsCount i, 0, 16⟩
def F.tbuWsCount_unattributed (i : Nat) : FieldRef := ⟨R.tbuWsCount i, 16, 16⟩
def F.tbuTrainTrack_track (t : Nat) : FieldRef := ⟨R.tbuTrainTrack t, 0, 16⟩
def F.tbuTrainTrack_confidence (t : Nat) : FieldRef := ⟨R.tbuTrainTrack t, 16, 2⟩
def F.tbuTrainTrack_inUse (t : Nat) : FieldRef := ⟨R.tbuTrainTrack t, 18, 1⟩
def F.tbuTrainAge_age (t : Nat) : FieldRef := ⟨R.tbuTrainAge t, 0, 16⟩
def F.tbuTrainAge_pending (t : Nat) : FieldRef := ⟨R.tbuTrainAge t, 16, 13⟩
def F.rtpMapStat_loaded : FieldRef := ⟨R.rtpMapStat, 0, 1⟩
def F.rtpMapStat_loading : FieldRef := ⟨R.rtpMapStat, 1, 1⟩
def F.rtpMapStat_topology : FieldRef := ⟨R.rtpMapStat, 2, 2⟩
def F.rtpMapStat_err : FieldRef := ⟨R.rtpMapStat, 8, 8⟩
def F.rtpMapStat_loads : FieldRef := ⟨R.rtpMapStat, 16, 16⟩
def F.rtpMapSize_ports : FieldRef := ⟨R.rtpMapSize, 0, 10⟩
def F.rtpMapSize_drive : FieldRef := ⟨R.rtpMapSize, 16, 13⟩
def F.rtpMonCount_count : FieldRef := ⟨R.rtpMonCount, 0, 11⟩
def F.rtpCircStat_live : FieldRef := ⟨R.rtpCircStat, 0, 10⟩
def F.rtpCircStat_pending : FieldRef := ⟨R.rtpCircStat, 10, 10⟩
def F.rtpCircStat_blanked : FieldRef := ⟨R.rtpCircStat, 20, 10⟩
def F.rtpAdopted_count : FieldRef := ⟨R.rtpAdopted, 0, 13⟩
def F.rtpTripMargin_tripMargin : FieldRef := ⟨R.rtpTripMargin, 0, 16⟩
def F.rtpTripMargin_attMax : FieldRef := ⟨R.rtpTripMargin, 16, 16⟩
def F.rtpCeiling_ceiling (p : Nat) : FieldRef := ⟨R.rtpCeiling p, 0, 16⟩
def F.rtpCeiling_ceilMax (p : Nat) : FieldRef := ⟨R.rtpCeiling p, 16, 16⟩
def F.trnCtrl_en : FieldRef := ⟨R.trnCtrl, 0, 1⟩
def F.trnCtrl_rakeEn : FieldRef := ⟨R.trnCtrl, 1, 1⟩
def F.trnStat_inUse : FieldRef := ⟨R.trnStat, 0, 7⟩
def F.trnStat_drained : FieldRef := ⟨R.trnStat, 7, 1⟩
def F.trnStat_waiting : FieldRef := ⟨R.trnStat, 16, 16⟩
def F.trnBracketCfg_base : FieldRef := ⟨R.trnBracketCfg, 0, 8⟩
def F.trnBracketCfg_width : FieldRef := ⟨R.trnBracketCfg, 8, 8⟩
def F.trnBracketCfg_hyst : FieldRef := ⟨R.trnBracketCfg, 16, 8⟩
def F.trnStoreFree_granules : FieldRef := ⟨R.trnStoreFree, 0, 18⟩
def F.trnDescFree_descs : FieldRef := ⟨R.trnDescFree, 0, 16⟩
def F.trnWrRefused_segActive : FieldRef := ⟨R.trnWrRefused, 0, 16⟩
def F.trnWrRefused_segLen : FieldRef := ⟨R.trnWrRefused, 16, 16⟩
def F.trnLinkStat_bracket (l : Nat) : FieldRef := ⟨R.trnLinkStat l, 0, 4⟩
def F.trnLinkStat_inUse (l : Nat) : FieldRef := ⟨R.trnLinkStat l, 4, 3⟩
def F.trnLinkStat_tempStale (l : Nat) : FieldRef := ⟨R.trnLinkStat l, 7, 1⟩
def F.trnLinkStat_picTemp (l : Nat) : FieldRef := ⟨R.trnLinkStat l, 8, 16⟩
def F.trnSlState_state (s : Nat) : FieldRef := ⟨R.trnSlState s, 0, 3⟩
def F.trnSlState_class (s : Nat) : FieldRef := ⟨R.trnSlState s, 3, 2⟩
def F.trnSlState_link (s : Nat) : FieldRef := ⟨R.trnSlState s, 5, 5⟩
def F.trnSlState_element (s : Nat) : FieldRef := ⟨R.trnSlState s, 10, 13⟩
def F.trnSlPos_desc (s : Nat) : FieldRef := ⟨R.trnSlPos s, 0, 15⟩
def F.trnSlPos_sample (s : Nat) : FieldRef := ⟨R.trnSlPos s, 16, 9⟩
def F.trnSlFlags_stall (s : Nat) : FieldRef := ⟨R.trnSlFlags s, 0, 1⟩
def F.trnSlFlags_lateJump (s : Nat) : FieldRef := ⟨R.trnSlFlags s, 1, 1⟩
def F.trnSlFlags_abandoned (s : Nat) : FieldRef := ⟨R.trnSlFlags s, 2, 1⟩
def F.trnSlFlags_settleMiss (s : Nat) : FieldRef := ⟨R.trnSlFlags s, 3, 1⟩
def F.trnSlFlags_preempted (s : Nat) : FieldRef := ⟨R.trnSlFlags s, 4, 1⟩
def F.lpcEngEn_en : FieldRef := ⟨R.lpcEngEn, 0, 16⟩
def F.lpcEngDrain_drained : FieldRef := ⟨R.lpcEngDrain, 0, 16⟩
def F.lpcEngDrain_noRoom : FieldRef := ⟨R.lpcEngDrain, 16, 16⟩
def F.lpcPowerCfg_reserve : FieldRef := ⟨R.lpcPowerCfg, 0, 1⟩
def F.lpcPrecCfg_minBits : FieldRef := ⟨R.lpcPrecCfg, 0, 5⟩
def F.lpcCoolerCfg_en : FieldRef := ⟨R.lpcCoolerCfg, 0, 1⟩
def F.lpcCoolerCfg_dacCh : FieldRef := ⟨R.lpcCoolerCfg, 1, 4⟩
def F.lpcCoolerCfg_setpoint : FieldRef := ⟨R.lpcCoolerCfg, 16, 16⟩
def F.lpcCoolerStat_dropped : FieldRef := ⟨R.lpcCoolerStat, 0, 16⟩
def F.lpcCoolerStat_code : FieldRef := ⟨R.lpcCoolerStat, 16, 16⟩
def F.lpcEngStat_state (e : Nat) : FieldRef := ⟨R.lpcEngStat e, 0, 3⟩
def F.lpcEngStat_power (e : Nat) : FieldRef := ⟨R.lpcEngStat e, 3, 1⟩
def F.lpcEngStat_blocks (e : Nat) : FieldRef := ⟨R.lpcEngStat e, 4, 7⟩
def F.lpcEngStat_cost (e : Nat) : FieldRef := ⟨R.lpcEngStat e, 11, 11⟩
def F.lpcEngSlack_slack (e : Nat) : FieldRef := ⟨R.lpcEngSlack e, 0, 11⟩
def F.lpcEngErr_stopped (e : Nat) : FieldRef := ⟨R.lpcEngErr e, 0, 1⟩
def F.lpcEngErr_ucodePar (e : Nat) : FieldRef := ⟨R.lpcEngErr e, 1, 1⟩
def F.lpcEngErr_lanePar (e : Nat) : FieldRef := ⟨R.lpcEngErr e, 2, 1⟩
def F.lpcTraceStat_tstate : FieldRef := ⟨R.lpcTraceStat, 0, 2⟩
def F.lpcTraceStat_harvesting : FieldRef := ⟨R.lpcTraceStat, 2, 1⟩
def F.lpcTraceStat_nSig : FieldRef := ⟨R.lpcTraceStat, 8, 8⟩
def F.lpcTraceStat_missed : FieldRef := ⟨R.lpcTraceStat, 16, 16⟩
def F.lpcUcodeStat_passed : FieldRef := ⟨R.lpcUcodeStat, 0, 16⟩
def F.lpcUcodeStat_freeWords : FieldRef := ⟨R.lpcUcodeStat, 16, 11⟩
def F.lpcSlotInfo_entry (s : Nat) : FieldRef := ⟨R.lpcSlotInfo s, 0, 12⟩
def F.lpcSlotInfo_len (s : Nat) : FieldRef := ⟨R.lpcSlotInfo s, 12, 10⟩
def F.lpcSlotInfo_kind (s : Nat) : FieldRef := ⟨R.lpcSlotInfo s, 22, 8⟩
def F.lpcSlotCost_cost (s : Nat) : FieldRef := ⟨R.lpcSlotCost s, 0, 10⟩
def F.lpcSlotCost_bound (s : Nat) : FieldRef := ⟨R.lpcSlotCost s, 16, 13⟩
def F.plmCtrl_regroupEn : FieldRef := ⟨R.plmCtrl, 0, 1⟩
def F.plmCtrl_evictEn : FieldRef := ⟨R.plmCtrl, 1, 1⟩
def F.plmCfg_spreadMax : FieldRef := ⟨R.plmCfg, 0, 5⟩
def F.plmCfg_migMax : FieldRef := ⟨R.plmCfg, 8, 8⟩
def F.plmCfg_review : FieldRef := ⟨R.plmCfg, 16, 16⟩
def F.plmEvictCfg_evictFrames : FieldRef := ⟨R.plmEvictCfg, 0, 16⟩
def F.plmHoldSet_hold : FieldRef := ⟨R.plmHoldSet, 0, 16⟩
def F.plmStat_placed : FieldRef := ⟨R.plmStat, 0, 1⟩
def F.plmStat_spareUsed : FieldRef := ⟨R.plmStat, 1, 1⟩
def F.plmStat_unresolved : FieldRef := ⟨R.plmStat, 2, 1⟩
def F.plmStat_regrouping : FieldRef := ⟨R.plmStat, 3, 1⟩
def F.plmStat_worstBits : FieldRef := ⟨R.plmStat, 16, 8⟩
def F.plmResident_resident : FieldRef := ⟨R.plmResident, 0, 13⟩
def F.plmResident_evicted : FieldRef := ⟨R.plmResident, 16, 13⟩
def F.plmUnplaced_count : FieldRef := ⟨R.plmUnplaced, 0, 13⟩
def F.plmPins_pinned : FieldRef := ⟨R.plmPins, 0, 10⟩
def F.plmPins_broken : FieldRef := ⟨R.plmPins, 16, 10⟩
def F.plmLinkWin_low (l : Nat) : FieldRef := ⟨R.plmLinkWin l, 0, 4⟩
def F.plmLinkWin_high (l : Nat) : FieldRef := ⟨R.plmLinkWin l, 4, 4⟩
def F.plmLinkWin_complete (l : Nat) : FieldRef := ⟨R.plmLinkWin l, 8, 1⟩
def F.elkCfg_lateMax : FieldRef := ⟨R.elkCfg, 0, 8⟩
def F.elkCfg_ctrlTmo : FieldRef := ⟨R.elkCfg, 8, 8⟩
def F.elkCfg_ctrlRetry : FieldRef := ⟨R.elkCfg, 16, 3⟩
def F.elkLinkStat_state (l : Nat) : FieldRef := ⟨R.elkLinkStat l, 0, 3⟩
def F.elkLinkStat_port (l : Nat) : FieldRef := ⟨R.elkLinkStat l, 3, 1⟩
def F.elkLinkStat_obeying (l : Nat) : FieldRef := ⟨R.elkLinkStat l, 4, 1⟩
def F.elkLinkStat_unitSeen (l : Nat) : FieldRef := ⟨R.elkLinkStat l, 5, 1⟩
def F.elkLinkStat_rejected (l : Nat) : FieldRef := ⟨R.elkLinkStat l, 6, 1⟩
def F.elkLinkStat_termSeen (l : Nat) : FieldRef := ⟨R.elkLinkStat l, 8, 16⟩
def F.elkLinkStat_feStat (l : Nat) : FieldRef := ⟨R.elkLinkStat l, 24, 8⟩
def F.elkLinkErr_lost (l : Nat) : FieldRef := ⟨R.elkLinkErr l, 0, 1⟩
def F.elkLinkErr_crc (l : Nat) : FieldRef := ⟨R.elkLinkErr l, 1, 1⟩
def F.elkLinkErr_late (l : Nat) : FieldRef := ⟨R.elkLinkErr l, 2, 1⟩
def F.elkLinkErr_crossWired (l : Nat) : FieldRef := ⟨R.elkLinkErr l, 3, 1⟩
def F.elkLinkErr_tooFar (l : Nat) : FieldRef := ⟨R.elkLinkErr l, 4, 1⟩
def F.elkLinkErr_identBad (l : Nat) : FieldRef := ⟨R.elkLinkErr l, 5, 1⟩
def F.elkLinkErr_ctrlTmo (l : Nat) : FieldRef := ⟨R.elkLinkErr l, 6, 1⟩
def F.elkLinkErr_fePower (l : Nat) : FieldRef := ⟨R.elkLinkErr l, 7, 1⟩
def F.elkLinkDelay_delay (l : Nat) : FieldRef := ⟨R.elkLinkDelay l, 0, 16⟩
def F.elkLinkDelay_lead (l : Nat) : FieldRef := ⟨R.elkLinkDelay l, 16, 16⟩
def F.elkCrcCount_discarded (l : Nat) : FieldRef := ⟨R.elkCrcCount l, 0, 16⟩
def F.elkCrcCount_dnErr (l : Nat) : FieldRef := ⟨R.elkCrcCount l, 16, 16⟩
def F.elkLateCount_masked (l : Nat) : FieldRef := ⟨R.elkLateCount l, 0, 16⟩
def F.elkLateCount_lost (l : Nat) : FieldRef := ⟨R.elkLateCount l, 16, 16⟩
def F.elkFeInfo_driveChannels (l : Nat) : FieldRef := ⟨R.elkFeInfo l, 0, 8⟩
def F.elkFeInfo_fastChannelCapacity (l : Nat) : FieldRef := ⟨R.elkFeInfo l, 8, 8⟩
def F.elkFeInfo_fullScalePower (l : Nat) : FieldRef := ⟨R.elkFeInfo l, 16, 16⟩
def F.clnChainEn_en : FieldRef := ⟨R.clnChainEn, 0, 8⟩
def F.clnDrained_drained : FieldRef := ⟨R.clnDrained, 0, 8⟩
def F.clnCfg_timeInt : FieldRef := ⟨R.clnCfg, 0, 8⟩
def F.clnCfg_cellMiss : FieldRef := ⟨R.clnCfg, 8, 8⟩
def F.clnCfg_cmdTmo : FieldRef := ⟨R.clnCfg, 16, 8⟩
def F.clnCfg_cmdRetry : FieldRef := ⟨R.clnCfg, 24, 3⟩
def F.clnRejected_rejected : FieldRef := ⟨R.clnRejected, 0, 8⟩
def F.clnChainCfg_nCells (c : Nat) : FieldRef := ⟨R.clnChainCfg c, 0, 4⟩
def F.clnChainCfg_wiring (c : Nat) : FieldRef := ⟨R.clnChainCfg c, 4, 2⟩
def F.clnChainCfg_ret (c : Nat) : FieldRef := ⟨R.clnChainCfg c, 6, 3⟩
def F.clnChainCfg_base (c : Nat) : FieldRef := ⟨R.clnChainCfg c, 16, 6⟩
def F.clnChainStat_state (c : Nat) : FieldRef := ⟨R.clnChainStat c, 0, 3⟩
def F.clnChainStat_broken (c : Nat) : FieldRef := ⟨R.clnChainStat c, 3, 1⟩
def F.clnChainStat_brkPos (c : Nat) : FieldRef := ⟨R.clnChainStat c, 4, 4⟩
def F.clnChainStat_cellsUp (c : Nat) : FieldRef := ⟨R.clnChainStat c, 8, 4⟩
def F.clnChainStat_rejected (c : Nat) : FieldRef := ⟨R.clnChainStat c, 12, 1⟩
def F.clnChainStat_unitSeen (c : Nat) : FieldRef := ⟨R.clnChainStat c, 13, 1⟩
def F.clnChainStat_termSeen (c : Nat) : FieldRef := ⟨R.clnChainStat c, 16, 16⟩
def F.clnChainErr_lost (c : Nat) : FieldRef := ⟨R.clnChainErr c, 0, 1⟩
def F.clnChainErr_broken (c : Nat) : FieldRef := ⟨R.clnChainErr c, 1, 1⟩
def F.clnChainErr_crc (c : Nat) : FieldRef := ⟨R.clnChainErr c, 2, 1⟩
def F.clnChainErr_tooFar (c : Nat) : FieldRef := ⟨R.clnChainErr c, 3, 1⟩
def F.clnChainErr_cellLost (c : Nat) : FieldRef := ⟨R.clnChainErr c, 4, 1⟩
def F.clnChainErr_cmdTmo (c : Nat) : FieldRef := ⟨R.clnChainErr c, 5, 1⟩
def F.clnChainErr_sync (c : Nat) : FieldRef := ⟨R.clnChainErr c, 6, 1⟩
def F.clnChainDly_largest (c : Nat) : FieldRef := ⟨R.clnChainDly c, 0, 16⟩
def F.clnCrcCount_discarded (c : Nat) : FieldRef := ⟨R.clnCrcCount c, 0, 16⟩
def F.clnCrcCount_posErr (c : Nat) : FieldRef := ⟨R.clnCrcCount c, 16, 16⟩
def F.clnCellStat_cstat (n : Nat) : FieldRef := ⟨R.clnCellStat n, 0, 16⟩
def F.clnCellStat_position (n : Nat) : FieldRef := ⟨R.clnCellStat n, 16, 4⟩
def F.clnCellStat_chain (n : Nat) : FieldRef := ⟨R.clnCellStat n, 20, 3⟩
def F.clnCellStat_lost (n : Nat) : FieldRef := ⟨R.clnCellStat n, 23, 1⟩
def F.clnCellStat_absent (n : Nat) : FieldRef := ⟨R.clnCellStat n, 24, 1⟩
def F.clnCellStat_missed (n : Nat) : FieldRef := ⟨R.clnCellStat n, 25, 3⟩
def F.clnCellDly_a (n : Nat) : FieldRef := ⟨R.clnCellDly n, 0, 16⟩
def F.clnCellDly_b (n : Nat) : FieldRef := ⟨R.clnCellDly n, 16, 16⟩
def F.cmuSstStat_stage : FieldRef := ⟨R.cmuSstStat, 0, 4⟩
def F.cmuSstStat_set : FieldRef := ⟨R.cmuSstStat, 4, 3⟩
def F.cmuSstStat_ramping : FieldRef := ⟨R.cmuSstStat, 7, 1⟩
def F.cmuSstStat_nSvc : FieldRef := ⟨R.cmuSstStat, 8, 6⟩
def F.cmuSstStat_sel : FieldRef := ⟨R.cmuSstStat, 16, 3⟩
def F.cmuModCfg_txPhase : FieldRef := ⟨R.cmuModCfg, 0, 7⟩
def F.cmuModCfg_mDab : FieldRef := ⟨R.cmuModCfg, 8, 2⟩
def F.cmuModCfg_tMin : FieldRef := ⟨R.cmuModCfg, 16, 8⟩
def F.cmuModCfg_mMax : FieldRef := ⟨R.cmuModCfg, 24, 8⟩
def F.cmuCellCfg_nMin : FieldRef := ⟨R.cmuCellCfg, 0, 6⟩
def F.cmuVdcLim_vdcOv : FieldRef := ⟨R.cmuVdcLim, 0, 16⟩
def F.cmuVdcLim_vdcFloor : FieldRef := ⟨R.cmuVdcLim, 16, 16⟩
def F.cmuPlim_pLim : FieldRef := ⟨R.cmuPlim, 0, 16⟩
def F.cmuPlim_iLim : FieldRef := ⟨R.cmuPlim, 16, 16⟩
def F.cmuTherm_tLim : FieldRef := ⟨R.cmuTherm, 0, 16⟩
def F.cmuTherm_tTrip : FieldRef := ⟨R.cmuTherm, 16, 16⟩
def F.cmuIcatCfg_input : FieldRef := ⟨R.cmuIcatCfg, 0, 5⟩
def F.cmuIcatCfg_pair : FieldRef := ⟨R.cmuIcatCfg, 5, 3⟩
def F.cmuIcatCfg_icatOc : FieldRef := ⟨R.cmuIcatCfg, 16, 16⟩
def F.cmuLvbCfg_input : FieldRef := ⟨R.cmuLvbCfg, 0, 5⟩
def F.cmuLvbCfg_pair : FieldRef := ⟨R.cmuLvbCfg, 5, 3⟩
def F.cmuVoutOv_voutOv : FieldRef := ⟨R.cmuVoutOv, 0, 16⟩
def F.cmuCoast_coastMax : FieldRef := ⟨R.cmuCoast, 0, 8⟩
def F.cmuCoast_rtRamp : FieldRef := ⟨R.cmuCoast, 8, 8⟩
def F.cmuBrkCfg_brkOv : FieldRef := ⟨R.cmuBrkCfg, 0, 1⟩
def F.cmuBrkCfg_brkOc : FieldRef := ⟨R.cmuBrkCfg, 1, 1⟩
def F.cmuBrkCfg_brkFew : FieldRef := ⟨R.cmuBrkCfg, 2, 1⟩
def F.cmuBrkCfg_brkStall : FieldRef := ⟨R.cmuBrkCfg, 3, 1⟩
def F.cmuBrkCfg_brkCoast : FieldRef := ⟨R.cmuBrkCfg, 4, 1⟩
def F.cmuBrkCfg_brkSafe : FieldRef := ⟨R.cmuBrkCfg, 5, 1⟩
def F.cmuBrkCfg_brkMin : FieldRef := ⟨R.cmuBrkCfg, 8, 8⟩
def F.cmuProtStat_sstOv : FieldRef := ⟨R.cmuProtStat, 0, 1⟩
def F.cmuProtStat_catOc : FieldRef := ⟨R.cmuProtStat, 1, 1⟩
def F.cmuProtStat_fewCells : FieldRef := ⟨R.cmuProtStat, 2, 1⟩
def F.cmuProtStat_powerStall : FieldRef := ⟨R.cmuProtStat, 3, 1⟩
def F.cmuProtStat_coastExp : FieldRef := ⟨R.cmuProtStat, 4, 1⟩
def F.cmuProtStat_voutOv : FieldRef := ⟨R.cmuProtStat, 5, 1⟩
def F.cmuProtStat_overmod : FieldRef := ⟨R.cmuProtStat, 6, 1⟩
def F.cmuProtStat_brk : FieldRef := ⟨R.cmuProtStat, 7, 1⟩
def F.cmuCellSvc_svc (n : Nat) : FieldRef := ⟨R.cmuCellSvc n, 0, 3⟩
def F.cmuCellMod_m (n : Nat) : FieldRef := ⟨R.cmuCellMod n, 0, 16⟩
def F.cmuCellMod_phi (n : Nat) : FieldRef := ⟨R.cmuCellMod n, 16, 16⟩
def F.cmuCellVdc_v (n : Nat) : FieldRef := ⟨R.cmuCellVdc n, 0, 16⟩
def F.pwmCtrl_en : FieldRef := ⟨R.pwmCtrl, 0, 1⟩
def F.pwmStat_running : FieldRef := ⟨R.pwmStat, 0, 8⟩
def F.pwmStat_drained : FieldRef := ⟨R.pwmStat, 8, 8⟩
def F.pwmStat_hrLock : FieldRef := ⟨R.pwmStat, 16, 1⟩
def F.pwmCommit_req : FieldRef := ⟨R.pwmCommit, 0, 8⟩
def F.pwmLvpCfg_input : FieldRef := ⟨R.pwmLvpCfg, 0, 5⟩
def F.pwmLvpCfg_pair : FieldRef := ⟨R.pwmLvpCfg, 5, 3⟩
def F.pwmLvref_ref : FieldRef := ⟨R.pwmLvref, 0, 16⟩
def F.pwmLvref_target : FieldRef := ⟨R.pwmLvref, 16, 16⟩
def F.pwmLegCfg_mode (l : Nat) : FieldRef := ⟨R.pwmLegCfg l, 0, 2⟩
def F.pwmLegCfg_src (l : Nat) : FieldRef := ⟨R.pwmLegCfg l, 2, 1⟩
def F.pwmLegCfg_upd (l : Nat) : FieldRef := ⟨R.pwmLegCfg l, 3, 1⟩
def F.pwmLegCfg_mpMode (l : Nat) : FieldRef := ⟨R.pwmLegCfg l, 4, 1⟩
def F.pwmLegCfg_safeHi (l : Nat) : FieldRef := ⟨R.pwmLegCfg l, 5, 1⟩
def F.pwmLegCfg_safeLo (l : Nat) : FieldRef := ⟨R.pwmLegCfg l, 6, 1⟩
def F.pwmLegCfg_bstN (l : Nat) : FieldRef := ⟨R.pwmLegCfg l, 8, 8⟩
def F.pwmLegDt_dtR (l : Nat) : FieldRef := ⟨R.pwmLegDt l, 0, 12⟩
def F.pwmLegDt_dtF (l : Nat) : FieldRef := ⟨R.pwmLegDt l, 16, 12⟩
def F.pwmLegMp_minPulse (l : Nat) : FieldRef := ⟨R.pwmLegMp l, 0, 12⟩
def F.pwmLegMp_bstW (l : Nat) : FieldRef := ⟨R.pwmLegMp l, 16, 14⟩
def F.pwmLegLim_perMin (l : Nat) : FieldRef := ⟨R.pwmLegLim l, 0, 16⟩
def F.pwmLegLim_perMax (l : Nat) : FieldRef := ⟨R.pwmLegLim l, 16, 16⟩
def F.pwmLegFix_tFix (l : Nat) : FieldRef := ⟨R.pwmLegFix l, 0, 19⟩
def F.pwmPerStg_v (l : Nat) : FieldRef := ⟨R.pwmPerStg l, 0, 19⟩
def F.pwmDutyStg_v (l : Nat) : FieldRef := ⟨R.pwmDutyStg l, 0, 19⟩
def F.pwmPerAct_v (l : Nat) : FieldRef := ⟨R.pwmPerAct l, 0, 19⟩
def F.pwmDutyAct_v (l : Nat) : FieldRef := ⟨R.pwmDutyAct l, 0, 19⟩
def F.pwmTrgA_position (l : Nat) : FieldRef := ⟨R.pwmTrgA l, 0, 19⟩
def F.pwmTrgA_en (l : Nat) : FieldRef := ⟨R.pwmTrgA l, 31, 1⟩
def F.pwmTrgB_position (l : Nat) : FieldRef := ⟨R.pwmTrgB l, 0, 19⟩
def F.pwmTrgB_en (l : Nat) : FieldRef := ⟨R.pwmTrgB l, 31, 1⟩
def F.pwmLegStat_state (l : Nat) : FieldRef := ⟨R.pwmLegStat l, 0, 3⟩
def F.pwmLegStat_full (l : Nat) : FieldRef := ⟨R.pwmLegStat l, 3, 1⟩
def F.pwmLegStat_ordinal (l : Nat) : FieldRef := ⟨R.pwmLegStat l, 4, 3⟩
def F.pwmLegStat_noLo (l : Nat) : FieldRef := ⟨R.pwmLegStat l, 8, 8⟩
def F.pwmLegFlags_pairSplit (l : Nat) : FieldRef := ⟨R.pwmLegFlags l, 0, 1⟩
def F.pwmLegFlags_srcErr (l : Nat) : FieldRef := ⟨R.pwmLegFlags l, 1, 1⟩
def F.pwmLegFlags_mpDrop (l : Nat) : FieldRef := ⟨R.pwmLegFlags l, 2, 1⟩
def F.pwmLegFlags_mpStretch (l : Nat) : FieldRef := ⟨R.pwmLegFlags l, 3, 1⟩
def F.pwmLegFlags_trgMiss (l : Nat) : FieldRef := ⟨R.pwmLegFlags l, 4, 1⟩
def F.pwmLegFlags_merged (l : Nat) : FieldRef := ⟨R.pwmLegFlags l, 5, 1⟩
def F.pwmLegFlags_bstRef (l : Nat) : FieldRef := ⟨R.pwmLegFlags l, 6, 1⟩
def F.pwmLegCount_commits (l : Nat) : FieldRef := ⟨R.pwmLegCount l, 0, 16⟩
def F.pwmLegCount_pulses (l : Nat) : FieldRef := ⟨R.pwmLegCount l, 16, 16⟩
def F.gdpStat_drvEn : FieldRef := ⟨R.gdpStat, 0, 1⟩
def F.gdpStat_vgdOk : FieldRef := ⟨R.gdpStat, 1, 1⟩
def F.gdpStat_legsLatched : FieldRef := ⟨R.gdpStat, 8, 8⟩
def F.gdpTripCfg_en (i : Nat) : FieldRef := ⟨R.gdpTripCfg i, 0, 1⟩
def F.gdpTripCfg_actLow (i : Nat) : FieldRef := ⟨R.gdpTripCfg i, 1, 1⟩
def F.gdpTripCfg_filter (i : Nat) : FieldRef := ⟨R.gdpTripCfg i, 2, 10⟩
def F.gdpTripCfg_mask (i : Nat) : FieldRef := ⟨R.gdpTripCfg i, 16, 8⟩
def F.gdpTripStat_level : FieldRef := ⟨R.gdpTripStat, 0, 4⟩
def F.gdpTripStat_seen : FieldRef := ⟨R.gdpTripStat, 4, 4⟩
def F.gdpLegProt_ocThr (l : Nat) : FieldRef := ⟨R.gdpLegProt l, 0, 8⟩
def F.gdpLegProt_hardMult (l : Nat) : FieldRef := ⟨R.gdpLegProt l, 8, 3⟩
def F.gdpLegProt_blank (l : Nat) : FieldRef := ⟨R.gdpLegProt l, 16, 10⟩
def F.gdpLegLatch_oc (l : Nat) : FieldRef := ⟨R.gdpLegLatch l, 0, 1⟩
def F.gdpLegLatch_hardOc (l : Nat) : FieldRef := ⟨R.gdpLegLatch l, 1, 1⟩
def F.gdpLegLatch_shootBlock (l : Nat) : FieldRef := ⟨R.gdpLegLatch l, 2, 1⟩
def F.gdpLegLatch_tripIn (l : Nat) : FieldRef := ⟨R.gdpLegLatch l, 3, 1⟩
def F.gdpLegLatch_drvEnDrop (l : Nat) : FieldRef := ⟨R.gdpLegLatch l, 4, 1⟩
def F.gdpLegLatch_vgdUv (l : Nat) : FieldRef := ⟨R.gdpLegLatch l, 5, 1⟩
def F.gdpLegLatch_tripPresent (l : Nat) : FieldRef := ⟨R.gdpLegLatch l, 8, 1⟩
def F.gdpLegLatch_cmpMain (l : Nat) : FieldRef := ⟨R.gdpLegLatch l, 9, 1⟩
def F.gdpLegLatch_cmpHard (l : Nat) : FieldRef := ⟨R.gdpLegLatch l, 10, 1⟩
def F.gdpLegLatch_bstUv (l : Nat) : FieldRef := ⟨R.gdpLegLatch l, 11, 1⟩
def F.gdpLegCount_crossings (l : Nat) : FieldRef := ⟨R.gdpLegCount l, 0, 16⟩
def F.gdpLegCount_bstUv (l : Nat) : FieldRef := ⟨R.gdpLegCount l, 16, 16⟩
def F.adcCtrl_en : FieldRef := ⟨R.adcCtrl, 0, 6⟩
def F.adcStat_drained : FieldRef := ⟨R.adcStat, 0, 6⟩
def F.adcStat_settling : FieldRef := ⟨R.adcStat, 8, 6⟩
def F.adcStat_unserved : FieldRef := ⟨R.adcStat, 16, 4⟩
def F.adcPairCfg_ref (p : Nat) : FieldRef := ⟨R.adcPairCfg p, 0, 2⟩
def F.adcPairStat_overrun (p : Nat) : FieldRef := ⟨R.adcPairStat p, 0, 1⟩
def F.adcPairStat_discarded (p : Nat) : FieldRef := ⟨R.adcPairStat p, 1, 1⟩
def F.adcPairStat_settling (p : Nat) : FieldRef := ⟨R.adcPairStat p, 2, 1⟩
def F.adcPairStat_calBusy (p : Nat) : FieldRef := ⟨R.adcPairStat p, 3, 1⟩
def F.adcPairStat_pending (p : Nat) : FieldRef := ⟨R.adcPairStat p, 4, 1⟩
def F.adcPairCount_overruns (p : Nat) : FieldRef := ⟨R.adcPairCount p, 0, 16⟩
def F.adcPairCount_delayed (p : Nat) : FieldRef := ⟨R.adcPairCount p, 16, 16⟩
def F.adcCapPos_index (p : Nat) : FieldRef := ⟨R.adcCapPos p, 0, 10⟩
def F.adcSlot_src (p : Nat) (s : Nat) : FieldRef := ⟨R.adcSlot p s, 0, 3⟩
def F.adcSlot_tline (p : Nat) (s : Nat) : FieldRef := ⟨R.adcSlot p s, 3, 4⟩
def F.adcSlot_bipolar (p : Nat) (s : Nat) : FieldRef := ⟨R.adcSlot p s, 7, 1⟩
def F.adcSlot_input (p : Nat) (s : Nat) : FieldRef := ⟨R.adcSlot p s, 8, 5⟩
def F.adcSlot_div (p : Nat) (s : Nat) : FieldRef := ⟨R.adcSlot p s, 16, 12⟩
def F.adcRes_code (p : Nat) (s : Nat) : FieldRef := ⟨R.adcRes p s, 0, 16⟩
def F.adcRes_stale (p : Nat) (s : Nat) : FieldRef := ⟨R.adcRes p s, 16, 1⟩
def F.adcRes_unsettled (p : Nat) (s : Nat) : FieldRef := ⟨R.adcRes p s, 17, 1⟩
def F.adcRes_delayed (p : Nat) (s : Nat) : FieldRef := ⟨R.adcRes p s, 18, 1⟩
def F.adcCap_code (p : Nat) (i : Nat) : FieldRef := ⟨R.adcCap p i, 0, 16⟩
def F.adcCap_stale (p : Nat) (i : Nat) : FieldRef := ⟨R.adcCap p i, 16, 1⟩
def F.adcCap_unsettled (p : Nat) (i : Nat) : FieldRef := ⟨R.adcCap p i, 17, 1⟩
def F.dacStat_notOff : FieldRef := ⟨R.dacStat, 0, 16⟩
def F.dacStat_drained : FieldRef := ⟨R.dacStat, 16, 16⟩
def F.dacChCfg_span (c : Nat) : FieldRef := ⟨R.dacChCfg c, 0, 2⟩
def F.dacChCfg_div (c : Nat) : FieldRef := ⟨R.dacChCfg c, 4, 16⟩
def F.dacQueue_code (c : Nat) : FieldRef := ⟨R.dacQueue c, 0, 16⟩
def F.dacChStat_qLevel (c : Nat) : FieldRef := ⟨R.dacChStat c, 0, 5⟩
def F.dacChStat_cstate (c : Nat) : FieldRef := ⟨R.dacChStat c, 5, 3⟩
def F.dacChStat_deglitch (c : Nat) : FieldRef := ⟨R.dacChStat c, 8, 1⟩
def F.dacChStat_out (c : Nat) : FieldRef := ⟨R.dacChStat c, 16, 16⟩
def F.dacChFlags_qFull (c : Nat) : FieldRef := ⟨R.dacChFlags c, 0, 1⟩
def F.dacChFlags_offWrite (c : Nat) : FieldRef := ⟨R.dacChFlags c, 1, 1⟩
def F.dacChCount_applied (c : Nat) : FieldRef := ⟨R.dacChCount c, 0, 16⟩
def F.dacChCount_discarded (c : Nat) : FieldRef := ⟨R.dacChCount c, 16, 16⟩
def F.calCtrl_en : FieldRef := ⟨R.calCtrl, 0, 1⟩
def F.calCtrl_autoRake : FieldRef := ⟨R.calCtrl, 1, 1⟩
def F.calCtrl_autoLive : FieldRef := ⟨R.calCtrl, 2, 1⟩
def F.calStat_active : FieldRef := ⟨R.calStat, 0, 1⟩
def F.calStat_validA : FieldRef := ⟨R.calStat, 1, 1⟩
def F.calStat_validB : FieldRef := ⟨R.calStat, 2, 1⟩
def F.calStat_provisional : FieldRef := ⟨R.calStat, 3, 1⟩
def F.calStat_noCal : FieldRef := ⟨R.calStat, 4, 1⟩
def F.calStat_jobBusy : FieldRef := ⟨R.calStat, 5, 1⟩
def F.calStat_writing : FieldRef := ⟨R.calStat, 6, 1⟩
def F.calStat_drained : FieldRef := ⟨R.calStat, 7, 1⟩
def F.calStat_queued : FieldRef := ⟨R.calStat, 16, 16⟩
def F.calLiveCfg_liveStep : FieldRef := ⟨R.calLiveCfg, 0, 11⟩
def F.calJobCount_passed : FieldRef := ⟨R.calJobCount, 0, 16⟩
def F.calJobCount_failed : FieldRef := ⟨R.calJobCount, 16, 16⟩
def F.calRakeCount_completed : FieldRef := ⟨R.calRakeCount, 0, 16⟩
def F.calRakeCount_invalid : FieldRef := ⟨R.calRakeCount, 16, 16⟩
def F.calGapStat_pending : FieldRef := ⟨R.calGapStat, 0, 5⟩
def F.calGapStat_steps : FieldRef := ⟨R.calGapStat, 16, 16⟩
def F.calLinkCal_foreign (l : Nat) : FieldRef := ⟨R.calLinkCal l, 0, 1⟩
def F.calLinkCal_provisional (l : Nat) : FieldRef := ⟨R.calLinkCal l, 1, 1⟩
def F.calLinkCal_stale (l : Nat) : FieldRef := ⟨R.calLinkCal l, 2, 1⟩
def F.calLinkCal_rakeFail (l : Nat) : FieldRef := ⟨R.calLinkCal l, 8, 8⟩
def F.calLinkCal_pending (l : Nat) : FieldRef := ⟨R.calLinkCal l, 16, 8⟩
def F.fltState_osafe : FieldRef := ⟨R.fltState, 0, 1⟩
def F.fltState_psafe : FieldRef := ⟨R.fltState, 1, 1⟩
def F.fltState_dsafe : FieldRef := ⟨R.fltState, 2, 1⟩
def F.fltState_relinqBlocked : FieldRef := ⟨R.fltState, 3, 1⟩
def F.fltState_faultO : FieldRef := ⟨R.fltState, 4, 1⟩
def F.fltState_alive : FieldRef := ⟨R.fltState, 5, 1⟩
def F.fltState_restarts : FieldRef := ⟨R.fltState, 8, 4⟩
def F.fltCfg_autoRestart : FieldRef := ⟨R.fltCfg, 0, 1⟩
def F.fltCfg_restartMs : FieldRef := ⟨R.fltCfg, 8, 8⟩
def F.fltCfg_restartMax : FieldRef := ⟨R.fltCfg, 16, 4⟩
def F.fltSafeCause_source : FieldRef := ⟨R.fltSafeCause, 0, 16⟩
def F.fltSelf_par : FieldRef := ⟨R.fltSelf, 0, 1⟩
def F.fltSelf_copy : FieldRef := ⟨R.fltSelf, 1, 1⟩
def F.fltSelf_service : FieldRef := ⟨R.fltSelf, 2, 1⟩
def F.fltClass_class (s : Nat) : FieldRef := ⟨R.fltClass s, 0, 3⟩
def F.fltClass_floor (s : Nat) : FieldRef := ⟨R.fltClass s, 3, 3⟩
def F.fltClass_kind (s : Nat) : FieldRef := ⟨R.fltClass s, 6, 1⟩
def F.twnCtrl_mode : FieldRef := ⟨R.twnCtrl, 0, 1⟩
def F.twnCtrl_soloWait : FieldRef := ⟨R.twnCtrl, 8, 8⟩
def F.twnStat_role : FieldRef := ⟨R.twnStat, 0, 2⟩
def F.twnStat_paired : FieldRef := ⟨R.twnStat, 2, 1⟩
def F.twnStat_eligible : FieldRef := ⟨R.twnStat, 3, 1⟩
def F.twnStat_peerEligible : FieldRef := ⟨R.twnStat, 4, 1⟩
def F.twnStat_degraded : FieldRef := ⟨R.twnStat, 5, 1⟩
def F.twnStat_linkUp : FieldRef := ⟨R.twnStat, 6, 1⟩
def F.twnStat_claimOut : FieldRef := ⟨R.twnStat, 7, 1⟩
def F.twnStat_peerClaimIn : FieldRef := ⟨R.twnStat, 8, 1⟩
def F.twnStat_unitId : FieldRef := ⟨R.twnStat, 9, 1⟩
def F.twnStat_term : FieldRef := ⟨R.twnStat, 16, 16⟩
def F.twnHbMiss_missed : FieldRef := ⟨R.twnHbMiss, 0, 16⟩
def F.twnHbMiss_claims : FieldRef := ⟨R.twnHbMiss, 16, 16⟩
def F.twnLinkDelay_delay : FieldRef := ⟨R.twnLinkDelay, 0, 16⟩
def F.twnPeer_term : FieldRef := ⟨R.twnPeer, 0, 16⟩
def F.twnPeer_claim : FieldRef := ⟨R.twnPeer, 16, 1⟩
def F.twnPeer_eligible : FieldRef := ⟨R.twnPeer, 17, 1⟩
def F.thsCtrl_thrEn : FieldRef := ⟨R.thsCtrl, 0, 1⟩
def F.thsTempCfg_rateWarn : FieldRef := ⟨R.thsTempCfg, 0, 8⟩
def F.thsTempCfg_tThr : FieldRef := ⟨R.thsTempCfg, 8, 8⟩
def F.thsTempCfg_absLim : FieldRef := ⟨R.thsTempCfg, 16, 8⟩
def F.thsStat_level : FieldRef := ⟨R.thsStat, 0, 2⟩
def F.thsStat_divMode : FieldRef := ⟨R.thsStat, 2, 1⟩
def F.thsStat_thrLimited : FieldRef := ⟨R.thsStat, 3, 1⟩
def F.thsStat_fast : FieldRef := ⟨R.thsStat, 4, 1⟩
def F.thsStat_hottest : FieldRef := ⟨R.thsStat, 5, 5⟩
def F.thsStat_tMax : FieldRef := ⟨R.thsStat, 16, 16⟩
def F.thsSuspect_bits : FieldRef := ⟨R.thsSuspect, 0, 28⟩
def F.thsExcluded_bits : FieldRef := ⟨R.thsExcluded, 0, 28⟩
def F.thsThrCount_rises : FieldRef := ⟨R.thsThrCount, 0, 16⟩
def F.thsThrCount_seconds : FieldRef := ⟨R.thsThrCount, 16, 16⟩
def F.thsSupStat_bits : FieldRef := ⟨R.thsSupStat, 0, 12⟩
def F.thsSensT_reading (i : Nat) : FieldRef := ⟨R.thsSensT i, 0, 16⟩
def F.thsSensT_rate (i : Nat) : FieldRef := ⟨R.thsSensT i, 16, 16⟩
def F.thsSensFlags_suspect (i : Nat) : FieldRef := ⟨R.thsSensFlags i, 0, 1⟩
def F.thsSensFlags_excluded (i : Nat) : FieldRef := ⟨R.thsSensFlags i, 1, 1⟩
def F.thsSensFlags_rateWarn (i : Nat) : FieldRef := ⟨R.thsSensFlags i, 2, 1⟩
def F.thsSensFlags_abs (i : Nat) : FieldRef := ⟨R.thsSensFlags i, 3, 1⟩
def F.thsSensFlags_fast (i : Nat) : FieldRef := ⟨R.thsSensFlags i, 4, 1⟩
def F.thsSensMax_reading (i : Nat) : FieldRef := ⟨R.thsSensMax i, 0, 16⟩
def F.thsSupV_mv (r : Nat) : FieldRef := ⟨R.thsSupV r, 0, 16⟩
def F.thsSupV_excursions (r : Nat) : FieldRef := ⟨R.thsSupV r, 16, 16⟩
def F.thsSupLim_under (r : Nat) : FieldRef := ⟨R.thsSupLim r, 0, 16⟩
def F.thsSupLim_over (r : Nat) : FieldRef := ⟨R.thsSupLim r, 16, 16⟩
def F.memCtrl_scrubEn : FieldRef := ⟨R.memCtrl, 0, 1⟩
def F.memStat_libImage : FieldRef := ⟨R.memStat, 0, 1⟩
def F.memStat_sr : FieldRef := ⟨R.memStat, 1, 1⟩
def F.memScrubCfg_scrubH : FieldRef := ⟨R.memScrubCfg, 0, 8⟩
def F.memDdrCfg_rate (c : Nat) : FieldRef := ⟨R.memDdrCfg c, 0, 3⟩
def F.memDdrCfg_capacity (c : Nat) : FieldRef := ⟨R.memDdrCfg c, 8, 8⟩
def F.memDdrStat_dstate (c : Nat) : FieldRef := ⟨R.memDdrStat c, 0, 3⟩
def F.memDdrStat_spdBad (c : Nat) : FieldRef := ⟨R.memDdrStat c, 3, 1⟩
def F.memScrubPos_pos (c : Nat) : FieldRef := ⟨R.memScrubPos c, 0, 16⟩
def F.memScrubPos_passes (c : Nat) : FieldRef := ⟨R.memScrubPos c, 16, 16⟩
def F.bmxCtrl_ageMax : FieldRef := ⟨R.bmxCtrl, 0, 9⟩
def F.bmxMStat_granted (m : Nat) : FieldRef := ⟨R.bmxMStat m, 0, 16⟩
def F.bmxMStat_wait (m : Nat) : FieldRef := ⟨R.bmxMStat m, 16, 16⟩
def F.bmxMReset_bursts (m : Nat) : FieldRef := ⟨R.bmxMReset m, 0, 16⟩
def F.bmxMReset_beats (m : Nat) : FieldRef := ⟨R.bmxMReset m, 16, 16⟩
def F.bmxTStat_owner (t : Nat) : FieldRef := ⟨R.bmxTStat t, 0, 4⟩
def F.bmxTStat_parked (t : Nat) : FieldRef := ⟨R.bmxTStat t, 4, 1⟩
def F.bmxTStat_busy (t : Nat) : FieldRef := ⟨R.bmxTStat t, 5, 1⟩
def F.bmxTStat_promotions (t : Nat) : FieldRef := ⟨R.bmxTStat t, 16, 16⟩
def F.bmxTPaths_masters (t : Nat) : FieldRef := ⟨R.bmxTPaths t, 0, 13⟩

/-- The register banks of the THS window. -/
def regBanksThs : List RegBank := [
  ⟨0x110400, 0x0, 1, 0x0, 1, .cw, 0x640037, 0xFF003F⟩,
  ⟨0x110404, 0x0, 1, 0x0, 1, .cw, 0x0, 0xFFFFFFFF⟩,
  ⟨0x110408, 0x0, 1, 0x0, 1, .ro, 0x0, 0x0⟩,
  ⟨0x110000, 0x0, 1, 0x0, 1, .rw, 0x1, 0x1⟩,
  ⟨0x110004, 0x0, 1, 0x0, 1, .cw, 0x8C7808, 0xFFFFFF⟩,
  ⟨0x110008, 0x0, 1, 0x0, 1, .ro, 0x0, 0x0⟩,
  ⟨0x11000C, 0x0, 1, 0x0, 1, .ro, 0x0, 0x0⟩,
  ⟨0x110010, 0x0, 1, 0x0, 1, .ro, 0x0, 0x0⟩,
  ⟨0x110014, 0x0, 1, 0x0, 1, .ro, 0x0, 0x0⟩,
  ⟨0x110018, 0x0, 1, 0x0, 1, .ro, 0xFFF, 0x0⟩,
  ⟨0x110100, 0x10, 28, 0x0, 1, .ro, 0x0, 0x0⟩,
  ⟨0x110104, 0x10, 28, 0x0, 1, .ro, 0x0, 0x0⟩,
  ⟨0x110108, 0x10, 28, 0x0, 1, .ro, 0x8000, 0x0⟩,
  ⟨0x110300, 0x10, 12, 0x0, 1, .ro, 0x0, 0x0⟩,
  ⟨0x110304, 0x10, 12, 0x0, 1, .ro, 0x0, 0x0⟩]

/-- The register banks of the CPX window. -/
def regBanksCpx : List RegBank := [
  ⟨0x0, 0x0, 1, 0x0, 1, .ro, 0x0, 0x0⟩,
  ⟨0x4, 0x0, 1, 0x0, 1, .ro, 0x0, 0x0⟩,
  ⟨0x8, 0x0, 1, 0x0, 1, .ro, 0x0, 0x0⟩,
  ⟨0x10, 0x0, 1, 0x0, 1, .cw, 0xB8CE, 0x1FFFF⟩,
  ⟨0x14, 0x0, 1, 0x0, 1, .ro, 0x0, 0x0⟩,
  ⟨0x20, 0x0, 1, 0x0, 1, .ro, 0x0, 0x0⟩,
  ⟨0x24, 0x0, 1, 0x0, 1, .ro, 0x0, 0x0⟩,
  ⟨0x28, 0x0, 1, 0x0, 1, .ro, 0x0, 0x0⟩,
  ⟨0x2C, 0x0, 1, 0x0, 1, .ro, 0x0, 0x0⟩,
  ⟨0x100, 0x40, 8, 0x0, 1, .d, 0x0, 0xFFFFFFFF⟩,
  ⟨0x104, 0x40, 8, 0x0, 1, .d, 0x0, 0xFFFFFFFF⟩,
  ⟨0x108, 0x40, 8, 0x0, 1, .d, 0x4, 0xF⟩,
  ⟨0x10C, 0x40, 8, 0x0, 1, .d, 0x0, 0xFFF⟩,
  ⟨0x110, 0x40, 8, 0x0, 1, .ro, 0x0, 0x0⟩,
  ⟨0x114, 0x40, 8, 0x0, 1, .d, 0x0, 0xFFFFFFFF⟩,
  ⟨0x118, 0x40, 8, 0x0, 1, .d, 0x0, 0xFFFFFFFF⟩,
  ⟨0x11C, 0x40, 8, 0x0, 1, .d, 0x4, 0xF⟩,
  ⟨0x120, 0x40, 8, 0x0, 1, .d, 0x0, 0xFFF⟩,
  ⟨0x124, 0x40, 8, 0x0, 1, .ro, 0x0, 0x0⟩,
  ⟨0x128, 0x40, 8, 0x0, 1, .d, 0x0, 0xFF03FFFF⟩,
  ⟨0x12C, 0x40, 8, 0x0, 1, .w1c, 0x0, 0xF⟩,
  ⟨0x300, 0x0, 1, 0x0, 1, .d, 0x0, 0xFFFFFFFF⟩,
  ⟨0x304, 0x0, 1, 0x0, 1, .d, 0x0, 0xFFFFFFFF⟩,
  ⟨0x308, 0x0, 1, 0x0, 1, .d, 0x4, 0x1F⟩,
  ⟨0x30C, 0x0, 1, 0x0, 1, .d, 0x0, 0xFFF⟩,
  ⟨0x310, 0x0, 1, 0x0, 1, .ro, 0x0, 0x0⟩,
  ⟨0x314, 0x0, 1, 0x0, 1, .ro, 0x0, 0x0⟩]

/-- The register banks of the HST window. -/
def regBanksHst : List RegBank := [
  ⟨0x10000, 0x0, 1, 0x0, 1, .ro, 0x0, 0x0⟩,
  ⟨0x10004, 0x0, 1, 0x0, 1, .ro, 0x0, 0x0⟩,
  ⟨0x10008, 0x0, 1, 0x0, 1, .ro, 0x0, 0x0⟩,
  ⟨0x1000C, 0x0, 1, 0x0, 1, .ro, 0x0, 0x0⟩,
  ⟨0x10010, 0x4, 4, 0x0, 1, .ro, 0x0, 0x0⟩,
  ⟨0x10020, 0x4, 8, 0x0, 1, .ro, 0x0, 0x0⟩,
  ⟨0x10040, 0x0, 1, 0x0, 1, .ro, 0x0, 0x0⟩]

/-- The register banks of the TBU window. -/
def regBanksTbu : List RegBank := [
  ⟨0x90000, 0x0, 1, 0x0, 1, .ro, 0x0, 0x0⟩,
  ⟨0x90004, 0x0, 1, 0x0, 1, .ro, 0x0, 0x0⟩,
  ⟨0x90008, 0x0, 1, 0x0, 1, .ro, 0x0, 0x0⟩,
  ⟨0x90010, 0x0, 1, 0x0, 1, .ro, 0x0, 0x0⟩,
  ⟨0x90014, 0x0, 1, 0x0, 1, .ro, 0x0, 0x0⟩,
  ⟨0x90018, 0x0, 1, 0x0, 1, .ro, 0x1, 0x0⟩,
  ⟨0x9001C, 0x0, 1, 0x0, 1, .ro, 0x0, 0x0⟩,
  ⟨0x90020, 0x0, 1, 0x0, 1, .cw, 0x3C0000, 0xFF03FF⟩,
  ⟨0x90024, 0x0, 1, 0x0, 1, .ro, 0x0, 0x0⟩,
  ⟨0x90028, 0x0, 1, 0x0, 1, .ro, 0x0, 0x0⟩,
  ⟨0x90030, 0x0, 1, 0x0, 1, .cw, 0x14320001, 0xFFFF03FF⟩,
  ⟨0x90034, 0x0, 1, 0x0, 1, .cw, 0x0, 0xFFFFFFFF⟩,
  ⟨0x90038, 0x0, 1, 0x0, 1, .ro, 0x0, 0x0⟩,
  ⟨0x9003C, 0x0, 1, 0x0, 1, .ro, 0x0, 0x0⟩,
  ⟨0x90040, 0x0, 1, 0x0, 1, .ro, 0x0, 0x0⟩,
  ⟨0x90050, 0x0, 1, 0x0, 1, .ro, 0x0, 0x0⟩,
  ⟨0x90100, 0x4, 8, 0x0, 1, .ro, 0x0, 0x0⟩,
  ⟨0x91000, 0x20, 64, 0x0, 1, .ro, 0x0, 0x0⟩,
  ⟨0x91004, 0x20, 64, 0x0, 1, .ro, 0x0, 0x0⟩,
  ⟨0x91008, 0x20, 64, 0x0, 1, .ro, 0x0, 0x0⟩,
  ⟨0x9100C, 0x20, 64, 0x0, 1, .ro, 0x0, 0x0⟩]

/-- The register banks of the RTP window. -/
def regBanksRtp : List RegBank := [
  ⟨0x70000, 0x0, 1, 0x0, 1, .ro, 0x0, 0x0⟩,
  ⟨0x70004, 0x0, 1, 0x0, 1, .ro, 0x0, 0x0⟩,
  ⟨0x70008, 0x0, 1, 0x0, 1, .ro, 0x0, 0x0⟩,
  ⟨0x7000C, 0x0, 1, 0x0, 1, .ro, 0x0, 0x0⟩,
  ⟨0x70010, 0x0, 1, 0x0, 1, .ro, 0x0, 0x0⟩,
  ⟨0x70014, 0x0, 1, 0x0, 1, .ro, 0x0, 0x0⟩,
  ⟨0x70020, 0x0, 1, 0x0, 1, .ro, 0x0, 0x0⟩,
  ⟨0x70024, 0x0, 1, 0x0, 1, .ro, 0x0, 0x0⟩,
  ⟨0x70028, 0x0, 1, 0x0, 1, .ro, 0x0, 0x0⟩,
  ⟨0x70030, 0x0, 1, 0x0, 1, .ro, 0x0, 0x0⟩,
  ⟨0x70100, 0x4, 16, 0x0, 1, .ro, 0x0, 0x0⟩,
  ⟨0x70200, 0x4, 512, 0x0, 1, .ro, 0x0, 0x0⟩]

/-- The register banks of the TRN window. -/
def regBanksTrn : List RegBank := [
  ⟨0x80000, 0x0, 1, 0x0, 1, .rw, 0x3, 0x3⟩,
  ⟨0x80004, 0x0, 1, 0x0, 1, .ro, 0x0, 0x0⟩,
  ⟨0x80008, 0x0, 1, 0x0, 1, .cw, 0x50C19, 0xFFFFFF⟩,
  ⟨0x8000C, 0x0, 1, 0x0, 1, .ro, 0x3C000, 0x0⟩,
  ⟨0x80010, 0x0, 1, 0x0, 1, .ro, 0x8000, 0x0⟩,
  ⟨0x80020, 0x0, 1, 0x0, 1, .ro, 0x0, 0x0⟩,
  ⟨0x80024, 0x0, 1, 0x0, 1, .ro, 0x0, 0x0⟩,
  ⟨0x80028, 0x0, 1, 0x0, 1, .ro, 0x0, 0x0⟩,
  ⟨0x8002C, 0x0, 1, 0x0, 1, .ro, 0x0, 0x0⟩,
  ⟨0x80030, 0x0, 1, 0x0, 1, .ro, 0x0, 0x0⟩,
  ⟨0x80034, 0x0, 1, 0x0, 1, .ro, 0x0, 0x0⟩,
  ⟨0x80038, 0x0, 1, 0x0, 1, .ro, 0xFFFFFFFF, 0x0⟩,
  ⟨0x80100, 0x4, 32, 0x0, 1, .ro, 0x0, 0x0⟩,
  ⟨0x80200, 0x10, 64, 0x0, 1, .ro, 0x0, 0x0⟩,
  ⟨0x80204, 0x10, 64, 0x0, 1, .ro, 0x0, 0x0⟩,
  ⟨0x80208, 0x10, 64, 0x0, 1, .w1c, 0x0, 0x1F⟩,
  ⟨0x8020C, 0x10, 64, 0x0, 1, .ro, 0x0, 0x0⟩]

/-- The register banks of the LPC window. -/
def regBanksLpc : List RegBank := [
  ⟨0x40000, 0x0, 1, 0x0, 1, .rw, 0xFFFF, 0xFFFF⟩,
  ⟨0x40004, 0x0, 1, 0x0, 1, .ro, 0x0, 0x0⟩,
  ⟨0x40008, 0x0, 1, 0x0, 1, .cw, 0x1, 0x1⟩,
  ⟨0x4000C, 0x0, 1, 0x0, 1, .rw, 0x10, 0x1F⟩,
  ⟨0x40010, 0x0, 1, 0x0, 1, .ro, 0x0, 0x0⟩,
  ⟨0x40014, 0x0, 1, 0x0, 1, .ro, 0x0, 0x0⟩,
  ⟨0x40018, 0x0, 1, 0x0, 1, .ro, 0x0, 0x0⟩,
  ⟨0x4001C, 0x0, 1, 0x0, 1, .ro, 0x0, 0x0⟩,
  ⟨0x40020, 0x0, 1, 0x0, 1, .ro, 0x0, 0x0⟩,
  ⟨0x40024, 0x0, 1, 0x0, 1, .ro, 0x0, 0x0⟩,
  ⟨0x40028, 0x0, 1, 0x0, 1, .ro, 0x0, 0x0⟩,
  ⟨0x4002C, 0x0, 1, 0x0, 1, .ro, 0x0, 0x0⟩,
  ⟨0x40030, 0x0, 1, 0x0, 1, .cw, 0x9C40000, 0xFFFF001F⟩,
  ⟨0x40034, 0x0, 1, 0x0, 1, .ro, 0x0, 0x0⟩,
  ⟨0x40100, 0x10, 16, 0x0, 1, .ro, 0x0, 0x0⟩,
  ⟨0x40104, 0x10, 16, 0x0, 1, .ro, 0x44C, 0x0⟩,
  ⟨0x40108, 0x10, 16, 0x0, 1, .w1c, 0x0, 0x7⟩,
  ⟨0x40200, 0x0, 1, 0x0, 1, .ro, 0x0, 0x0⟩,
  ⟨0x40204, 0x0, 1, 0x0, 1, .ro, 0x0, 0x0⟩,
  ⟨0x40300, 0x0, 1, 0x0, 1, .ro, 0x0, 0x0⟩,
  ⟨0x40310, 0x4, 12, 0x0, 1, .ro, 0x0, 0x0⟩,
  ⟨0x40400, 0x10, 64, 0x0, 1, .ro, 0x0, 0x0⟩,
  ⟨0x40404, 0x10, 64, 0x0, 1, .ro, 0x0, 0x0⟩,
  ⟨0x40408, 0x10, 64, 0x0, 1, .ro, 0x0, 0x0⟩,
  ⟨0x4040C, 0x10, 64, 0x0, 1, .ro, 0x0, 0x0⟩]

/-- The register banks of the PLM window. -/
def regBanksPlm : List RegBank := [
  ⟨0x50000, 0x0, 1, 0x0, 1, .rw, 0x3, 0x3⟩,
  ⟨0x50004, 0x0, 1, 0x0, 1, .cw, 0x1902007, 0xFFFFFF1F⟩,
  ⟨0x50008, 0x0, 1, 0x0, 1, .cw, 0xFA0, 0xFFFF⟩,
  ⟨0x5000C, 0x0, 1, 0x0, 1, .cw, 0xFFF, 0xFFFF⟩,
  ⟨0x50010, 0x0, 1, 0x0, 1, .ro, 0x0, 0x0⟩,
  ⟨0x50014, 0x0, 1, 0x0, 1, .ro, 0x0, 0x0⟩,
  ⟨0x50018, 0x0, 1, 0x0, 1, .ro, 0x0, 0x0⟩,
  ⟨0x5001C, 0x0, 1, 0x0, 1, .ro, 0x0, 0x0⟩,
  ⟨0x50020, 0x0, 1, 0x0, 1, .ro, 0x0, 0x0⟩,
  ⟨0x50024, 0x0, 1, 0x0, 1, .ro, 0x0, 0x0⟩,
  ⟨0x50028, 0x0, 1, 0x0, 1, .ro, 0x0, 0x0⟩,
  ⟨0x5002C, 0x0, 1, 0x0, 1, .ro, 0x0, 0x0⟩,
  ⟨0x50030, 0x0, 1, 0x0, 1, .ro, 0x0, 0x0⟩,
  ⟨0x50100, 0x4, 32, 0x0, 1, .ro, 0x0, 0x0⟩]

/-- The register banks of the ELK window. -/
def regBanksElk : List RegBank := [
  ⟨0x60000, 0x0, 1, 0x0, 1, .rw, 0xFFFFFFFF, 0xFFFFFFFF⟩,
  ⟨0x60004, 0x0, 1, 0x0, 1, .ro, 0x0, 0x0⟩,
  ⟨0x60008, 0x0, 1, 0x0, 1, .cw, 0x30A04, 0x7FFFF⟩,
  ⟨0x6000C, 0x0, 1, 0x0, 1, .ro, 0x0, 0x0⟩,
  ⟨0x60100, 0x20, 32, 0x0, 1, .ro, 0x0, 0x0⟩,
  ⟨0x60104, 0x20, 32, 0x0, 1, .w1c, 0x0, 0xFF⟩,
  ⟨0x60108, 0x20, 32, 0x0, 1, .ro, 0x0, 0x0⟩,
  ⟨0x6010C, 0x20, 32, 0x0, 1, .ro, 0x0, 0x0⟩,
  ⟨0x60110, 0x20, 32, 0x0, 1, .ro, 0x0, 0x0⟩,
  ⟨0x60114, 0x20, 32, 0x0, 1, .ro, 0x0, 0x0⟩,
  ⟨0x60118, 0x20, 32, 0x0, 1, .ro, 0x0, 0x0⟩,
  ⟨0x6011C, 0x20, 32, 0x0, 1, .ro, 0x0, 0x0⟩]

/-- The register banks of the CLN window. -/
def regBanksCln : List RegBank := [
  ⟨0xA0000, 0x0, 1, 0x0, 1, .rw, 0x0, 0xFF⟩,
  ⟨0xA0004, 0x0, 1, 0x0, 1, .ro, 0x0, 0x0⟩,
  ⟨0xA0008, 0x0, 1, 0x0, 1, .cw, 0x3020301, 0x7FFFFFF⟩,
  ⟨0xA000C, 0x0, 1, 0x0, 1, .ro, 0x0, 0x0⟩,
  ⟨0xA0100, 0x20, 8, 0x0, 1, .cw, 0x1, 0x3F01FF⟩,
  ⟨0xA0104, 0x20, 8, 0x0, 1, .ro, 0x0, 0x0⟩,
  ⟨0xA0108, 0x20, 8, 0x0, 1, .w1c, 0x0, 0x7F⟩,
  ⟨0xA010C, 0x20, 8, 0x0, 1, .ro, 0x0, 0x0⟩,
  ⟨0xA0110, 0x20, 8, 0x0, 1, .ro, 0x0, 0x0⟩,
  ⟨0xA1000, 0x10, 48, 0x0, 1, .ro, 0x0, 0x0⟩,
  ⟨0xA1004, 0x10, 48, 0x0, 1, .ro, 0x0, 0x0⟩]

/-- The register banks of the CMU window. -/
def regBanksCmu : List RegBank := [
  ⟨0xB0000, 0x0, 1, 0x0, 1, .ro, 0x0, 0x0⟩,
  ⟨0xB0004, 0x0, 1, 0x0, 1, .cw, 0x5F14013C, 0xFFFF037F⟩,
  ⟨0xB0008, 0x0, 1, 0x0, 1, .cw, 0x1, 0x3F⟩,
  ⟨0xB000C, 0x0, 1, 0x0, 1, .cw, 0x0, 0xFFFFFFFF⟩,
  ⟨0xB0010, 0x0, 1, 0x0, 1, .cw, 0x0, 0xFFFFFFFF⟩,
  ⟨0xB0014, 0x0, 1, 0x0, 1, .cw, 0x4E203E8, 0xFFFFFFFF⟩,
  ⟨0xB0018, 0x0, 1, 0x0, 1, .cw, 0x0, 0xFFFF00FF⟩,
  ⟨0xB001C, 0x0, 1, 0x0, 1, .cw, 0x0, 0xFFFFFFFF⟩,
  ⟨0xB0020, 0x0, 1, 0x0, 1, .cw, 0x0, 0xFF⟩,
  ⟨0xB0024, 0x0, 1, 0x0, 1, .cw, 0x0, 0xFFFFFFFF⟩,
  ⟨0xB0028, 0x0, 1, 0x0, 1, .cw, 0x7D0, 0xFFFF⟩,
  ⟨0xB002C, 0x0, 1, 0x0, 1, .cw, 0x1464, 0xFFFF⟩,
  ⟨0xB0030, 0x0, 1, 0x0, 1, .cw, 0x643F, 0xFF3F⟩,
  ⟨0xB0034, 0x0, 1, 0x0, 1, .ro, 0x0, 0x0⟩,
  ⟨0xB0038, 0x0, 1, 0x0, 1, .ro, 0x0, 0x0⟩,
  ⟨0xB0040, 0x4, 5, 0x0, 1, .ro, 0x7F7FFFFF, 0x0⟩,
  ⟨0xB0060, 0x0, 1, 0x0, 1, .ro, 0x0, 0x0⟩,
  ⟨0xB0064, 0x0, 1, 0x0, 1, .ro, 0x0, 0x0⟩,
  ⟨0xB0100, 0x10, 48, 0x0, 1, .ro, 0x0, 0x0⟩,
  ⟨0xB0104, 0x10, 48, 0x0, 1, .ro, 0x0, 0x0⟩,
  ⟨0xB0108, 0x10, 48, 0x0, 1, .ro, 0x0, 0x0⟩,
  ⟨0xB2000, 0x20, 48, 0x4, 8, .ro, 0x0, 0x0⟩]

/-- The register banks of the PWM window. -/
def regBanksPwm : List RegBank := [
  ⟨0xC0000, 0x0, 1, 0x0, 1, .rw, 0x1, 0x1⟩,
  ⟨0xC0004, 0x0, 1, 0x0, 1, .ro, 0x0, 0x0⟩,
  ⟨0xC0008, 0x0, 1, 0x0, 1, .d, 0x0, 0xFF⟩,
  ⟨0xC000C, 0x0, 1, 0x0, 1, .cw, 0x0, 0xFF⟩,
  ⟨0xC0010, 0x0, 1, 0x0, 1, .cw, 0x0, 0xFFFFFFFF⟩,
  ⟨0xC0014, 0x0, 1, 0x0, 1, .ro, 0x0, 0x0⟩,
  ⟨0xC0018, 0x0, 1, 0x0, 1, .ro, 0x0, 0x0⟩,
  ⟨0xC001C, 0x0, 1, 0x0, 1, .ro, 0x0, 0x0⟩,
  ⟨0xC0100, 0x40, 8, 0x0, 1, .cw, 0x804, 0xFF7F⟩,
  ⟨0xC0104, 0x40, 8, 0x0, 1, .cw, 0xF000F0, 0xFFF0FFF⟩,
  ⟨0xC0108, 0x40, 8, 0x0, 1, .cw, 0x6400190, 0x3FFF0FFF⟩,
  ⟨0xC010C, 0x40, 8, 0x0, 1, .cw, 0xC35007D0, 0xFFFFFFFF⟩,
  ⟨0xC0110, 0x40, 8, 0x0, 1, .cw, 0x0, 0x7FFFF⟩,
  ⟨0xC0114, 0x40, 8, 0x0, 1, .d, 0x9C40, 0x7FFFF⟩,
  ⟨0xC0118, 0x40, 8, 0x0, 1, .d, 0x0, 0x7FFFF⟩,
  ⟨0xC011C, 0x40, 8, 0x0, 1, .ro, 0x0, 0x0⟩,
  ⟨0xC0120, 0x40, 8, 0x0, 1, .ro, 0x0, 0x0⟩,
  ⟨0xC0124, 0x40, 8, 0x0, 1, .d, 0x0, 0x8007FFFF⟩,
  ⟨0xC0128, 0x40, 8, 0x0, 1, .d, 0x0, 0x8007FFFF⟩,
  ⟨0xC012C, 0x40, 8, 0x0, 1, .ro, 0x0, 0x0⟩,
  ⟨0xC0130, 0x40, 8, 0x0, 1, .w1c, 0x0, 0x7F⟩,
  ⟨0xC0134, 0x40, 8, 0x0, 1, .ro, 0x0, 0x0⟩]

/-- The register banks of the GDP window. -/
def regBanksGdp : List RegBank := [
  ⟨0xD0000, 0x0, 1, 0x0, 1, .ro, 0x0, 0x0⟩,
  ⟨0xD0010, 0x4, 4, 0x0, 1, .cw, 0x0, 0xFF0FFF⟩,
  ⟨0xD0020, 0x0, 1, 0x0, 1, .w1c, 0x0, 0xF0⟩,
  ⟨0xD0100, 0x20, 8, 0x0, 1, .cw, 0xC80264, 0x3FF07FF⟩,
  ⟨0xD0104, 0x20, 8, 0x0, 1, .ro, 0x0, 0x0⟩,
  ⟨0xD0108, 0x20, 8, 0x0, 1, .ro, 0x0, 0x0⟩]

/-- The register banks of the ADC window. -/
def regBanksAdc : List RegBank := [
  ⟨0xE0000, 0x0, 1, 0x0, 1, .rw, 0x3F, 0x3F⟩,
  ⟨0xE0004, 0x0, 1, 0x0, 1, .ro, 0x0, 0x0⟩,
  ⟨0xE0100, 0x20, 6, 0x0, 1, .cw, 0x0, 0x3⟩,
  ⟨0xE0104, 0x20, 6, 0x0, 1, .w1c, 0x0, 0x3⟩,
  ⟨0xE0108, 0x20, 6, 0x0, 1, .ro, 0x0, 0x0⟩,
  ⟨0xE010C, 0x20, 6, 0x0, 1, .ro, 0x0, 0x0⟩,
  ⟨0xE0400, 0x80, 6, 0x10, 8, .cw, 0x0, 0xFFF1FFF⟩,
  ⟨0xE0404, 0x80, 6, 0x10, 8, .ro, 0x0, 0x0⟩,
  ⟨0xE0408, 0x80, 6, 0x10, 8, .ro, 0x0, 0x0⟩,
  ⟨0xE040C, 0x80, 6, 0x10, 8, .ro, 0x0, 0x0⟩,
  ⟨0xE4000, 0x1000, 6, 0x4, 1024, .ro, 0x0, 0x0⟩]

/-- The register banks of the DAC window. -/
def regBanksDac : List RegBank := [
  ⟨0xF0000, 0x0, 1, 0x0, 1, .ro, 0x0, 0x0⟩,
  ⟨0xF0100, 0x20, 16, 0x0, 1, .cw, 0x100, 0xFFFF3⟩,
  ⟨0xF0104, 0x20, 16, 0x0, 1, .d, 0x0, 0xFFFF⟩,
  ⟨0xF0108, 0x20, 16, 0x0, 1, .ro, 0x0, 0x0⟩,
  ⟨0xF010C, 0x20, 16, 0x0, 1, .w1c, 0x0, 0x3⟩,
  ⟨0xF0110, 0x20, 16, 0x0, 1, .ro, 0x0, 0x0⟩]

/-- The register banks of the CAL window. -/
def regBanksCal : List RegBank := [
  ⟨0x100000, 0x0, 1, 0x0, 1, .rw, 0x7, 0x7⟩,
  ⟨0x100004, 0x0, 1, 0x0, 1, .ro, 0x0, 0x0⟩,
  ⟨0x100008, 0x0, 1, 0x0, 1, .ro, 0x0, 0x0⟩,
  ⟨0x10000C, 0x0, 1, 0x0, 1, .ro, 0x0, 0x0⟩,
  ⟨0x100010, 0x0, 1, 0x0, 1, .ro, 0x0, 0x0⟩,
  ⟨0x100014, 0x0, 1, 0x0, 1, .cw, 0x100, 0x7FF⟩,
  ⟨0x100018, 0x0, 1, 0x0, 1, .ro, 0x0, 0x0⟩,
  ⟨0x10001C, 0x0, 1, 0x0, 1, .ro, 0x0, 0x0⟩,
  ⟨0x100020, 0x0, 1, 0x0, 1, .ro, 0x0, 0x0⟩,
  ⟨0x100024, 0x0, 1, 0x0, 1, .ro, 0x0, 0x0⟩,
  ⟨0x100028, 0x0, 1, 0x0, 1, .ro, 0x0, 0x0⟩,
  ⟨0x100100, 0x4, 32, 0x0, 1, .ro, 0x0, 0x0⟩]

/-- The register banks of the FLT window. -/
def regBanksFlt : List RegBank := [
  ⟨0x120000, 0x4, 14, 0x0, 1, .ro, 0x0, 0x0⟩,
  ⟨0x120040, 0x4, 14, 0x0, 1, .ro, 0x0, 0x0⟩,
  ⟨0x120080, 0x0, 1, 0x0, 1, .ro, 0x10, 0x0⟩,
  ⟨0x120084, 0x0, 1, 0x0, 1, .cw, 0x30A01, 0xFFF01⟩,
  ⟨0x120088, 0x0, 1, 0x0, 1, .ro, 0x0, 0x0⟩,
  ⟨0x12008C, 0x0, 1, 0x0, 1, .ro, 0x0, 0x0⟩,
  ⟨0x120090, 0x0, 1, 0x0, 1, .ro, 0x0, 0x0⟩,
  ⟨0x120400, 0x4, 423, 0x0, 1, .cw, 0x0, 0x7⟩]

/-- The register banks of the TWN window. -/
def regBanksTwn : List RegBank := [
  ⟨0x130000, 0x0, 1, 0x0, 1, .cw, 0x3200, 0xFF01⟩,
  ⟨0x130004, 0x0, 1, 0x0, 1, .ro, 0x0, 0x0⟩,
  ⟨0x130008, 0x0, 1, 0x0, 1, .ro, 0x1, 0x0⟩,
  ⟨0x13000C, 0x0, 1, 0x0, 1, .ro, 0x0, 0x0⟩,
  ⟨0x130010, 0x0, 1, 0x0, 1, .ro, 0x0, 0x0⟩,
  ⟨0x130014, 0x0, 1, 0x0, 1, .ro, 0x0, 0x0⟩,
  ⟨0x130018, 0x0, 1, 0x0, 1, .ro, 0x0, 0x0⟩,
  ⟨0x13001C, 0x0, 1, 0x0, 1, .ro, 0x0, 0x0⟩,
  ⟨0x130020, 0x0, 1, 0x0, 1, .ro, 0x0, 0x0⟩,
  ⟨0x130024, 0x0, 1, 0x0, 1, .ro, 0x0, 0x0⟩]

/-- The register banks of the MEM window. -/
def regBanksMem : List RegBank := [
  ⟨0x30000, 0x0, 1, 0x0, 1, .rw, 0x1, 0x1⟩,
  ⟨0x30004, 0x0, 1, 0x0, 1, .ro, 0x0, 0x0⟩,
  ⟨0x30008, 0x0, 1, 0x0, 1, .cw, 0x18, 0xFF⟩,
  ⟨0x30010, 0x0, 1, 0x0, 1, .ro, 0x0, 0x0⟩,
  ⟨0x30014, 0x0, 1, 0x0, 1, .ro, 0x0, 0x0⟩,
  ⟨0x30018, 0x0, 1, 0x0, 1, .ro, 0x0, 0x0⟩,
  ⟨0x30100, 0x40, 2, 0x0, 1, .ro, 0x0, 0x0⟩,
  ⟨0x30104, 0x40, 2, 0x0, 1, .ro, 0x0, 0x0⟩,
  ⟨0x30108, 0x40, 2, 0x0, 1, .ro, 0x0, 0x0⟩,
  ⟨0x3010C, 0x40, 2, 0x0, 1, .ro, 0x0, 0x0⟩,
  ⟨0x30110, 0x40, 2, 0x0, 1, .ro, 0x0, 0x0⟩,
  ⟨0x30114, 0x40, 2, 0x0, 1, .ro, 0x0, 0x0⟩,
  ⟨0x30118, 0x40, 2, 0x0, 1, .ro, 0x0, 0x0⟩]

/-- The register banks of the BMX window. -/
def regBanksBmx : List RegBank := [
  ⟨0x20000, 0x0, 1, 0x0, 1, .cw, 0x100, 0x1FF⟩,
  ⟨0x20004, 0x0, 1, 0x0, 1, .ro, 0x0, 0x0⟩,
  ⟨0x20100, 0x10, 13, 0x0, 1, .ro, 0x0, 0x0⟩,
  ⟨0x20104, 0x10, 13, 0x0, 1, .ro, 0x0, 0x0⟩,
  ⟨0x20200, 0x10, 14, 0x0, 1, .ro, 0x0, 0x0⟩,
  ⟨0x20204, 0x10, 14, 0x0, 1, .ro, 0x0, 0x0⟩]

/-- Every register bank of BAR0, by window (R13). -/
def regBanks (window : Nat) : List RegBank :=
  match window with
  | 0 => regBanksCpx
  | 1 => regBanksHst
  | 2 => regBanksBmx
  | 3 => regBanksMem
  | 4 => regBanksLpc
  | 5 => regBanksPlm
  | 6 => regBanksElk
  | 7 => regBanksRtp
  | 8 => regBanksTrn
  | 9 => regBanksTbu
  | 10 => regBanksCln
  | 11 => regBanksCmu
  | 12 => regBanksPwm
  | 13 => regBanksGdp
  | 14 => regBanksAdc
  | 15 => regBanksDac
  | 16 => regBanksCal
  | 17 => regBanksThs
  | 18 => regBanksFlt
  | 19 => regBanksTwn
  | _ => []

end Sys2Proof.Machine
end

