-- ==== Sys2Proof/Machine/Flags.lean ====
section
/-! DEFINITION. Status codes, header flags and register fields: the bit computations that the meanings share. -/

namespace Sys2Proof.Machine

/-- Status DONE (Table 2-6). -/
def St.done : Nat := 0x00
/-- Status ACCEPTED (Table 2-6). -/
def St.accepted : Nat := 0x01
/-- Status DUPLICATE (Table 2-6). -/
def St.duplicate : Nat := 0x02
/-- Status NOT_READY (Table 2-6). -/
def St.notReady : Nat := 0x03
/-- Status BAD_PARAM (Table 2-6). -/
def St.badParam : Nat := 0x04
/-- Status BUSY (Table 2-6). -/
def St.busy : Nat := 0x05
/-- Status NO_SLUICE (Table 2-6). -/
def St.noSluice : Nat := 0x06
/-- Status NOT_ACTIVE (Table 2-6). -/
def St.notActive : Nat := 0x07
/-- Status CONFLICT (Table 2-6). -/
def St.conflict : Nat := 0x08
/-- Status LATE (Table 2-6). -/
def St.late : Nat := 0x09
/-- Status TOO_LATE (Table 2-6). -/
def St.tooLate : Nat := 0x0A
/-- Status REFUSED (Table 2-6). -/
def St.refused : Nat := 0x0B
/-- Status INELIGIBLE (Table 2-6). -/
def St.ineligible : Nat := 0x0C
/-- Status INTERNAL (Table 2-6). -/
def St.internal : Nat := 0x0D

/-- The transient refusals of R45: they are not recorded in the replay window. -/
def transient (st : Nat) : Bool := st = St.notReady || st = St.busy

/-- `strict` (Table 2-2). -/
def flagStrict (flags : BitVec 16) : Bool := bit flags.toNat 0
/-- `fence` (Table 2-2). -/
def flagFence (flags : BitVec 16) : Bool := bit flags.toNat 1
/-- `check_only` (Table 2-2). -/
def flagCheckOnly (flags : BitVec 16) : Bool := bit flags.toNat 2
/-- `no_interim` (Table 2-2). -/
def flagNoInterim (flags : BitVec 16) : Bool := bit flags.toNat 3
/-- `event_on_done` (Table 2-2). -/
def flagEventOnDone (flags : BitVec 16) : Bool := bit flags.toNat 4
/-- A flag of `rsvd` is set (Table 2-2, R10). -/
def flagReserved (flags : BitVec 16) : Bool := flags.toNat / 32 ≠ 0

/-- The value of a field in a register word. -/
def fieldOf (f : FieldRef) (w : Word) : Nat := (w.toNat >>> f.lo) % 2 ^ f.width

/-- The register word with a field replaced; the value is cut to the field's width. -/
def withField (f : FieldRef) (w : Word) (n : Nat) : Word :=
  BitVec.ofNat 32 (w.toNat - fieldOf f w * 2 ^ f.lo + (n % 2 ^ f.width) * 2 ^ f.lo)

/-- The largest value a field can hold. -/
def fieldMax (f : FieldRef) : Nat := 2 ^ f.width - 1

/-- The bits of `new` where `mask` has ones, those of `old` elsewhere. -/
def mergeWord (old new mask : Word) : Word := (new &&& mask) ||| (old &&& ~~~mask)

/-- The register of a bank that stands at offset `off`. -/
def RegBank.has (b : RegBank) (off : Nat) : Bool :=
  decide (b.base ≤ off) &&
    (let r := off - b.base
     let i := if b.s1 = 0 then 0 else r / b.s1
     let q := if b.s1 = 0 then r else r % b.s1
     let j := if b.s2 = 0 then 0 else q / b.s2
     let z := if b.s2 = 0 then q else q % b.s2
     decide (i < b.n1) && decide (j < b.n2) && decide (z = 0))

/-- The bank of the register at a BAR0 offset; none where the offset holds no register (R11). -/
def regBankAt (off : Nat) : Option RegBank :=
  if off % 4 = 0 then (regBanks (off / 0x10000)).find? (fun b => b.has off) else none

/-- Default class and floor of a fault source, and whether it is an event source (Table 16-1). -/
def faultDefault (s : Nat) : Nat × Nat × Bool :=
  if s < 32 then (1, 0, false)
  else if s < 96 then (1, 0, true)
  else if s < 128 then (1, 0, false)
  else if s < 160 then (0, 0, true)
  else if s < 208 then (1, 0, true)
  else if s < 224 then (1, 0, false)
  else if s < 240 then (1, 0, true)
  else if s < 248 then (0, 0, true)
  else if s < 253 then (3, 0, false)
  else if s = 253 then (1, 0, false)
  else if s = 254 then (0, 0, false)
  else if s = 255 then (1, 0, true)
  else if s < 268 then (1, 0, false)
  else if s < 279 then (1, 0, true)
  else if s < 295 then (1, 0, false)
  else if s = 295 then (1, 0, true)
  else if s = 296 then (1, 0, false)
  else if s < 299 then (1, 1, false)
  else if s = 299 then (1, 1, true)
  else if s = 300 then (1, 1, false)
  else if s = 301 then (1, 1, true)
  else if s = 302 then (5, 5, false)
  else if s = 303 then (1, 0, false)
  else if s = 304 then (0, 0, false)
  else if s = 305 then (1, 0, false)
  else if s < 311 then (0, 0, true)
  else if s < 320 then (0, 0, false)
  else if s < 348 then (1, 0, false)
  else if s < 376 then (5, 3, false)
  else if s < 404 then (1, 0, false)
  else if s < 412 then (5, 4, false)
  else if s = 412 then (3, 1, false)
  else if s < 416 then (1, 0, false)
  else if s < 419 then (4, 1, true)
  else (1, 0, false)

/-- Masters with a path to target `t` of the bus matrix, bit `m` each (Table 19-3). -/
def bmxPaths (t : Nat) : Nat :=
  match t with
  | 0 => 0x459 | 1 => 0x001 | 2 => 0x161 | 3 => 0x809 | 4 => 0x4A1 | 5 => 0x005 | 6 => 0x609
  | 7 => 0x401 | 8 => 0x1101 | 9 => 0x963 | 10 => 0x11E1 | 11 => 0x005 | 12 => 0x1003 | 13 => 0x1101
  | _ => 0

/-- Under and over limits of a monitored rail in mV, magnitudes (Table 18-3). -/
def railLimits (r : Nat) : Nat × Nat :=
  match r with
  | 0 | 1 => (690, 830) | 2 | 3 => (780, 940) | 4 => (1100, 1320) | 5 => (1030, 1200) | 6 => (1650, 1980)
  | 7 => (3000, 3630) | 8 => (4600, 5500) | 9 | 10 => (11400, 16500) | 11 => (11000, 18900)
  | _ => (0, 0)

/-- The reset value of the register at a BAR0 offset (R68); 0 where the offset holds none (R11). The registers whose
value the chapters give by a table: FLT.CLASS (Table 16-1), THS.SUP_LIM (Table 18-3), BMX.T_PATHS (Table 19-3), and
HST.RESET_CAUSE (Table 3-7). -/
def regReset (off : Nat) : Word :=
  if off = R.hstResetCause then 1
  else if 0x120400 ≤ off ∧ off < 0x120400 + 423 * 4 ∧ off % 4 = 0 then
    let (c, f, k) := faultDefault ((off - 0x120400) / 4)
    BitVec.ofNat 32 (c + 8 * f + 64 * b2n k)
  else if 0x110304 ≤ off ∧ off < 0x110304 + 12 * 16 ∧ (off - 0x110304) % 16 = 0 then
    let (u, o) := railLimits ((off - 0x110304) / 16)
    BitVec.ofNat 32 (u + 65536 * o)
  else if 0x20204 ≤ off ∧ off < 0x20204 + 14 * 16 ∧ (off - 0x20204) % 16 = 0 then
    BitVec.ofNat 32 (bmxPaths ((off - 0x20204) / 16))
  else match regBankAt off with
    | some b => b.reset
    | none => 0

end Sys2Proof.Machine
end

