-- ==== Sys2Proof/Machine/TypesCvt.lean ====
section
/-! DEFINITION. Plain data of the converters (chapter 14). -/

namespace Sys2Proof.Machine

/-- A conversion in progress on a converter: its slot (none for an injected conversion), the input, whether bipolar,
the hold instant and its trigger, whether it was delayed, and the open command of an injected one; the reference of the pair and the
temperature that the correction of the reference rests on, as they were when its input was held. -/
structure Conv where
  slot : Option Nat
  input : Nat
  bipolar : Bool
  hold : Nat
  trig : Nat
  delayed : Bool
  unsettled : Bool
  oid : Option Nat
  dropped : Bool
  ref : Nat := 0
  temp : Option Frac := none
  deriving DecidableEq, Repr

/-- An ADC pair beside its registers: the conversions whose result has not been written, with
their converter (true is B), oldest first, when each converter is free, the pending conversion, injected
conversions that wait (command, input, bipolar, when asked), the end of reference settling, a configuration that takes
effect at a frame strobe (reference and slot words), whether firing waits for a strobe, inputs under calibration with their
job, the inputs that a job takes once the injected conversions of `calWaits` have ended (R357), and one more than the tick of each slot's last
trigger. -/
structure AdcPair where
  convs : List (Bool × Conv) := []
  freeA : Nat := 0
  freeB : Nat := 0
  pend : Option Conv := none
  injects : List (Nat × Nat × Bool × Nat) := []
  settleEnd : Nat := 0
  newCfg : Option (Nat × List (Nat × Nat)) := none
  waitStrobe : Bool := false
  calInputs : List Nat := []
  calOid : Option Nat := none
  calNext : List Nat := []
  calWaits : List Nat := []
  fired : Table Nat := []
  deriving DecidableEq, Repr

/-- The ADC beside its registers. -/
structure Adc where
  pairs : Table AdcPair := []
  deriving DecidableEq, Repr

/-- A span change under way (R364): the new span and divider, its command, and how far it has come: 0 waits for the
tick, 1 at the safe value, 2 relay settled, 3 safe value of the new span applied; 4 the relay has switched with the channel off, at tick `at_`, and
settles. -/
structure SpanChange where
  span : Nat
  div : Nat
  oid : Nat
  phase : Nat
  at_ : Nat := 0
  deriving DecidableEq, Repr

/-- A DAC channel beside its registers: its queue, when it may leave a state, a span change, a divider that takes effect
at the next tick, the deglitcher's end, the instant at which the output reached its
safe value, one more than the tick handled last, and the level in volts that the code applied last is corrected to (R373, R441). -/
structure DacCh where
  queue : List Nat := []
  stateAt : Nat := 0
  change : Option SpanChange := none
  divDue : Option (Nat × Nat) := none
  holdEnd : Nat := 0
  safeAt : Nat := 0
  tickAt : Nat := 0
  level : Frac := ⟨0, 1⟩
  deriving DecidableEq, Repr

/-- The DAC beside its registers, with the DAC_ENABLE disables that wait (command and channels). -/
structure Dac where
  chans : Table DacCh := []
  drains : List (Nat × Nat) := []
  deriving DecidableEq, Repr

end Sys2Proof.Machine
end

