-- ==== Sys2Proof/Machine/TypesElk.lean ====
section
/-! DEFINITION. Plain data of the element link (chapter 10) and of the placement manager (chapter 09). -/

namespace Sys2Proof.Machine

/-- A CTRL record whose RESP has not arrived (R255): number, operation and operand bytes, when it was last sent, and
how often it was resent. -/
structure CtrlOut where
  rseq : Nat
  op : Nat
  first : Nat
  count : Nat
  sent : Nat
  retries : Nat
  deriving DecidableEq, Repr

/-- One element link beside its registers: its CTRL numbers, the ECHO delays measured (state 3), the good frames in a
row (state 4), the channels read back (state 5), the parts of the frame that have arrived or are lost, the frames
without a valid part, the frames masked in a row, whether the link is ready for the frame and since when, the instant at which training is retried,
the PIC temperature as a second ended, the instant of that, and whether the temperature had fallen in it (R229), and the bracket left last (R140). `unread` has the channels whose code a claim has still to read back (R425). `parity` has, for each
part, the parity of the frame whose samples it brought last (R17); `fastOpen` the channels whose closing FASTUP has not come in, with the instant of their last sample (R251). `everUp`: the link has been up since the last cold start (R80). -/
structure Link where
  rseq : Nat := 0
  ctrls : List CtrlOut := []
  echoes : List Nat := []
  good : Nat := 0
  read : Nat := 0
  gotParts : Nat := 0
  lostParts : Nat := 0
  silent : Nat := 0
  masked : Nat := 0
  ready : Bool := false
  retryAt : Option Nat := none
  refused : Bool := false
  channels : Nat := 0
  tempWas : Int := 0
  tempAt : Nat := 0
  falling : Bool := false
  leftBracket : Nat := 0
  serial : Option Nat := none
  everUp : Bool := false
  unread : Nat := 0
  readyAt : Nat := 0
  parity : Nat := 0
  fastOpen : List (Nat × Nat) := []
  deriving DecidableEq, Repr

/-- The element links beside their registers. -/
structure Elk where
  links : Table Link := []
  deriving DecidableEq, Repr

/-- A pin (R232, R233): element, engine, block or 0xFF, and whether it is broken or not yet in force. -/
structure Pin where
  el : Nat
  engine : Nat
  block : Nat
  broken : Bool
  due : Bool
  deriving DecidableEq, Repr

/-- A loop that moves at a migration step (R223): element, engine and block it moves to, the repair it belongs to. -/
structure Migration where
  el : Nat
  engine : Nat
  block : Nat
  repair : Option Nat
  deriving DecidableEq, Repr

/-- The placement manager beside its registers: pins, hints by element (Table 9-3), migrations prepared in order, the
repairs that end with them (number, slot, loops), blocks bad at the last review, restores requested (element
and frame), loops unplaced with their cause, and the instants of the loops migrated in the last second. -/
structure Plm where
  pins : List Pin := []
  hints : Table Nat := []
  steps : List Migration := []
  repairs : List (Nat × Nat × Nat) := []
  bad : Nat := 0
  worst : Nat := 23
  restores : List (Nat × Nat) := []
  unplaced : List (Nat × Nat) := []
  moved : List (Nat × Nat) := []
  deriving DecidableEq, Repr

end Sys2Proof.Machine
end

