-- ==== Sys2Proof/Machine/TypesFlt.lean ====
section
/-! DEFINITION. Plain data of the fault collector (chapter 16), of the thermal and supply supervision (chapter 18), of
the memory system (chapter 19) and of the pins. -/

namespace Sys2Proof.Machine

/-- The fault collector beside its registers: until when FAULT_O must stay asserted, the FAULT_O_RELEASE commands that wait,
whether ALIVE_P has toggled, whether step 1 of device safe acted, and whether its step 5 has silenced the links (R392). -/
structure Flt where
  holdUntil : Nat := 800000
  release : List Nat := []
  silent : Bool := false
  aliveOnce : Bool := false
  handedOver : Bool := false
  deriving DecidableEq, Repr

/-- One temperature sensor: the tick of its last reading, its readings of the rate window, newest first (R435), since when
a suspect reads within 4 °C of its neighbours (R434), and since when a fast sensor reads below its lower bound (R433). -/
structure Sensor where
  readAt : Nat := 0
  hist : List (Nat × Int) := []
  goodFrom : Option Nat := none
  coolFrom : Option Nat := none
  deriving DecidableEq, Repr

/-- One supply rail: the tick at which it last came back within its limits. -/
structure Rail where
  okFrom : Nat := 0
  deriving DecidableEq, Repr

/-- The temperatures in °C on which the corrections of R441 rest: of the RC oscillator and the sensors clock derived from it, the ADC internal
reference, the DAC span references, and the PWM delay lines; none before the named sensor has delivered a reading. -/
structure Comp where
  clock : Option Frac := none
  adcRef : Option Frac := none
  dacRef : Option Frac := none
  lines : Option Frac := none
  deriving DecidableEq, Repr

/-- The thermal and supply supervisor beside its registers. `target` is the throttle level before the cap of R439, `belowFrom`
since when T lies 2 °C below the threshold of the step being left, `secondsFrom` since when the level has been above 0 and
`secondsLeft` the ticks of earlier times that make no whole second; `dwellFrom` is since when economy mode may end (R27); `comp` is what the
corrections of R441 rest on. -/
structure Ths where
  sensors : Table Sensor := []
  rails : Table Rail := []
  target : Nat := 0
  belowFrom : Option Nat := none
  secondsFrom : Nat := 0
  secondsLeft : Nat := 0
  dwellFrom : Option Nat := none
  lvVolts : Int := 0
  lvLow : Bool := false
  comp : Comp := {}
  deriving DecidableEq, Repr

/-- A channel's patrol scrubber (R451): how far it had come at tick `since`, from which it runs on; none while it stands. -/
structure Scrub where
  base : Nat := 0
  since : Option Nat := none
  deriving DecidableEq, Repr

/-- What drives an output pin (Table 3-2). -/
inductive Drive where
  | highZ
  | undriven
  | driven
  deriving DecidableEq, Repr

/-- How a PCIe configuration request is answered (R74): not at all, with Configuration Request Retry Status, or served. -/
inductive ConfigAnswer where
  | silent
  | retry
  | served
  deriving DecidableEq, Repr

/-- The memory system and the device's pins beside their registers. `powered`: supply group 1 is within tolerance; `porst`:
PORST_N is high; `brownOut`: a brown-out holds the device in reset (R444); `jtagIr`: the JTAG instruction in force (0 BYPASS,
1 IDCODE, 2 SAMPLE/PRELOAD, 3 EXTEST; R471). `ddr` holds what the harvest engine has written to the
harvest region of DDR5 (R195, R448): address and byte, addresses rising. -/
structure Mem where
  brownOut : Bool := false
  powered : Bool := true
  porst : Bool := true
  refLost : Bool := false
  jtagIr : Nat := 1
  ddr : List (Nat × Byte) := []
  scrub : Table Scrub := []
  deriving DecidableEq, Repr

end Sys2Proof.Machine
end

