-- ==== Sys2Proof/Machine/TypesPwm.lean ====
section
/-! DEFINITION. Plain data of the LV stage (chapter 13): legs, carriers and their latches. -/

namespace Sys2Proof.Machine

/-- The raw signal at one instant (R318): its level, the tick of its last change, and that of the change before it. -/
structure RawSignal where
  level : Bool := false
  edge : Nat := 0
  prev : Nat := 0
  deriving DecidableEq, Repr

/-- One half-bridge leg beside its registers. `start` is the tick of its period start; `half` says that the
mid-period boundary of this period lies behind; `high` is the raw high time in force after R322, `rawFrom` the tick from which it shapes
the raw signal and `rawWas` the signal as it was until then; `commits` the full
commit count of R326, `perAt` and `cmpAt` the counts recorded with the staged values; `pendingAt` the tick at which
a commit was registered (R324), `pendingLate` that of one which came too late for the same boundary; `realign` the tick at which the next
period of a group leg starts (R328); `holdHi` and `holdLo` the levels of the outputs while the leg does not run (R338); `bstFrom` the tick at
which a bootstrap lockout ended (R333); `trim` is the delay-line trim in force (R441). -/
structure Leg where
  start : Nat := 0
  half : Bool := false
  high : Nat := 0
  rawFrom : Nat := 0
  rawWas : RawSignal := {}
  refreshed : Bool := false
  commits : Nat := 0
  perAt : Nat := 0
  cmpAt : Nat := 0
  perNew : Bool := false
  cmpNew : Bool := false
  pendingAt : Option Nat := none
  pendingLate : Option Nat := none
  chargeEnd : Nat := 0
  realign : Option Nat := none
  holdHi : Bool := false
  holdLo : Bool := false
  holdHiFrom : Nat := 0
  holdLoFrom : Nat := 0
  trgA : Option Nat := none
  trgB : Option Nat := none
  bstFrom : Nat := 0
  trim : Int := 0
  deriving DecidableEq, Repr

/-- The LV stage beside its registers: legs, LEG_ENABLE commands that wait (open command, leg mask), disables that
wait, the tick at which DRV_EN fell, the last pulse of each trigger line, the ramp time of the LV reference (R331), and the levels at which
TRIP_IN[3:0] have stood for their filter times (R337). -/
structure Pwm where
  legs : Table Leg := []
  enables : List (Nat × Nat) := []
  disables : List (Nat × Nat) := []
  drvLowAt : Nat := 0
  gatesOff : Bool := false
  respread : Bool := false
  lineAt : Table Nat := []
  rampMs : Nat := 1
  tripPins : Nat := 0
  deriving DecidableEq, Repr

end Sys2Proof.Machine
end

