-- ==== Sys2Proof/Machine/State.lean ====
section
/-! DEFINITION. The block's state: its clock, its registers, the state of each subsystem, what it has sent, and the
queue of commands that wait. -/

namespace Sys2Proof.Machine

/-- The reasons for which the model stops: none of the block's own faults is one (they are FLT sources, R385). -/
inductive Fault where
  /-- The command names an instance that the block does not have: its operands lie outside the range of their row, so
  the command is not well formed. Raised by the meanings that take an instance number. Safe. -/
  | noSuchInstance (what : String)
  deriving DecidableEq, Repr

/-- The reasons for which a command has no meaning. -/
inductive Refusal where
  /-- The command has no meaning in the model yet; raised by an arm of `exec` only. Safe. -/
  | notModelled (mnemonic : String)
  deriving DecidableEq, Repr

/-- Everything the spec gives the block: what a command acts on. `now` counts ticks of 125 ps (R318); 20 of them
are one timebase count (R15, R85). `free` counts the uses of free values and `out` records what was sent; both are
the model's own. -/
structure Dev where
  now : Nat := 0
  regs : Table Word := []
  shadow : Table Nat := []
  cpx : Cpx := {}
  hst : Hst := {}
  tbu : Tbu := {}
  twn : Twn := {}
  rtp : Rtp := {}
  trn : Trn := {}
  lpc : Lpc := {}
  cal : Cal := {}
  flt : Flt := {}
  ths : Ths := {}
  mem : Mem := {}
  pwm : Pwm := {}
  cln : Cln := {}
  cmu : Cmu := {}
  elk : Elk := {}
  plm : Plm := {}
  adc : Adc := {}
  dac : Dac := {}
  free : Nat := 0
  out : List Output := []
  deriving DecidableEq, Repr

/-- The block and the commands that wait, first in, first out. -/
structure State where
  dev : Dev
  pending : List Instr
  deriving DecidableEq, Repr

/-- The block after reset: nothing listed in any table, every register at its reset value. -/
def State.reset : State := { dev := {}, pending := [] }

end Sys2Proof.Machine
end

