-- ==== Sys2Proof/Machine/Ops.lean ====
section
/-! DEFINITION. The named operations over the block's state: the clock, registers and their fields, free values,
replies and events with their numbering (R25, R53) and delivery (R33, R38, R54, R62). -/

namespace Sys2Proof.Machine

/-- Ticks of 125 ps in one timebase count of 2.5 ns (R15). -/
def tickCount : Nat := 20
/-- Ticks in one nanosecond. -/
def tickNs : Nat := 8
/-- Ticks in one microsecond. -/
def tickUs : Nat := 8000
/-- Ticks in one millisecond. -/
def tickMs : Nat := 8000000
/-- Ticks in one second. -/
def tickS : Nat := 8000000000
/-- Ticks in one frame of 2.5 µs (R85). -/
def tickFrame : Nat := 20000

/-- The clock moved on to instant `t`, if `t` lies ahead. -/
def Dev.advance (d : Dev) (t : Nat) : Dev := { d with now := max d.now t }

/-- The timebase count (R85). -/
def Dev.count (d : Dev) : Nat := d.now / tickCount

/-- The local frame count (R86). -/
def Dev.localFrame (d : Dev) : Nat := d.now / tickFrame

/-- The pair count (R410): the local count plus the pair offset, in 64 bits. -/
def Dev.pairCount (d : Dev) : Nat := (((d.count : Int) + d.twn.offset) % (2 ^ 64 : Nat)).toNat

/-- The pair frame count, which commands, replies and events carry (R411). -/
def Dev.frame (d : Dev) : Nat := d.pairCount / 1000

/-- How far the pair count's strobes lie from the local count's, in ticks (R411). -/
def Dev.shift (d : Dev) : Nat := (d.twn.offset * 20 % 20000).toNat

/-- The first frame strobe after `t` (R85, R411). -/
def Dev.nextStrobe (d : Dev) (t : Nat) : Nat := ((t + d.shift) / tickFrame + 1) * tickFrame - d.shift

/-- The first frame strobe at or after `t` (R85, R411). -/
def Dev.strobeFrom (d : Dev) (t : Nat) : Nat := (t + d.shift + tickFrame - 1) / tickFrame * tickFrame - d.shift

/-- The part of a slewed offset, in half ns, that has been taken in once `x` half ns have run: at most 50 ppm (R88). -/
def slewDone (t : Tbu) (x : Int) : Int :=
  let m := max x 0 / 20000
  clampInt (-m) m t.slewLeft

/-- Wall time in half ns at timebase count `c`: 5 a count, with the rate correction and the slewed offset (R15, R88, R89). -/
def Tbu.wallHalf (t : Tbu) (c : Nat) : Int :=
  let x := 5 * ((c : Int) - t.wallRef)
  t.wallBase + x + x * t.wallRate / 1000000000 + slewDone t x

/-- Wall time in ns at tick `now`: that of its timebase count (R15, R88). -/
def Tbu.wallAt (t : Tbu) (now : Nat) : Int := t.wallHalf (now / tickCount) / 2

/-- Wall time in TAI ns at tick `t`, as a 64-bit number (R6). -/
def Dev.taiAt (d : Dev) (t : Nat) : Nat := (d.tbu.wallAt t % (2 ^ 64 : Nat)).toNat

/-- Wall time in TAI ns, as a 64-bit number (R6). -/
def Dev.tai (d : Dev) : Nat := d.taiAt d.now

/-- A register's word. -/
def Dev.reg (d : Dev) (off : Nat) : Word := tget regReset d.regs off

/-- A register given a word. -/
def Dev.setReg (d : Dev) (off : Nat) (w : Word) : Dev := { d with regs := tput regReset d.regs off w }

/-- A field of a register. -/
def Dev.fld (d : Dev) (f : FieldRef) : Nat := fieldOf f (d.reg f.off)

/-- A one-bit field of a register. -/
def Dev.flag (d : Dev) (f : FieldRef) : Bool := d.fld f ≠ 0

/-- A field of a register given a value, cut to its width. -/
def Dev.setFld (d : Dev) (f : FieldRef) (n : Nat) : Dev := d.setReg f.off (withField f (d.reg f.off) n)

/-- A one-bit field set or cleared. -/
def Dev.setFlag (d : Dev) (f : FieldRef) (v : Bool) : Dev := d.setFld f (b2n v)

/-- A whole register read as a number. -/
def Dev.regN (d : Dev) (off : Nat) : Nat := (d.reg off).toNat

/-- A whole register given a number. -/
def Dev.setRegN (d : Dev) (off n : Nat) : Dev := d.setReg off (BitVec.ofNat 32 n)

/-- Bit `i` of a register. -/
def Dev.bitAt (d : Dev) (off i : Nat) : Bool := bit (d.regN off) i

/-- Bit `i` of a register set or cleared. -/
def Dev.setBitAt (d : Dev) (off i : Nat) (v : Bool) : Dev := d.setRegN off (setBit (d.regN off) i v)

/-- A wrapping 32-bit counter one up. -/
def Dev.bump (d : Dev) (off : Nat) : Dev := d.setRegN off (d.regN off + 1)

/-- A saturating counter field up by `n`. -/
def Dev.addSat (d : Dev) (f : FieldRef) (n : Nat) : Dev := d.setFld f (min (d.fld f + n) (fieldMax f))

/-- A saturating counter field one up. -/
def Dev.bumpSat (d : Dev) (f : FieldRef) : Dev := d.addSat f 1

/-- A fresh free value below `bound` (0 where `bound` is 0), and the state with the use counted. -/
def Dev.fresh (d : Dev) (bound : Nat) : Nat × Dev :=
  (Config.freeValue d.free % bound, { d with free := d.free + 1 })

/-- A record of something sent out. -/
def Dev.send (d : Dev) (o : Output) : Dev := { d with out := d.out ++ [o] }

/-- A bit of CPX.READY1 (Table 2-13). -/
def Dev.ready (d : Dev) (f : FieldRef) : Bool := d.flag f

/-- A direct write through BAR0: nothing arrives while BAR0 is disabled (R74, Table 2-13). -/
def Dev.direct (d : Dev) (f : Dev → Dev) : Dev := if d.flag F.cpxReady1_pcie then f d else d

/-- The `link` bit of an element link (Table 2-12). -/
def Dev.linkReady (d : Dev) (l : Nat) : Bool := d.bitAt R.cpxReady0 l

/-- The ready bit of a cell chain (Table 2-13). -/
def Dev.chainReady (d : Dev) (c : Nat) : Bool := d.bitAt R.cpxReady1 (17 + c)

/-- A requester's state; a number that was never bound has an empty window and no mask. -/
def Dev.requester (d : Dev) (n : Nat) : Requester := tget (fun _ => {}) d.cpx.requesters n

/-- A requester's state replaced. -/
def Dev.setRequester (d : Dev) (n : Nat) (r : Requester) : Dev :=
  { d with cpx := { d.cpx with requesters := tput (fun _ => {}) d.cpx.requesters n r } }

/-- A ring pair's state. -/
def Dev.ring (d : Dev) (n : Nat) : Ring := tget (fun _ => {}) d.cpx.rings n

/-- A ring pair's state replaced. -/
def Dev.setRing (d : Dev) (n : Nat) (r : Ring) : Dev :=
  { d with cpx := { d.cpx with rings := tput (fun _ => {}) d.cpx.rings n r } }

/-- An event for the host, stamped with the instant at which it occurs (R15) and numbered at the end of the row (R25). -/
def Dev.event (d : Dev) (code source : Nat) (data : Bytes) (lowConf : Bool := false) : Dev :=
  { d with cpx := { d.cpx with emissions := d.cpx.emissions ++ [.event ⟨code, source, lowConf, data, d.now, d.tai⟩] } }

/-- The reply with the instant at which its status was decided: now, unless it has been decided before (Table 2-4). -/
def Dev.decided (d : Dev) (r : Reply) : Reply := { r with time := some (r.time.getD d.tai) }

/-- A reply for the host, numbered at the end of the row (R25); with the event of R481 where it is asked for. -/
def Dev.reply (d : Dev) (r : Reply) : Dev :=
  let x := d.decided r
  let e : List Emission := if r.final && r.publish then [.reply d.now x, .done d.now x] else [.reply d.now x]
  { d with cpx := { d.cpx with emissions := d.cpx.emissions ++ e } }

/-- The reply to a packet taken from a transport. -/
def replyTo (p : Packet) (owner status : Nat) (final : Bool) (result : Bytes) : Reply :=
  { via := p.cmd.via, owner := owner, opcode := p.opcode.toNat, requester := p.cmd.requester.toNat,
    tag := p.cmd.tag.toNat, seq := p.cmd.sequence.toNat, status := status, final := final, dup := false,
    lowConf := false, result := result, desc := none, record := true, again := none,
    publish := flagEventOnDone p.cmd.flags }

/-- The order of the three groups of R25: power, optical, all others. -/
def groupRank (g : Nat) : Nat := if 7 ≤ g ∧ g ≤ 9 then 0 else if 2 ≤ g ∧ g ≤ 6 then 1 else 2

/-- The sort key of R25: timebase count, group, source number, replies before events, then sequence or code. The loss records belong
to the third group, with source 0 and code 0. -/
def Emission.sortKey : Emission → Nat × Nat × Nat × Nat × Nat
  | .reply t r => (t / tickCount, groupRank (r.opcode / 256), r.requester, 0, r.seq)
  | .event e => (e.tick / tickCount, groupRank (e.code / 256), e.source, 1, e.code)
  | .done t r => (t / tickCount, groupRank (r.opcode / 256), r.requester, 1, r.opcode / 256 * 256 + 0xF0)
  | .ringLoss t => (t / tickCount, 2, 0, 1, 0)
  | .sessionLoss t _ => (t / tickCount, 2, 0, 1, 0)

/-- `a` is numbered before `b` under R25. -/
def keyLt (a b : Nat × Nat × Nat × Nat × Nat) : Bool :=
  decide (a.1 < b.1) || (decide (a.1 = b.1) && (decide (a.2.1 < b.2.1) || (decide (a.2.1 = b.2.1) &&
    (decide (a.2.2.1 < b.2.2.1) || (decide (a.2.2.1 = b.2.2.1) && (decide (a.2.2.2.1 < b.2.2.2.1) ||
      (decide (a.2.2.2.1 = b.2.2.2.1) && decide (a.2.2.2.2 < b.2.2.2.2))))))))

/-- An emission put behind those that are numbered before or with it. -/
def insertEmission (e : Emission) : List Emission → List Emission
  | [] => [e]
  | x :: r => if keyLt e.sortKey x.sortKey then e :: x :: r else x :: insertEmission e r

/-- The emissions of a row in the order of R25; equals keep the order in which they came about. -/
def sortEmissions (l : List Emission) : List Emission := l.foldl (fun a e => insertEmission e a) []

/-- The result does not fit its buffer (R38, R40, R43), or the command has cut it short itself. -/
def Reply.truncated (r : Reply) : Bool :=
  r.cut || (match r.via, r.desc with
    | .ring _, some (_, len) => decide (len < r.result.length)
    | .ring _, none => decide (32 < r.result.length)
    | .udp _ _, _ => decide (1408 < r.result.length))

/-- `rflags` without `phase` (Table 2-5). -/
def Reply.rflags (r : Reply) : Nat := b2n r.final + 2 * b2n r.dup + 8 * b2n r.lowConf + 16 * b2n r.truncated

/-- The 32-byte reply header of Table 2-4 with `phase` 0. -/
def replyHeader (r : Reply) (rflags evseq time : Nat) : Bytes :=
  le 2 r.opcode ++ le 1 r.status ++ le 1 rflags ++ le 2 r.requester ++ le 2 r.result.length ++ le 4 r.tag ++
    le 4 r.seq ++ le 8 evseq ++ le 8 time

/-- The next event number, drawn (R53, R110). -/
def Dev.drawEvseq (d : Dev) : Nat × Dev :=
  (d.tbu.evseq, { d with tbu := { d.tbu with evseq := (d.tbu.evseq + 1) % 2 ^ 64 } })

/-- Number of slots of a ring from its `log2_slots`. -/
def Dev.slots (d : Dev) (f : FieldRef) : Nat := 2 ^ d.fld f

/-- The 64-bit address in two base registers. -/
def Dev.base (d : Dev) (lo hi : Nat) : Nat := d.regN lo + 2 ^ 32 * d.regN hi

/-- The completion ring of pair `n` has no free slot (one slot stays unused). -/
def Dev.cqFull (d : Dev) (n : Nat) : Bool :=
  (d.fld (F.cpxCqTail_slot n) + 1) % d.slots (F.cpxCqSize_log2Slots n) = d.fld (F.cpxCqHead_slot n)

/-- MSI-X vector `n` after a completion entry was written (R35). -/
def Dev.signal (d : Dev) (n : Nat) : Dev :=
  if d.flag (F.cpxRingCtrl_irqEn n) then
    if d.fld (F.cpxRingCtrl_coalesce n) = 0 then d.send (.msix n)
    else
      let r := d.ring n
      if r.unsignalled + 1 ≥ 16 then (d.setRing n { r with unsignalled := 0 }).send (.msix n)
      else d.setRing n { r with unsignalled := r.unsignalled + 1,
                                firstUnsignalled := if r.unsignalled = 0 then d.now else r.firstUnsignalled }
  else d

/-- A completion entry written to ring pair `n`, with its phase bit in `rflags` (R33). -/
def Dev.writeCq (d : Dev) (n : Nat) (entry : Bytes) : Dev :=
  let tail := d.fld (F.cpxCqTail_slot n)
  let size := d.slots (F.cpxCqSize_log2Slots n)
  let r := d.ring n
  let flags := rd entry 3 1 + 4 * b2n r.phase
  let slot := fitBytes 64 (entry.take 3 ++ le 1 flags ++ entry.drop 4)
  let d1 := d.send (.hostWrite (d.base (R.cpxCqBaseLo n) (R.cpxCqBaseHi n) + 64 * tail) slot)
  let d2 := d1.setFld (F.cpxCqTail_slot n) ((tail + 1) % size)
  let d3 := if tail + 1 = size then d2.setRing n { r with phase := !r.phase } else d2
  let d4 := if d3.cqFull n then d3.setRing n { d3.ring n with fullSince := some d3.now } else d3
  d4.signal n

/-- Ring pair `n` can take a completion entry: enabled, PCIe up, a slot free (R33, R62). -/
def Dev.cqOpen (d : Dev) (n : Nat) : Bool :=
  d.flag F.cpxReady1_pcie && !d.flag (F.cpxRingStat_dmaErr n) && !d.cqFull n

/-- A reply's entry written to its completion ring, or held in the requester's pool (R62). No reply is dropped, so the pool also takes the
replies, above 512, of commands that were taken before it was full (DESIGN CHOICE, log entry 120). -/
def Dev.putCq (d : Dev) (n owner : Nat) (entry : Bytes) : Dev :=
  let q := d.requester owner
  if q.held = [] ∧ d.cqOpen n then d.writeCq n entry
  else
    let d1 := d.setRequester owner { q with held := q.held ++ [(.ring n, entry)] }
    if q.held.length + 1 ≥ 512 then d1.setFlag (F.cpxRingStat_holdFull n) true else d1

/-- A reply's datagram sent to the source of its command (R38), or held in the requester's pool while the management port is down (R62). -/
def Dev.putUdp (d : Dev) (addr port owner : Nat) (entry : Bytes) : Dev :=
  let q := d.requester owner
  if q.held = [] ∧ d.flag F.cpxReady1_mgmt then d.send (.datagram addr port entry)
  else d.setRequester owner { q with held := q.held ++ [(.udp addr port, entry)] }

/-- A requester's held replies written as far as its ring takes them (R62). -/
def releaseHeld (n owner : Nat) : Nat → Dev → Dev
  | 0, d => d
  | fuel + 1, d =>
    let q := d.requester owner
    match q.held with
    | [] => d
    | e :: r => if d.cqOpen n then releaseHeld n owner fuel ((d.setRequester owner { q with held := r }).writeCq n e.2)
                else d

/-- The replies held for ring pair `n` written as far as it takes them (R62). -/
def Dev.releaseRing (d : Dev) (n : Nat) : Dev :=
  match (d.ring n).bound with
  | some q => releaseHeld n q (d.requester q).held.length d
  | none => d

/-- The datagrams of a list of held replies sent. -/
def sendHeld (l : List (Via × Bytes)) (d : Dev) : Dev :=
  l.foldl (fun d e => match e.1 with | .udp a p => d.send (.datagram a p e.2) | .ring _ => d) d

/-- The replies held for UDP sources sent once the management port is up (R62). -/
def Dev.releaseUdp (d : Dev) : Dev :=
  d.cpx.requesters.foldl (fun d x => (sendHeld x.2.held d).setRequester x.1 { d.requester x.1 with
    held := x.2.held.filter (fun e => match e.1 with | .udp _ _ => false | .ring _ => true) }) d

/-- The phase bit of the entry that ring pair `n` writes after `k` others (R33). -/
def Dev.cqPhaseAfter (d : Dev) (n k : Nat) : Bool :=
  (d.ring n).phase != decide ((d.fld (F.cpxCqTail_slot n) + k) / d.slots (F.cpxCqSize_log2Slots n) % 2 = 1)

/-- `rflags` of a reply as it reaches the host: on a ring with the phase of the entry that it will take (Table 2-5). -/
def Dev.fullRflags (d : Dev) (r : Reply) : Nat :=
  r.rflags + (match r.via with
    | .ring n => 4 * b2n (d.cqPhaseAfter n (d.requester r.owner).held.length)
    | .udp _ _ => 0)

/-- A numbered reply sent on its transport: the result to its descriptor (R40), the entry to the completion ring
or the datagram to its source (R38, R43). -/
def Dev.deliverReply (d : Dev) (r : Reply) (evseq time : Nat) : Dev :=
  let head := replyHeader r r.rflags evseq time
  match r.via with
  | .ring n => if 8 ≤ n then d else
    let d1 := match r.desc with
      | some (a, len) => if r.result = [] then d else d.send (.hostWrite a (r.result.take len))
      | none => d
    d1.putCq n r.owner (head ++ (if r.result.length ≤ 32 then r.result else []))
  | .udp a p => d.putUdp a p r.owner (head ++ r.result.take 1408)

/-- A replay-window entry given its latest reply (R46). -/
def recordReply (tag : Nat) (x : Recorded) : List WinEntry → List WinEntry
  | [] => []
  | e :: r => if e.tag = tag then { e with reply := some x } :: r else e :: recordReply tag x r

/-- The event entry of Table 2-8, `phase` as given. -/
def eventEntry (code source eflags evseq time : Nat) (data : Bytes) : Bytes :=
  le 2 code ++ le 2 source ++ le 1 eflags ++ le 3 0 ++ le 8 evseq ++ le 8 time ++ fitBytes 40 data

/-- Something for the host noted, to be numbered at the end of the row (R25). -/
def Dev.note (d : Dev) (e : Emission) : Dev := { d with cpx := { d.cpx with emissions := d.cpx.emissions ++ [e] } }

/-- The event ring has a free slot and takes entries. -/
def Dev.eqOpen (d : Dev) : Bool :=
  d.flag F.cpxEqSize_en && d.flag F.cpxReady1_pcie &&
    decide ((d.fld F.cpxEqTail_slot + 1) % d.slots F.cpxEqSize_log2Slots ≠ d.fld F.cpxEqHead_slot)

/-- An entry written to the event ring (R33), and vector 8 raised (R35). -/
def Dev.writeEq (d : Dev) (code source eflags evseq time : Nat) (data : Bytes) : Dev :=
  let tail := d.fld F.cpxEqTail_slot
  let size := d.slots F.cpxEqSize_log2Slots
  let entry := eventEntry code source (eflags + b2n d.cpx.eqPhase) evseq time data
  let d1 := d.send (.hostWrite (d.base R.cpxEqBaseLo R.cpxEqBaseHi + 64 * tail) entry)
  let d2 := d1.setFld F.cpxEqTail_slot ((tail + 1) % size)
  let d3 := if tail + 1 = size then { d2 with cpx := { d2.cpx with eqPhase := !d2.cpx.eqPhase } } else d2
  d3.send (.msix 8)

/-- Some requester wants group `g` at the event ring (R483). -/
def Dev.ringWants (d : Dev) (g : Nat) : Bool := d.cpx.requesters.any (fun e => bit e.2.ringMask g)

/-- The loss record of the event ring, if one is due and there is room (R54). -/
def Dev.ringLossRecord (d : Dev) : Dev :=
  if d.cpx.eqLost = 0 then d else
  if d.eqOpen then
    let (n, d1) := d.drawEvseq
    let d2 := d1.writeEq 0 0 0 n d1.tai (le 4 d.cpx.eqLost)
    { d2 with cpx := { d2.cpx with eqLost := 0 } }
  else d

/-- The loss record of a session, if one is due (R54). -/
def Dev.sessionLossRecord (d : Dev) (s : Session) : Dev :=
  if s.lost = 0 ∨ !d.flag F.cpxReady1_mgmt then d else
  let (n, d1) := d.drawEvseq
  let d2 := d1.send (.datagram s.addr s.port (eventEntry 0 0 0 n d1.tai (le 4 s.lost)))
  let l := d2.cpx.sessions.map (fun x => if x.number = s.number then { x with lost := 0 } else x)
  { d2 with cpx := { d2.cpx with sessions := l } }

/-- A numbered event at one session that subscribes to its group. -/
def deliverToSession (code source eflags evseq time : Nat) (data : Bytes) (d : Dev) (s : Session) : Dev :=
  if d.flag F.cpxReady1_mgmt && decide (s.lost = 0) then d.send (.datagram s.addr s.port (eventEntry code source eflags evseq time data))
  else
    let l := d.cpx.sessions.map (fun x => if x.number = s.number then { x with lost := x.lost + 1 } else x)
    { d with cpx := { d.cpx with sessions := l } }

/-- The sessions whose own mask has group `g` (R483). -/
def Dev.sessionsWanting (d : Dev) (g : Nat) : List Session :=
  d.cpx.sessions.filter (fun s => bit (d.requester s.requester).ownMask g)

/-- An event numbered and delivered to every destination that subscribes to its group (R53, R54, R483). Where a destination still owes its
loss record, the event is lost there too, since no event goes ahead of that record. -/
def Dev.deliverEvent (d : Dev) (code source : Nat) (lowConf : Bool) (time : Nat) (data : Bytes) : Dev :=
  let g := code / 256
  let (n, d1) := d.drawEvseq
  let fl := 2 * b2n lowConf
  let d2 := if d1.ringWants g then
      (if d1.eqOpen && d1.cpx.eqLost = 0 then d1.writeEq code source fl n time data
       else ({ d1 with cpx := { d1.cpx with eqLost := d1.cpx.eqLost + 1 } }).bump R.cpxEqLost)
    else d1
  (d2.sessionsWanting g).foldl (deliverToSession code source fl n time data) d2

/-- A reply numbered, kept in the replay window and delivered (R46, R53). Answers `again` keep the recorded number
and time. -/
def Dev.numberReply (d : Dev) (r : Reply) : Nat × Dev :=
  match r.again with
  | some (n, t) => (n, d.deliverReply r n t)
  | none =>
    let (n, d1) := d.drawEvseq
    let t := r.time.getD d1.tai
    let q := d1.requester r.owner
    let x : Recorded := ⟨r.opcode, r.requester, r.seq, r.status, r.final, r.lowConf, n, t, r.result, r.cut⟩
    let d2 := if r.record && !transient r.status then
        d1.setRequester r.owner { q with window := recordReply r.tag x q.window }
      else d1
    (n, d2.deliverReply r n t)

/-- `data` of event 0xggF0 (Table 2-20), bytes [63:24]: `rflags` and `evseq` are those of the final reply. -/
def doneEventData (r : Reply) (rflags evseq : Nat) : Bytes :=
  le 2 r.opcode ++ le 1 r.status ++ le 1 rflags ++ le 4 r.tag ++ le 4 r.seq ++ le 8 evseq

/-- The emissions of a row numbered and delivered in order; `seen` keeps what the row's replies have received. -/
def deliverAll : List Emission → List Numbered → Dev → Dev
  | [], _, d => d
  | .reply _ r :: l, seen, d =>
    let (n, d1) := d.numberReply r
    deliverAll l (⟨r.requester, r.tag, n, d.fullRflags r⟩ :: seen) d1
  | .event e :: l, seen, d => deliverAll l seen (d.deliverEvent e.code e.source e.lowConf e.time e.data)
  | .done _ r :: l, seen, d =>
    let x := (seen.find? (fun x => x.requester = r.requester ∧ x.tag = r.tag)).getD ⟨0, 0, 0, 0⟩
    deliverAll l seen (d.deliverEvent (r.opcode / 256 * 256 + 0xF0) r.requester r.lowConf (r.time.getD d.tai) (doneEventData r x.rflags x.evseq))
  | .ringLoss _ :: l, seen, d => deliverAll l seen d.ringLossRecord
  | .sessionLoss _ n :: l, seen, d =>
    deliverAll l seen (match d.cpx.sessions.find? (fun s => s.number = n) with | some s => d.sessionLossRecord s | none => d)

/-- Everything the row had to say, numbered under R25 and delivered. -/
def Dev.flush (d : Dev) : Dev :=
  deliverAll (sortEmissions d.cpx.emissions) [] { d with cpx := { d.cpx with emissions := [] } }

end Sys2Proof.Machine
end

