-- ==== Sys2Proof/Machine/Route.lean ====
section
/-! DEFINITION. Route planning (R121 to R127, R131): a pure function of the map, the claimed settings and the
circuits. `orig` is the claimed setting of a switch cell (true is cross), `locked` says that a pending move changes
the element. -/

namespace Sys2Proof.Machine

/-- The record of a declared element. -/
def FabricMap.elem (m : FabricMap) (e : Nat) : Option MapElem := aget m.elems e

/-- The kind of an element (Table 5-1); 0 undeclared. -/
def FabricMap.kind (m : FabricMap) (e : Nat) : Nat := match m.elem e with | some r => r.kind | none => 0

/-- A port's record. -/
def FabricMap.port (m : FabricMap) (p : Nat) : Option MapPort := m.portTab[p]?

/-- The element link of an ID (R113). -/
def linkOf (e : Nat) : Nat := if e < 6144 then e / 192 else (e - 6144) / 32

/-- The cell and input side that an output feeds. -/
def FabricMap.fed (m : FabricMap) (cell side : Nat) : Option (Nat × Nat) :=
  match m.edges.find? (fun e => e.cell = cell) with
  | some e => if side = 0 then e.out0 else e.out1
  | none => none

/-- The cell and output that feed an input of a cell. -/
def FabricMap.feeder (m : FabricMap) (cell side : Nat) : Option (Nat × Nat) :=
  match m.edges.find? (fun e => e.out0 = some (cell, side) || e.out1 = some (cell, side)) with
  | some e => some (e.cell, if e.out0 = some (cell, side) then 0 else 1)
  | none => none

/-- The output that light entering at `side` leaves by. -/
def exitSide (side : Nat) (cross : Bool) : Nat := if cross then 1 - side else side

/-- The waves of a demand (R127). -/
def waveCount (els : List Nat) : Nat :=
  let links := (List.range 32).map (fun l => ((els.filter (fun e => linkOf e = l)).length + 3) / 4)
  links.foldl max ((els.length + 63) / 64)

/-- `a` comes before `b` in lexical order. -/
def lexLt : List Nat → List Nat → Bool
  | [], [] => false
  | [], _ :: _ => true
  | _ :: _, [] => false
  | a :: r, b :: q => decide (a < b) || (decide (a = b) && lexLt r q)

/-- Every path from a cell input to an output of a cell on which each cell takes a setting that `may` permits. -/
def pathsTo (m : FabricMap) (may : Nat → Bool → Bool) (target : Nat × Nat) :
    Nat → Nat → Nat → List (List (Nat × Bool))
  | 0, _, _ => []
  | fuel + 1, cell, side =>
    let opt := fun (x : Bool) =>
      if may cell x then
        if (cell, exitSide side x) = target then [[(cell, x)]]
        else match m.fed cell (exitSide side x) with
          | some (c, s) => (pathsTo m may target fuel c s).map (fun p => (cell, x) :: p)
          | none => []
      else []
    opt false ++ opt true

/-- The changed cells of a path. -/
def changedOf (now : Nat → Bool) (p : List (Nat × Bool)) : List (Nat × Bool) := p.filter (fun h => now h.1 ≠ h.2)

/-- The path with fewest changed cells, then the lower cell IDs stage by stage (R123, R124). -/
def bestPath (now : Nat → Bool) (l : List (List (Nat × Bool))) : Option (List (Nat × Bool)) :=
  l.foldl (fun best p => match best with
    | none => some p
    | some b =>
      let np := (changedOf now p).length
      let nb := (changedOf now b).length
      if np < nb ∨ (np = nb ∧ lexLt (p.map (fun h => h.1)) (b.map (fun h => h.1))) then some p else some b) none

/-- The present setting of a cell in a plan under way. -/
def Work.setting (orig : Nat → Bool) (w : Work) (c : Nat) : Bool :=
  match w.cur.find? (fun x => x.1 = c) with | some x => x.2 | none => orig c

/-- A cell carries a circuit that the plan takes as live. -/
def Work.carries (w : Work) (c : Nat) : Bool := w.circs.any (fun x => x.2.path.any (fun h => h.1 = c))

/-- A cell given a setting in the plan under way. -/
def Work.put (w : Work) (c : Nat) (x : Bool) : Work := { w with cur := (c, x) :: w.cur.filter (fun y => y.1 ≠ c) }

/-- Elements marked in plan order at entry `k`, each at its first change. -/
def Work.mark (w : Work) (k : Nat) (els : List Nat) : Work :=
  els.foldl (fun w e => if w.order.any (fun o => o.1 = e) then w else { w with order := w.order ++ [(e, k)] }) w

/-- Cells by ascending stage, then ID (R154). -/
def byStage (m : FabricMap) (cells : List Nat) : List Nat :=
  let stage := fun c => match m.elem c with | some r => r.stage | none => 0
  let ins := fun (acc : List Nat) c =>
    let (a, b) := acc.span (fun x => decide (stage x < stage c) || (decide (stage x = stage c) && decide (x < c)))
    a ++ c :: b
  cells.foldl ins []

/-- The switch cells of the map. -/
def FabricMap.cells (m : FabricMap) : List Nat := (m.elems.filter (fun e => e.2.kind = 1)).map (fun e => e.1)

/-- The cells reached from `cells` after `n` stages. -/
def reach (m : FabricMap) : Nat → List Nat → List Nat
  | 0, cells => cells
  | n + 1, cells =>
    reach m n ((cells.flatMap (fun c => (m.fed c 0).toList ++ (m.fed c 1).toList)).map (fun x => x.1)).eraseDups

/-- The cell reached from `c` after `n` stages along output 0. -/
def follow (m : FabricMap) : Nat → Nat → Nat
  | 0, c => c
  | n + 1, c => match m.fed c 0 with | some (x, _) => follow m n x | none => c

/-- The last-stage cells of the upper subnetwork of a network with first-stage cells `firsts`, `n` stages in the
subnetwork (check 7 of R115). -/
def upperLasts (m : FabricMap) (n : Nat) (firsts : List Nat) : List Nat :=
  let row := fun c => match m.elem c with | some r => r.row | none => 0
  match firsts with
  | [] => []
  | f :: r =>
    let c := r.foldl (fun a b => if row b < row a then b else a) f
    match m.fed c 0 with | some (x, _) => reach m (n - 1) [x] | none => []

/-- The cell after the first stage lies in the upper subnetwork. -/
def inUpper (m : FabricMap) (n : Nat) (lasts : List Nat) (c : Nat) : Bool := lasts.contains (follow m (n - 1) c)

/-- The output of a first-stage cell that leads to the upper or lower subnetwork. -/
def outToward (m : FabricMap) (n : Nat) (lasts : List Nat) (upper : Bool) (c : Nat) : Nat :=
  match m.fed c 0 with | some (x, _) => if inUpper m n lasts x = upper then 0 else 1 | none => 1

/-- The input side of a last-stage cell that comes from the upper or lower subnetwork. -/
def inFrom (m : FabricMap) (lasts : List Nat) (upper : Bool) (c : Nat) : Nat :=
  match m.feeder c 0 with | some (x, _) => if lasts.contains x = upper then 0 else 1 | none => 1

/-- Two trips share a first-stage or a last-stage cell. -/
def tripsMeet (a b : Trip) : Bool := a.inCell = b.inCell || a.outCell = b.outCell

/-- The loop of a trip: every trip tied to it, with the side each takes when the first takes `true`. -/
def growLoop : Nat → List (Trip × Bool) → List (Trip × Bool) → List Trip → List (Trip × Bool) × List Trip
  | 0, front, done, rest => (done ++ front, rest)
  | _ + 1, [], done, rest => (done, rest)
  | fuel + 1, (t, x) :: front, done, rest =>
    growLoop fuel (front ++ (rest.filter (tripsMeet t)).map (fun r => (r, !x))) (done ++ [(t, x)])
      (rest.filter (fun r => !tripsMeet t r))

/-- The settings of the outer cells of a loop under an orientation. -/
def loopCells (m : FabricMap) (n : Nat) (lasts : List Nat) (l : List (Trip × Bool)) : List (Nat × Bool) :=
  (l.flatMap (fun (t, up) =>
    [(t.inCell, decide (t.inSide ≠ outToward m n lasts up t.inCell)),
     (t.outCell, decide (inFrom m lasts up t.outCell ≠ t.outSide))])).eraseDups

/-- The side that a trip's present route takes at this level; none for the new circuit. -/
def Trip.side (m : FabricMap) (n : Nat) (t : Trip) : Option Bool :=
  match t.existing, t.present with
  | true, _ :: c :: _ => some (inUpper m n (upperLasts m n t.home) c)
  | _, _ => none

/-- The orientation of a loop (R123). -/
def orient (m : FabricMap) (now : Nat → Bool) (n : Nat) (lasts : List Nat) (l : List (Trip × Bool)) :
    List (Trip × Bool) :=
  let flip := l.map (fun x => (x.1, !x.2))
  let score := fun q => ((loopCells m n lasts q).filter (fun h => now h.1 = h.2)).length
  if score flip < score l then l
  else if score l < score flip then flip
  else
    let old := l.filter (fun x => x.1.existing)
    match old with
    | o :: r =>
      let low := r.foldl (fun a b => if b.1.id < a.1.id then b else a) o
      if (low.1.side m n).getD low.2 = low.2 then l else flip
    | [] => match l with
      | f :: r => if (r.foldl (fun a b => if b.1.inPort < a.1.inPort then b else a) f).2 then l else flip
      | [] => l

/-- Every loop of the trips, oriented; answers the trips with the subnetwork each crosses. -/
def orientAll (m : FabricMap) (now : Nat → Bool) (n : Nat) (lasts : List Nat) : Nat → List Trip → List (Trip × Bool)
  | 0, _ => []
  | _ + 1, [] => []
  | fuel + 1, t :: r =>
    let (l, rest) := growLoop (r.length + 2) [(t, true)] [] r
    orient m now n lasts l ++ orientAll m now n lasts fuel rest

/-- A trip one level further in. -/
def Trip.inner (m : FabricMap) (n : Nat) (lasts : List Nat) (t : Trip) (up : Bool) : Trip :=
  let (c, s) := (m.fed t.inCell (outToward m n lasts up t.inCell)).getD (t.inCell, 0)
  let (c2, o) := (m.feeder t.outCell (inFrom m lasts up t.outCell)).getD (t.outCell, 0)
  let hl := upperLasts m n t.home
  let mine := (t.side m n).getD up
  { t with inCell := c, inSide := s, outCell := c2, outSide := o, present := t.present.drop 1,
           home := ((t.home.filterMap (fun x => m.fed x (outToward m n hl mine x))).map (fun x => x.1)).eraseDups }

/-- The looping algorithm (R123) on a network of `stages` stages with first-stage cells `firsts`: a path per trip. -/
def looping (m : FabricMap) (now : Nat → Bool) : Nat → Nat → List Nat → List Trip → List (Nat × List (Nat × Bool))
  | 0, _, _, _ => []
  | fuel + 1, stages, firsts, trips =>
    if stages ≤ 1 then trips.map (fun t => (t.id, [(t.inCell, decide (t.inSide ≠ t.outSide))]))
    else
      let n := stages - 2
      let lasts := upperLasts m n firsts
      let sided := orientAll m now n lasts trips.length trips
      let half := fun up =>
        let next := ((firsts.filterMap (fun x => m.fed x (outToward m n lasts up x))).map (fun x => x.1)).eraseDups
        looping m now fuel n next ((sided.filter (fun x => x.2 = up)).map (fun x => x.1.inner m n lasts up))
      let subs := half true ++ half false
      sided.map (fun (t, up) =>
        let sub := match subs.find? (fun q => q.1 = t.id) with | some q => q.2 | none => []
        (t.id, (t.inCell, decide (t.inSide ≠ outToward m n lasts up t.inCell)) :: sub ++
               [(t.outCell, decide (inFrom m lasts up t.outCell ≠ t.outSide))]))

/-- The route of a new circuit in the plan under way, and the paths that step 2 of R123 gives to the circuits that
exist; none where no route exists (R123, R124). `claimed` names cells that topology 2 may not use. -/
def Work.route (m : FabricMap) (orig : Nat → Bool) (claimed : Nat → Bool) (w : Work) (id i o : Nat) :
    Option (List (Nat × Bool) × List (Nat × List (Nat × Bool))) :=
  match m.port i, m.port o with
  | some a, some b =>
    let now := w.setting orig
    if m.topology = 2 then
      let recs := m.paths.filter (fun p => p.inPort = i && p.outPort = o)
      let fits := recs.filter (fun p => p.hops.all (fun h => !claimed h.1 && (!w.carries h.1 || now h.1 = h.2)))
      match fits with
      | [] => none
      | f :: r => some ((r.foldl (fun x y => if y.rank < x.rank then y else x) f).hops, [])
    else
      let may := fun c x => if w.carries c then (m.topology = 0 && now c = x) else true
      match bestPath now (pathsTo m may (b.outCell, b.outSide) m.stages a.inCell a.inSide) with
      | some p => some (p, [])
      | none =>
        if m.topology ≠ 0 then none
        else
          let firsts := m.cells.filter (fun c => match m.elem c with | some r => r.stage = 0 | none => false)
          let trip := fun (n : Nat) (ex : Bool) (ip op : Nat) (path : List (Nat × Bool)) =>
            match m.port ip, m.port op with
            | some x, some y => [{ id := n, existing := ex, inPort := ip, inCell := x.inCell, inSide := x.inSide,
                                   outCell := y.outCell, outSide := y.outSide, present := path.map (fun h => h.1),
                                   home := firsts : Trip }]
            | _, _ => []
          let olds := w.circs.flatMap (fun (n, c) => trip n true c.inPort c.outPort c.path)
          let all := looping m now m.stages m.stages firsts (olds ++ trip id false i o [])
          match all.find? (fun q => q.1 = id) with
          | some q => some (q.2, all.filter (fun x => x.1 ≠ id))
          | none => none
  | _, _ => none

/-- A new circuit entered in the plan under way (R126): its changed cells, the VOA, then the re-routed cells. -/
def Work.addCircuit (m : FabricMap) (orig : Nat → Bool) (w : Work) (k id i o att voa : Nat) (path : List (Nat × Bool))
    (others : List (Nat × List (Nat × Bool))) : Work :=
  let now := w.setting orig
  let olds := w.circs.flatMap (fun c => c.2.path.map (fun h => h.1))
  let circs := w.circs.map (fun (n, c) => (n, match others.find? (fun q => q.1 = n) with
    | some q => { c with path := q.2 } | none => c))
  let circs2 := aput circs id ⟨2, i, o, path, true⟩
  let need := (path ++ others.flatMap (fun q => q.2)).eraseDups
  let changed := need.filter (fun h => now h.1 ≠ h.2)
  let after := fun c => circs2.any (fun x => x.2.path.any (fun h => h.1 = c))
  let idle := fun c => match m.elem c with | some r => r.idleCross | none => false
  let freed := if others = [] then [] else
    (olds.eraseDups.filter (fun c => !after c && now c ≠ idle c)).map (fun c => (c, idle c))
  let w1 := (changed ++ freed).foldl (fun w h => w.put h.1 h.2) { w with circs := circs2 }
  let mine := fun c => path.any (fun h => h.1 = c)
  let cells := (changed ++ freed).map (fun h => h.1)
  let w2 := w1.mark k (byStage m (cells.filter mine))
  let w3 := { w2 with voas := (voa, att) :: w2.voas.filter (fun v => v.1 ≠ voa), born := w2.born ++ [id],
                      used := id :: w2.used, atts := (id, att) :: w2.atts.filter (fun a => a.1 ≠ id) }
  (w3.mark k [voa]).mark k (byStage m (cells.filter (fun c => !mine c)))

/-- A set entry (R128, R131): the plan with the entry, and its circuit ID; or the status of its refusal. Status codes
as Table 2-6: 4 BAD_PARAM, 8 CONFLICT. -/
def Work.set (m : FabricMap) (orig : Nat → Bool) (claimed : Nat → Bool) (w : Work) (k i o att : Nat) :
    Except Nat (Work × Nat) :=
  if m.ports ≤ i ∨ m.ports ≤ o ∨ m.attMax < att then .error 4
  else
    let voa := match m.port o with | some p => p.outVoa | none => 0
    match w.circs.find? (fun c => c.2.inPort = i || c.2.outPort = o) with
    | some (n, c) =>
      if c.inPort = i ∧ c.outPort = o ∧ (c.state = 2 ∨ c.state = 4) then
        let w1 := { w with circs := aput w.circs n { c with own := true }, atts := (n, att) :: w.atts.filter (fun a => a.1 ≠ n) }
        if c.state = 4 then .ok (w1, n)
        else .ok ({ w1 with voas := (voa, att) :: w1.voas.filter (fun v => v.1 ≠ voa) }.mark k [voa], n)
      else .error 8
    | none =>
      if w.heldIn.contains i ∨ w.heldOut.contains o then .error 8
      else
        match (List.range 512).find? (fun n => !w.used.contains n) with
        | none => .error 8
        | some id => match w.route m orig claimed id i o with
          | none => .error 8
          | some (p, others) => .ok (w.addCircuit m orig k id i o att voa p others, id)

/-- A clear entry (R126, R130, R131). A second clear of one circuit in a batch is a CONFLICT, and BAD_PARAM where that circuit was set in the
batch (DESIGN CHOICE, log entry 58). -/
def Work.clear (m : FabricMap) (w : Work) (k id : Nat) (pending free : Bool) : Except Nat Work :=
  if pending then .error 8
  else match aget w.circs id with
    | none => .error (if free then 4 else 8)
    | some c =>
      if c.state = 1 then .error 8
      else
        let voa := match m.port c.outPort with | some p => p.outVoa | none => 0
        .ok ({ w with circs := adel w.circs id, voas := (voa, m.attMax) :: w.voas.filter (fun v => v.1 ≠ voa),
                      cleared := w.cleared ++ [id], atts := w.atts.filter (fun a => a.1 ≠ id),
                      born := w.born.filter (fun b => b ≠ id) }.mark k [voa])

/-- The plan completed (R121, R125, R127): the cells that end at another setting than they have, the circuits they
disturb, and the checks on both; on a refusal, the status and the entry that causes it. `before` is the plan before
its first entry. -/
def Work.finish (m : FabricMap) (orig : Nat → Bool) (locked : Nat → Bool) (noDisturb : Bool) (pendingClears : List Nat)
    (oldPath : Nat → List (Nat × Bool)) (w before : Work) : Except (Nat × Nat) Plan :=
  let idle := fun c => match m.elem c with | some r => r.idleCross | none => false
  let stays := (before.circs.filter (fun x => (aget w.circs x.1).isSome)).flatMap (fun x => x.2.path.map (fun h => h.1))
  let final := fun c => if w.carries c then w.setting orig c else if stays.contains c ∧ w.cur.any (fun x => x.1 = c)
    then idle c else orig c
  let entry := fun e => match w.order.find? (fun o => o.1 = e) with | some o => o.2 | none => 0
  let isVoa := fun e => w.voas.any (fun v => v.1 = e)
  let els := w.order.filterMap (fun (e, _) =>
    match w.voas.find? (fun v => v.1 = e) with
    | some v => some (e, 2, false, v.2)
    | none => if final e ≠ orig e then some (e, 1, final e, 0) else none)
  let cells := (els.map (fun x => x.1)).filter (fun e => !isVoa e)
  let low := fun (l : List Nat) => (l.map entry).foldl min 1000
  let bad := (els.map (fun x => x.1)).filter locked
  if bad ≠ [] then .error (8, low bad)
  else
    let others := (before.circs.filter (fun x => match aget w.circs x.1 with | some c => !c.own | none => false)).map
      (fun x => (x.1, x.2.state, x.2.path.map (fun h => h.1) ++ (match aget w.circs x.1 with
        | some c => c.path.map (fun h => h.1) | none => [])))
    let hit := others.filter (fun x => x.2.2.any cells.contains)
    let clr := pendingClears.filter (fun n => (oldPath n).any (fun h => cells.contains h.1))
    let on := fun (p : List Nat) => low (cells.filter p.contains)
    if clr ≠ [] then .error (8, on ((clr.flatMap oldPath).map (fun h => h.1)))
    else match hit.find? (fun x => x.2.1 = 1) with
      | some x => .error (8, on x.2.2)
      | none =>
        if noDisturb ∧ hit ≠ [] then .error (8, on (hit.flatMap (fun x => x.2.2)))
        else
          let ids := hit.map (fun x => x.1)
          let paths := (w.circs.filter (fun x => x.2.own || ids.contains x.1)).map (fun x => (x.1, x.2.path))
          .ok { elems := els, paths := paths, dist := ids, demand := els.length, waves := waveCount (els.map (fun x => x.1)) }

end Sys2Proof.Machine
end

