-- ==== Sys2Proof/Machine/CalData.lean ====
section
/-! DEFINITION. What the active calibration bank says of an element (Table 15-3, R487): codes, targets, gains, scales
and shapes. -/

namespace Sys2Proof.Machine

/-- The active bank (R370). -/
def Dev.bank (d : Dev) : Bank := if d.flag F.calStat_active then d.cal.bankB else d.cal.bankA

/-- The body of a bank's record; empty where the bank has none. -/
def Bank.body (b : Bank) (rtype rsub : Nat) : Bytes :=
  match b.recs.find? (fun r => r.rtype = rtype && r.rsub = rsub) with | some r => r.body | none => []

/-- Word `i` of an element's ELEM entry: 128 bytes per channel, 32 words each. -/
def Bank.elemWord (b : Bank) (e i : Nat) : Word :=
  BitVec.ofNat 32 (rd (b.body 2 (e / 192)) (128 * (e % 192) + 4 * i) 4)

/-- Coefficient value of word `i` of an element's entry. -/
def Bank.elemCoef (b : Bank) (e i : Nat) : Frac := coefValue (b.elemWord e i)

/-- Gain trim g. -/
def Bank.gain (b : Bank) (e : Nat) : Frac := b.elemCoef e 0
/-- Code of bar, or c_cal of a trimmer. -/
def Bank.barCode (b : Bank) (e : Nat) : Nat := (b.elemWord e 1).toNat % 65536
/-- Code of cross. -/
def Bank.crossCode (b : Bank) (e : Nat) : Nat := (b.elemWord e 2).toNat % 65536
/-- T_cal of a trimmer in 0.01 °C. -/
def Bank.tCal (b : Bank) (e : Nat) : Int := signed 16 ((b.elemWord e 2).toNat % 65536)
/-- Setpoint temperature coefficient, per °C. -/
def Bank.tempCo (b : Bank) (e : Nat) : Frac := b.elemCoef e 3
/-- Insertion loss L in dB. -/
def Bank.loss (b : Bank) (e : Nat) : Frac := b.elemCoef e 4
/-- Target k of a bracket. -/
def Bank.targetK (b : Bank) (e br : Nat) : Frac := b.elemCoef e (5 + br)
/-- Coefficient `a_j` of a VOA's calibration cubic. -/
def Bank.cubic (b : Bank) (e j : Nat) : Frac := b.elemCoef e (21 + j)

/-- Tap scale of a monitor tap of a link, and bracket tap scale (Table 15-3). -/
def Bank.tapScale (b : Bank) (l t : Nat) : Nat := rd (b.body 2 l) (192 * 128 + 8 * t) 8
/-- The link's tap scale of a bracket. -/
def Bank.bracketScale (b : Bank) (l br : Nat) : Nat := rd (b.body 2 l) (192 * 128 + 32 * 8 + 8 * br) 8

/-- A cubic at x = code / 65 536 (R487). -/
def cubicAt (a0 a1 a2 a3 : Frac) (code : Nat) : Frac :=
  let x := Frac.mk2 code 65536
  Frac.add a0 (Frac.mul x (Frac.add a1 (Frac.mul x (Frac.add a2 (Frac.mul x a3)))))

/-- The least code in `lo … hi` at which a rising function reaches `a`, by halving. -/
def leastCode (f : Nat → Frac) (a : Frac) : Nat → Nat → Nat → Nat
  | 0, lo, _ => lo
  | fuel + 1, lo, hi =>
    if hi ≤ lo then lo
    else
      let m := (lo + hi) / 2
      if Frac.le a (f m) then leastCode f a fuel lo m else leastCode f a fuel (m + 1) hi

/-- The calibrated code of a VOA for an attenuation in dB (R487). -/
def Bank.voaCode (b : Bank) (e : Nat) (a : Frac) : Nat :=
  let f := cubicAt (b.cubic e 0) (b.cubic e 1) (b.cubic e 2) (b.cubic e 3)
  if Frac.le a (b.cubic e 0) then 0
  else if Frac.lt (f 65535) a then 0xFFFF
  else leastCode f a 17 0 65535

/-- The code of a new setting (R143): bar or cross, or the code for an attenuation in 0.01 dB. -/
def Bank.settingCode (b : Bank) (e kind : Nat) (cross : Bool) (att : Nat) : Nat :=
  if kind = 2 then b.voaCode e (Frac.mk2 att 100) else if cross then b.crossCode e else b.barCode e

/-- Overshoot (Q2.14), decay (Q8.8) and length in granules of an element's shape (Table 15-3). -/
def Bank.shape (b : Bank) (e br : Nat) (rise : Bool) : Int × Nat × Nat :=
  let o := 8 * ((e % 192) * 32 + br * 2 + (if rise then 0 else 1))
  let y := b.body 3 (e / 192)
  (signed 16 (rd y o 2), rd y (o + 2) 2, rd y (o + 4) 1)

/-- Length in granules of an element's shape (R367): 4 or 5 in brackets 1 to 14, and 4, 5, 8, 12 or 16 in brackets 0 and 15. Where the
bank holds another length the greatest is taken. -/
def Bank.shapeGranules (b : Bank) (e br : Nat) (rise : Bool) : Nat :=
  let n := (b.shape e br rise).2.2
  if 1 ≤ br ∧ br ≤ 14 then (if n = 4 then 4 else 5) else if n = 4 ∨ n = 5 ∨ n = 8 ∨ n = 12 then n else 16

/-- Length in samples of an element's shape. -/
def Bank.shapeLength (b : Bank) (e br : Nat) (rise : Bool) : Nat := 8 * b.shapeGranules e br rise

/-- Sample `k` of an expanded shape of `n` samples (R367). -/
def shapeSample (past : Int) (tau n k : Nat) : Int :=
  if k + 1 ≥ n then 16384
  else clampInt (-32768) 32767
    (16384 + Frac.round (Frac.mul (Frac.ofInt (past - 16384)) (Config.decay k tau)))

/-- The samples of a shape of the library (R138, R367), as 16-bit patterns in Q2.14. -/
def Bank.library (b : Bank) (e br : Nat) (rise : Bool) : List Nat :=
  let (past, tau, _) := b.shape e br rise
  let n := b.shapeLength e br rise
  (List.range n).map (fun k => pattern 16 (shapeSample past tau n k))

/-- The code of a sample of a transition (R143): round(c0 + (c1 − c0) × s), held to 16 bits. -/
def playCode (c0 c1 : Nat) (s : Int) : Nat :=
  (clampInt 0 0xFFFF (Frac.round (Frac.mk2 ((c0 : Int) * 16384 + ((c1 : Int) - c0) * s) 16384))).toNat

/-- A cubic whose slope is nowhere negative over the code range (R487). -/
def cubicRises (a1 a2 a3 : Frac) : Bool :=
  let slope := fun (x : Frac) => Frac.add a1 (Frac.mul x (Frac.add (Frac.mul (Frac.ofInt 2) a2)
    (Frac.mul x (Frac.mul (Frac.ofInt 3) a3))))
  let top := Frac.mk2 65535 65536
  let vertex := Frac.div (Frac.neg a2) (Frac.mul (Frac.ofInt 3) a3)
  Frac.le Frac.zero (slope Frac.zero) && Frac.le Frac.zero (slope top) &&
    (a3.num = 0 || Frac.le vertex Frac.zero || Frac.le top vertex || Frac.le Frac.zero (slope vertex))

/-- The PIC temperature bracket in force on a link (R139). -/
def Dev.bracket (d : Dev) (l : Nat) : Nat := d.fld (F.trnLinkStat_bracket l)

/-- The PIC temperature last reported on a link in 0.01 °C. -/
def Dev.picTemp (d : Dev) (l : Nat) : Int := signed 16 (d.fld (F.trnLinkStat_picTemp l))

/-! ### Records of the NV store (R367) -/

/-- Body lengths that Table 15-3 fixes; none where the table leaves the length open. -/
def recLength (rtype : Nat) : Option Nat :=
  match rtype with
  | 1 => some 264 | 2 => some (192 * 128 + 32 * 8 + 16 * 8) | 3 => some (192 * 16 * 2 * 8) | 0x0F => some 12 | _ => none

/-- A record as it is stored: header, body, check word (R367, Table 15-2). -/
def recBytes (r : NvRec) : Bytes :=
  let b := le 2 0x4E56 ++ le 1 r.rtype ++ le 1 1 ++ le 4 r.body.length ++ le 4 r.rsub ++ le 4 0 ++ r.body
  b ++ le 4 (crc32c b)

/-- The sound record of a type at the head of a run of bytes, and what follows it (R367). -/
def readRec (t : Nat × Nat) (b : Bytes) : Option (NvRec × Bytes) :=
  let n := rd b 4 4
  let fits := match recLength t.1 with | some m => decide (n = m) | none => decide (n % 4 = 0)
  if rd b 0 2 = 0x4E56 ∧ rd b 2 1 = t.1 ∧ rd b 3 1 = 1 ∧ rd b 8 4 = t.2 ∧ rd b 12 4 = 0 ∧ fits = true ∧ 20 + n ≤ b.length ∧
      rd b (16 + n) 4 = crc32c (b.take (16 + n)) then
    some (⟨t.1, t.2, (b.drop 16).take n⟩, b.drop (20 + n))
  else none

end Sys2Proof.Machine
end

