-- ==== Sys2Proof/Machine/Cmds.lean ====
section
/-! DEFINITION. Commands between their first and their final reply (R44), and the replies that wait for the standby
of a twin pair (R420, R421). -/

namespace Sys2Proof.Machine

/-- Role 1 of TWN.STAT: this unit is active (R403, R414). -/
def Dev.active (d : Dev) : Bool := d.fld F.twnStat_role = 1
/-- Role 2 of TWN.STAT: this unit is the standby of a twin pair. -/
def Dev.standby (d : Dev) : Bool := d.fld F.twnStat_role = 2
/-- This unit is the active unit of a pair that is up. -/
def Dev.pairedActive (d : Dev) : Bool := d.active && d.flag F.twnStat_paired

/-- Commands that change an item of Table 17-4 (R419, R420). -/
def mirroredOpcode (op : Nat) : Bool :=
  [0x0201, 0x0202, 0x0203, 0x0205, 0x0206, 0x0302, 0x0601, 0x0602, 0x0603, 0x0701, 0x0702, 0x0703, 0x0704, 0x0705,
   0x0803].contains op

/-- Commands that write a CW register, a coefficient set or a loop binding, and the others R421 names. -/
def forwardedOpcode (op : Nat) : Bool :=
  [0x0105, 0x0201, 0x0401, 0x0402, 0x0403, 0x0703, 0x0801, 0x0901, 0x0903, 0x0904, 0x0A01, 0x0B01, 0x0E05].contains op

/-- A status under which a command has changed something. -/
def changing (st : Nat) : Bool := st = St.done || st = St.accepted || st = St.late

/-- Twin record kinds of `Output.twin`. -/
def twinMirror : Nat := 3
/-- FORWARD (Table 17-2). -/
def twinForward : Nat := 4

/-- A twin record with its CRC left to the far end: kind and fields. -/
def twinFresult : Nat := 6

/-- A MIRROR record sent to the standby (R419): its number, and the state with it counted. -/
def Dev.sendMirror (d : Dev) (fields : List Nat) : Nat × Dev :=
  let n := (d.twn.mseq + 1) % 2 ^ 32
  let twn := { d.twn with mseq := n, mirrorSent := d.twn.mirrorSent ++ [(n, fields)] }
  (n, (({ d with twn := twn }).setRegN R.twnMseq n).send (.twin twinMirror (n :: fields)))

/-- `peer` in the result of LAW_LOAD (Table 8-8, R213): 1 where the standby took the law too, 2 where it refused or did not
answer. -/
def patchPeer (ok : Bool) (r : Reply) : Reply :=
  if r.opcode = 0x0401 ∧ 30 ≤ r.result.length then
    { r with result := r.result.take 29 ++ le 1 (if ok then 1 else 2) ++ r.result.drop 30 }
  else r

/-- A reply given under R420 and R421: on the active unit of a pair the reply of a mirrored command waits for MACK,
the final reply of a forwarded command for FRESULT, and that of a CAL_RUN whose optical records went to the standby for its answer, up to
50 ms (R378); every other reply goes out at once. The instant in the reply is that of the
decision, which is now (Table 2-4). -/
def Dev.answer (d : Dev) (reply : Reply) : Dev :=
  let r := d.decided reply
  match if r.final then d.twn.fwdSent.find? (fun e => e.owner = r.owner && e.tag = r.tag) else none with
  | some e =>
    let d1 := { d with twn := { d.twn with fwdSent := d.twn.fwdSent.filter (fun x => x.number ≠ e.number) } }
    (match e.status with
      | some st => d1.reply (patchPeer (changing st) r)
      | none => if d.pairedActive && changing r.status && decide (d.now < e.due) then
          { d1 with twn := { d1.twn with waitForward := d1.twn.waitForward ++ [⟨e.number, e.due, r⟩] } }
        else d1.reply (patchPeer false r))
  | none =>
    match if r.final && r.opcode = 0x0A01 && d.pairedActive && changing r.status then d.cal.mirrorNo else none with
    | some (n, due) =>
      if d.twn.mirrorSent.any (fun m => m.1 = n) && decide (d.now < due) then
        { d with twn := { d.twn with waitMack := d.twn.waitMack ++ [⟨n, due, r⟩] } }
      else d.reply r
    | none =>
    if d.pairedActive && changing r.status && mirroredOpcode r.opcode then
      let (n, d1) := d.sendMirror [r.opcode, r.requester, r.tag, r.status]
      { d1 with twn := { d1.twn with waitMack := d1.twn.waitMack ++ [⟨n, d.now + 20 * tickUs, r⟩] } }
    else d.reply r

/-- The replies that wait for the standby (R420, R421). -/
def Dev.standbyWaits (d : Dev) : List Reply := (d.twn.waitMack ++ d.twn.waitForward).map (fun w => w.reply)

/-- The open command with number `oid`. -/
def Dev.findOpen (d : Dev) (oid : Nat) : Option OpenCmd := d.cpx.opened.find? (fun o => o.oid = oid)

/-- The schedule entries of command `oid` released (R104). -/
def Dev.releaseSched (d : Dev) (oid : Nat) : Dev :=
  { d with tbu := { d.tbu with sched := d.tbu.sched.filter (fun e => e.2.oid ≠ oid) } }

/-- A ring command's result descriptor (R40): address and buffer length. -/
def descOf (p : Bytes) : Nat × Nat := (rd p 0 8, rd p 8 4)

/-- Commands marked R in Table 2-7. -/
def resultOpcode (op : Nat) : Bool :=
  [0x0101, 0x0204, 0x0206, 0x0301, 0x0303, 0x0405, 0x0504, 0x0706, 0x0B04, 0x0C03, 0x0E01, 0x0E03, 0x0F04].contains op

/-- The descriptor that the reply to a packet uses: a ring command marked R that is long enough to carry one. -/
def descFor (p : Packet) : Option (Nat × Nat) :=
  match p.cmd.via with
  | .ring _ => if resultOpcode p.opcode.toNat && decide (16 ≤ p.cmd.payload.length) then some (descOf p.cmd.payload) else none
  | .udp _ _ => none

/-- What a command that is not open here says at its end: a forwarded one answers its FRESULT (R421), one inherited from the
peer publishes event 0x0C05 (R428), any other has had its final reply. -/
def Dev.finishElsewhere (d : Dev) (oid status : Nat) : Dev :=
  match d.twn.fwdOpen.find? (fun x => x.1 = oid), d.twn.inherited.find? (fun x => x.1 = oid) with
  | some (_, n), _ =>
    ({ d with twn := { d.twn with fwdOpen := d.twn.fwdOpen.filter (fun x => x.1 ≠ oid), fstatus := status } }).send (.twin twinFresult [n, status])
  | none, some (_, tag, entry) =>
    ({ d with twn := { d.twn with inherited := d.twn.inherited.filter (fun x => x.1 ≠ oid) } }.releaseSched oid).event 0x0C05 entry
      (le 4 tag ++ le 1 status)
  | none, none => d

/-- The final reply to an open command; its schedule entries are released (R44, R104). `cut` says that the command cut its
result short. -/
def Dev.finishCut (d : Dev) (oid status : Nat) (result : Bytes) (cut : Bool) : Dev :=
  match d.findOpen oid with
  | none => d.finishElsewhere oid status
  | some o =>
    let d1 := { d with cpx := { d.cpx with opened := d.cpx.opened.filter (fun x => x.oid ≠ oid) } }
    let r := { replyTo o.packet o.owner status true result with lowConf := o.lowConf, desc := descFor o.packet, cut := cut }
    (d1.releaseSched oid).answer r

/-- The final reply to an open command with its whole result. -/
def Dev.finish (d : Dev) (oid status : Nat) (result : Bytes) : Dev := d.finishCut oid status result false

/-- An open command marked `low_conf` (Table 2-5). -/
def Dev.markLowConf (d : Dev) (oid : Nat) : Dev :=
  let l := d.cpx.opened.map (fun o => if o.oid = oid then { o with lowConf := true } else o)
  { d with cpx := { d.cpx with opened := l } }

/-- Several commands finished with one status. -/
def finishAll (status : Nat) (l : List Nat) (d : Dev) : Dev := l.foldl (fun d o => d.finish o status []) d

end Sys2Proof.Machine
end

