-- ==== Sys2Proof/Machine/LpcOps.lean ====
section
/-! DEFINITION. Hold loops as other subsystems see them: their records, starts (R186), suspensions (Table 7-3) and
coefficient sets (R172). -/

namespace Sys2Proof.Machine

/-- A loop's record (R169). -/
def Dev.loop (d : Dev) (e : Nat) : Loop := tget (fun _ => {}) d.lpc.loops e
/-- A loop's record replaced. -/
def Dev.setLoop (d : Dev) (e : Nat) (x : Loop) : Dev :=
  { d with lpc := { d.lpc with loops := tput (fun _ => {}) d.lpc.loops e x } }

/-- The loop record of law 8 stands behind those of the elements. -/
def coolerLoop : Nat := 8192

/-- The active copy of a coefficient set; empty until it is first written (R172). -/
def Dev.coefSet (d : Dev) (n : Nat) : List Word := tget (fun _ => []) d.lpc.sets n

/-- Coefficient `j` of a set. -/
def Dev.coef (d : Dev) (n j : Nat) : Frac := coefValue ((d.coefSet n)[j]?.getD 0)

/-- A set has been written (R172). -/
def Dev.setFilled (d : Dev) (n : Nat) : Bool := d.coefSet n ≠ []

/-- A set is valid: c2 ≤ c3 and c4 > 0 (R172). -/
def validSet (ws : List Word) : Bool :=
  let c := fun j => coefValue (ws[j]?.getD 0)
  Frac.le (c 2) (c 3) && Frac.lt Frac.zero (c 4)

/-- A loop is suspended: parked, or not yet driven since (R28), adopted, blanked, or bound to an empty set (Table 7-3). -/
def Dev.suspended (d : Dev) (e : Nat) : Bool :=
  let x := d.loop e
  x.susp.parked || x.susp.waits || x.susp.adopted || x.susp.blanked || (x.slot ≠ 0xFF && !d.setFilled x.set)

/-- A loop that begins to drive its element again from code `u0` (R186). -/
def Dev.startLoop (d : Dev) (e u0 : Nat) (err : Option Frac) : Dev :=
  d.setLoop e { d.loop e with start := some ⟨u0, err.map (fun v => coefValue (coefWord v))⟩, code := u0, out := Frac.ofInt u0, inSluice := false }

/-- Codes and trios go out on the links: this unit claims (R262), and no device safe has silenced it (R392). -/
def Dev.sendsCodes (d : Dev) : Bool := d.flag F.twnStat_claimOut && !d.flt.silent

/-- No code goes out for an element whose code a claim has still to read back (R425). -/
def Dev.unreadCode (d : Dev) (el : Nat) : Bool := bit (tget (fun _ => ({} : Link)) d.elk.links (linkOf el)).unread (el % 192)

/-- A link carries hold traffic: it is up or draining (Table 10-10). Before that its codes are still to be read back (R79), and after a warm
restart it carries hold frames without code records until then (R82). -/
def Dev.linkDrives (d : Dev) (l : Nat) : Bool := d.fld (F.elkLinkStat_state l) = 6 || d.fld (F.elkLinkStat_state l) = 7

/-- A code record may name the element: not while a sluice drives it or it waits for its hand-back (R21, R250). -/
def Dev.codeGoes (d : Dev) (el : Nat) : Bool :=
  d.sendsCodes && d.linkDrives (linkOf el) && !d.unreadCode el && !(d.loop el).inSluice

/-- Nothing is due to go out for an element any more. -/
def Dev.dropCode (d : Dev) (el : Nat) : Dev :=
  { d with lpc := { d.lpc with codesDue := d.lpc.codesDue.filter (fun c => c.1 ≠ el), codesNext := d.lpc.codesNext.filter (fun c => c.1 ≠ el) } }

/-- A code stored for an element, in place of one that has not been sent: it goes in this frame up to 1.85 µs after the strobe, when the
final record begins (R250), and otherwise in the next. -/
def Dev.queueCode (d : Dev) (el code : Nat) : Dev :=
  let d1 := d.dropCode el
  if !d.codeGoes el then d1
  else if d.now ≤ d.lpc.strobeAt + 1850 * tickNs then { d1 with lpc := { d1.lpc with codesDue := d1.lpc.codesDue ++ [(el, code)] } }
  else { d1 with lpc := { d1.lpc with codesNext := d1.lpc.codesNext ++ [(el, code)] } }

/-- An element driven at a fixed code in the next frame with its loop suspended by a blank (R133, R389). In a sluice it takes the code at its
hand-back (R21). -/
def Dev.blankElement (d : Dev) (e code : Nat) : Dev :=
  let x := d.loop e
  if x.inSluice then d.setLoop e { x with susp := { x.susp with blanked := true } }
  else (d.setLoop e { x with code := code, susp := { x.susp with blanked := true } }).queueCode e code

/-- An element is in economy parking (R26): its loop is suspended, and heater code 0 is sent. One that a sluice drives takes the code at its
hand-back (R21). -/
def Dev.parkElement (d : Dev) (e : Nat) (v : Bool) : Dev :=
  let x := d.loop e
  if x.susp.parked = v then d else
  let d1 := d.setLoop e { x with susp := { x.susp with parked := v, waits := false }, code := if v && !x.inSluice then 0 else x.code,
                                 out := if v then x.out else Frac.zero, start := if v || x.inSluice then x.start else some ⟨0, none⟩ }
  if v then (d1.queueCode e 0).setFld F.thsEconStat_parked (d.fld F.thsEconStat_parked + 1)
  else d1.setFld F.thsEconStat_parked (d.fld F.thsEconStat_parked - 1)

/-- An element taken out of economy for a move that plays its shape from code 0 (R28): its loop waits for the end of that. -/
def Dev.leavePark (d : Dev) (e : Nat) : Dev :=
  let x := d.loop e
  if !x.susp.parked then d
  else (d.setLoop e { x with susp := { x.susp with parked := false, waits := true } }).setFld F.thsEconStat_parked (d.fld F.thsEconStat_parked - 1)

/-- An element that has left economy for a move which has ended without playing it: its loop resumes from code 0. -/
def Dev.resumeLoop (d : Dev) (e : Nat) : Dev :=
  let x := d.loop e
  if !x.susp.waits then d
  else d.setLoop e { x with susp := { x.susp with waits := false }, out := Frac.zero, start := some ⟨0, none⟩ }

/-- The code for `att_max` of a VOA (R126, R487). -/
def Dev.attMaxCode (d : Dev) (e : Nat) : Nat := d.bank.voaCode e (Frac.mk2 d.rtp.map.attMax 100)

/-- The power that a raw sample of a monitor tap stands for, under the link's scales in force. -/
def Dev.tapPower (d : Dev) (m raw : Nat) : Frac :=
  let l := linkOf m
  Config.tapPower (d.bank.tapScale l ((m - 6144) % 32)) (d.bank.bracketScale l (d.bracket l)) raw

/-- The part of a link's SAMPLES record that carries an element: 48 drive channels or 8 monitor taps each (Table 10-6). -/
def partOf (e : Nat) : Nat := if e < 6144 then e % 192 / 48 else (e - 6144) % 32 / 8

/-- The buffer that holds an element's last samples (R17): the parity of the frame of its last part. -/
def Dev.bufferOf (d : Dev) (e : Nat) : Nat := b2n (bit (tget (fun _ => ({} : Link)) d.elk.links (linkOf e)).parity (partOf e))

/-- The last raw samples of a drive element, taps a and b. -/
def Dev.sample (d : Dev) (e : Nat) : Nat × Nat := tget (fun _ => (0, 0)) d.lpc.samples (2 * e + d.bufferOf e)

/-- The last raw sample of a monitor tap. -/
def Dev.tapRaw (d : Dev) (m : Nat) : Nat := tget (fun _ => 0) d.lpc.taps (2 * m + d.bufferOf m)

/-- The reading of a monitor tap in dBm. -/
def Dev.tapDbm (d : Dev) (m : Nat) : Frac := Config.dBm (d.tapPower m (d.tapRaw m))

/-- A power in 0.01 dBm as an event or a record carries it. -/
def centi (f : Frac) : Int := Frac.round (Frac.mul f (Frac.ofInt 100))

/-- An element adopted at the code read back (R80): its loop is suspended. -/
def Dev.adopt (d : Dev) (e code : Nat) : Dev :=
  let x := d.loop e
  let d1 := d.setLoop e { x with code := code, susp := { x.susp with adopted := true } }
  { d1 with rtp := { d1.rtp with adopted := aput d1.rtp.adopted e code } }

/-- An adopted element released (R80, R117, R130): idle, without change of code. -/
def Dev.releaseAdopted (d : Dev) (e : Nat) : Dev :=
  let x := d.loop e
  let d1 := d.setLoop e { x with susp := { x.susp with adopted := false }, start := some ⟨x.code, none⟩ }
  { d1 with rtp := { d1.rtp with adopted := d1.rtp.adopted.filter (fun a => a.1 ≠ e) } }

/-- Every adopted element released to idle; answers how many. -/
def Dev.releaseAllAdopted (d : Dev) : Nat × Dev :=
  (d.rtp.adopted.length, d.rtp.adopted.foldl (fun d a => d.releaseAdopted a.1) d)

end Sys2Proof.Machine
end

