-- ==== Sys2Proof/Machine/Store.lean ====
section
/-! DEFINITION. The shape library and the shaping store (R138, R141, R142, R144, R229, R230, R367, R379, R380): segments, what is active, what a
write holds and what the placement manager keeps resident. None of this raises a fault source. -/

namespace Sys2Proof.Machine

/-- Ticks of one sluice sample of 50 ns. -/
def tickSample : Nat := 400
/-- The lead of R145, 300 ns. -/
def tickLead : Nat := 2400
/-- The re-arm time of R146, two samples. -/
def tickRearm : Nat := 800

/-- A sluice's state. -/
def Dev.sluice (d : Dev) (s : Nat) : Sluice := tget (fun _ => {}) d.trn.sluices s
/-- A sluice's state replaced. -/
def Dev.setSluice (d : Dev) (s : Nat) (x : Sluice) : Dev :=
  { d with trn := { d.trn with sluices := tput (fun _ => {}) d.trn.sluices s x } }
/-- Sluices of the block (R137). -/
def sluiceNumbers : List Nat := List.range 64

/-! ### Segments -/

/-- A segment descriptor (Table 6-1). -/
def Dev.segDesc (d : Dev) (n : Nat) : Option SegDesc := aget d.trn.descs n

/-- A descriptor whose segment is complete (Table 6-2). -/
def Dev.segComplete (d : Dev) (n : Nat) : Bool := match d.segDesc n with | some x => x.complete | none => false

/-- The samples of a descriptor's segment, 8 a granule. -/
def Dev.segSamples (d : Dev) (n : Nat) : List Nat :=
  match d.segDesc n with
  | some y => ((List.range y.len).flatMap (fun k => tget (fun _ => []) d.trn.granules (y.base + k)))
  | none => []

/-- The descriptor of a part of a shape in the store, of the bank in force. -/
def Dev.segOf (d : Dev) (t : SegTag) : Option Nat := (d.trn.descs.find? (fun x => decide (x.2.tag = t) && !x.2.stale)).map (fun x => x.1)

/-- The first descriptor of a shape in the store, where its first segment is complete. -/
def Dev.shapeDesc (d : Dev) (el br : Nat) (rise : Bool) : Option Nat :=
  match d.segOf ⟨el, br, rise, 0⟩ with
  | some n => if d.segComplete n then some n else none
  | none => none

/-- Granules of the segments of a shape of `n` granules: one longer than 5 is split into segments of 4 (R141, R367). -/
def segLens (n : Nat) : List Nat := if n ≤ 5 then [n] else List.replicate (n / 4) 4

/-- Granules from part `k` of a shape of `n` granules on. -/
def granulesFrom (n k : Nat) : Nat := ((segLens n).drop k).foldl (· + ·) 0

/-- The samples of part `k` of a shape. -/
def partSamples (shape : List Nat) (k : Nat) : List Nat :=
  let n := shape.length / 8
  (shape.drop (8 * (n - granulesFrom n k))).take (8 * (granulesFrom n k - granulesFrom n (k + 1)))

/-- The bracket number under which the shaping store names the segments of an element's rake. -/
def rakeBracket : Nat := 16
/-- The bracket number under which it names the segment of an element's live steps. -/
def stepBracket : Nat := 17

/-- The samples of a live step (R380), as fractions of its step in Q2.14: 24 at c0 + Δ, 8 at c0. -/
def stepSamples : List Nat := List.replicate 24 16384 ++ List.replicate 8 0

/-! ### What is active (R144) -/

/-- The current pass of the sluice ends here. -/
def Dev.passEnd (d : Dev) (s : Nat) : Nat :=
  let x := d.sluice s
  let n := match d.segDesc x.desc with | some y => y.len | none => 0
  x.passAt + 8 * n * tickSample

/-- A descriptor is active: a sluice plays it or stands before it, or has passed the decision point of the segment before it. -/
def Dev.segActive (d : Dev) (n : Nat) : Bool :=
  sluiceNumbers.any (fun s =>
    let x := d.sluice s
    x.cur.isSome && (x.desc = n || (match d.segDesc x.desc with
      | some y => x.stalledAt.isNone && !y.last && y.next = n && y.rep ≠ 255 && decide (y.rep ≤ x.passes) &&
          decide (d.passEnd s ≤ d.now + tickRearm)
      | none => false)))

/-- Two runs of granules overlap. -/
def overlap (a n b m : Nat) : Bool := decide (a < b + m) && decide (b < a + n)

/-- Granules in use. -/
def Dev.granulesUsed (d : Dev) : Nat := (d.trn.descs.map (fun x => x.2.len)).foldl (· + ·) 0

/-- Free granules and descriptors shown. -/
def Dev.showStore (d : Dev) : Dev :=
  (d.setFld F.trnStoreFree_granules (245760 - d.granulesUsed)).setFld F.trnDescFree_descs (32768 - d.trn.descs.length)

/-- The inactive segments that satisfy `p` freed. -/
def Dev.freeSegs (d : Dev) (p : SegDesc → Bool) : Dev :=
  let gone := d.trn.descs.filter (fun x => p x.2 && !d.segActive x.1)
  if gone = [] then d
  else ({ d with trn := { d.trn with descs := d.trn.descs.filter (fun x => !gone.any (fun g => g.1 = x.1)) } }).showStore

/-- Granules from `base` on filled with samples, 8 each. -/
def putGranules : Nat → Nat → List Nat → Table (List Nat) → Table (List Nat)
  | 0, _, _, t => t
  | n + 1, base, l, t => putGranules n (base + 1) (l.drop 8) (tput (fun _ => []) t base (l.take 8))

/-- A segment put in the store. -/
def Dev.putSegment (d : Dev) (n : Nat) (x : SegDesc) (samples : List Nat) : Dev :=
  ({ d with trn := { d.trn with descs := aput d.trn.descs n x, granules := putGranules x.len x.base samples d.trn.granules } }).showStore

/-! ### Residence -/

/-- Every segment of a shape is complete in the store. -/
def Dev.shapeResident (d : Dev) (el br : Nat) (rise : Bool) : Bool :=
  (List.range (segLens (d.bank.shapeGranules el br rise)).length).all (fun k => match d.segOf ⟨el, br, rise, k⟩ with
    | some n => d.segComplete n
    | none => false)

/-- The first run of `n` free granules. -/
def Dev.freeBase (d : Dev) (n : Nat) : Option Nat :=
  let use := d.trn.descs.map (fun x => (x.2.base, x.2.len))
  let ok := (0 :: use.map (fun u => u.1 + u.2)).filter (fun b => decide (b + n ≤ 245760) && !use.any (fun u => overlap b n u.1 u.2))
  match ok with | [] => none | a :: r => some (r.foldl min a)

/-- The first free descriptor. -/
def Dev.freeDesc (d : Dev) : Option Nat :=
  ((List.range (d.trn.descs.length + 1)).find? (fun n => (d.segDesc n).isNone)).filter (fun n => decide (n < 32768))

/-- The parts of a shape put in free segments, the last first; none where the store has no room. -/
def placeParts (el br : Nat) (rise : Bool) (shape : List Nat) : List Nat → Nat → Dev → Option Dev
  | [], _, d => some d
  | k :: r, next, d =>
    let l := partSamples shape k
    match d.freeDesc, d.freeBase (l.length / 8) with
    | some n, some b => placeParts el br rise shape r n
        (d.putSegment n { base := b, len := l.length / 8, rep := 0, next := next, jump := 0,
                          last := decide (k + 1 = (segLens (shape.length / 8)).length), complete := true, tag := ⟨el, br, rise, k⟩ } l)
    | _, _ => none

/-- A shape of the library made resident whole (R230); none where the store has no room for it. -/
def Dev.makeResident (d : Dev) (el br : Nat) (rise : Bool) : Option Dev :=
  if d.shapeResident el br rise then some d
  else
    let shape := d.bank.library el br rise
    placeParts el br rise shape (List.range (segLens (shape.length / 8)).length).reverse 0
      (d.freeSegs (fun x => !x.stale && x.tag.el = el && x.tag.bracket = br && x.tag.rise = rise))

/-- Both shapes of an element's bracket made resident. -/
def Dev.residentBoth (d : Dev) (el br : Nat) : Option Dev := (d.makeResident el br true).bind (fun d => d.makeResident el br false)

/-- The shapes of the elements of a class 0 move for their links' brackets resident (R230); none where the store has no room. -/
def residentFor : List Nat → Dev → Option Dev
  | [], d => some d
  | el :: r, d => (d.residentBoth el (d.bracket (linkOf el))).bind (residentFor r)

/-- A segment that a class 0 move needs until its hand-back, which is not freed (R230). -/
def Dev.deadlineSeg (d : Dev) (t : SegTag) : Bool :=
  d.rtp.moves.any (fun m => m.klass = 0 && m.elems.any (fun x => x.el = t.el && decide (x.phase < 4) &&
    (t.bracket = d.bracket (linkOf t.el) || (decide (1 ≤ x.phase) && t.bracket = x.bracket))))

/-- The shapes of pending class 0 moves resident again, where the store has room (R230). -/
def Dev.refreshDeadlines (d : Dev) : Dev :=
  let els := (d.rtp.moves.filter (fun m => m.klass = 0)).flatMap (fun m => (m.elems.filter (fun x => decide (x.phase < 4))).map (fun x => x.el))
  els.foldl (fun d el => (d.residentBoth el (d.bracket (linkOf el))).getD d) d

/-- The window of a link (R229): its bracket, the neighbour towards which its temperature moved in the last second, the other one. -/
def Dev.windowOrder (d : Dev) (l : Nat) : List Nat :=
  let b := d.bracket l
  let near := [b + 1] ++ (if b = 0 then [] else [b - 1])
  (b :: (if (tget (fun _ => ({} : Link)) d.elk.links l).falling then near.reverse else near)).filter (fun x => decide (x < 16))

/-- Room made for a first segment of a bracket: those of the brackets that come later in its link's window are freed (R229). -/
def Dev.makeRoom (d : Dev) (t : SegTag) : Dev :=
  let l := linkOf t.el
  let later := ((d.windowOrder l).dropWhile (fun b => b ≠ t.bracket)).drop 1
  d.freeSegs (fun x => linkOf x.tag.el = l && later.contains x.tag.bracket && !d.deadlineSeg x.tag)

/-- The window of a link after its bracket has changed (R229, R230): the segments of its elements outside the three brackets of the window
are freed. -/
def Dev.moveWindow (d : Dev) (l : Nat) : Dev :=
  let d1 := d.refreshDeadlines
  d1.freeSegs (fun x => linkOf x.tag.el = l && decide (x.tag.bracket < 16) && !(d1.windowOrder l).contains x.tag.bracket && !d1.deadlineSeg x.tag)

/-- A shape that a sluice plays. -/
def Dev.inPlay (d : Dev) (t : SegTag) : Bool :=
  sluiceNumbers.any (fun s => (d.sluice s).cur.isSome && (d.sluice s).tag.el = t.el && (d.sluice s).tag.bracket = t.bracket &&
    (d.sluice s).tag.rise = t.rise && decide (t.bracket < 16))

/-- The elements granted before a switch of bank keep the shapes of their grants (R373). -/
def Dev.keepGranted (d : Dev) : Dev :=
  sluiceNumbers.foldl (fun d s => match (d.sluice s).next with
    | some g => (match g.oid, d.segDesc g.desc with
      | some _, some y => if g.kept = [] then
          d.setSluice s { d.sluice s with next := some { g with kept := d.bank.library y.tag.el y.tag.bracket y.tag.rise } } else d
      | _, _ => d)
    | none => d) d

/-- The windows of a new bank (R373): shapes in play, and those of granted elements, stay as they are; the others that were resident are
resident with their new samples. -/
def Dev.switchShapes (d : Dev) : Dev :=
  let granted := fun (t : SegTag) => sluiceNumbers.any (fun s => match (d.sluice s).next with | some g => g.el = t.el && g.oid.isSome | none => false)
  let lib := d.trn.descs.filter (fun x => decide (x.2.tag.bracket < 16))
  let keep := lib.filter (fun x => d.inPlay x.2.tag || granted x.2.tag)
  let heads := (lib.filter (fun x => x.2.tag.part = 0 && x.2.complete && !x.2.stale)).map (fun x => x.2.tag)
  let left := d.trn.descs.filter (fun x => decide (16 ≤ x.2.tag.bracket) || keep.any (fun k => k.1 = x.1))
  let old := left.map (fun (x : Nat × SegDesc) => if x.2.tag.bracket < 16 then (x.1, { x.2 with stale := true }) else x)
  let d1 := { d with trn := { d.trn with descs := old } }
  (heads.foldl (fun d t => (d.makeResident t.el t.bracket t.rise).getD d) d1).refreshDeadlines.showStore

/-! ### Writes (R142, R144) -/

/-- What a write to the store holds: its tag, repeats, jump, `last` and samples; none for a segment that no library shape has (R138). A
streamed part of a shape in play is that of the shape as the sluice began it (R140). A sweep of 256 codes closes with `last` (R379). -/
def Dev.segContent (d : Dev) (w : SegWrite) : Option (SegTag × Nat × Nat × Bool × List Nat) :=
  match w.source with
  | .library el br rise k =>
    let own := sluiceNumbers.find? (fun s => (d.sluice s).cur.isSome && (d.sluice s).tag.el = el && (d.sluice s).tag.bracket = br &&
      (d.sluice s).tag.rise = rise && !(d.sluice s).shape.isEmpty)
    let shape := match own with | some s => if k = 0 then d.bank.library el br rise else (d.sluice s).shape | none => d.bank.library el br rise
    let parts := (segLens (shape.length / 8)).length
    if (d.rtp.map.kind el = 1 ∨ d.rtp.map.kind el = 2) ∧ br < 16 ∧ k < parts then
      some (⟨el, br, rise, k⟩, 0, 0, decide (k + 1 = parts), partSamples shape k)
    else none
  | .sweep el first rep jump codes =>
    let pos := if first then 0 else tget (fun _ => 0) d.trn.sweeps el
    let l := codes.take (256 - pos)
    some (⟨el, rakeBracket, false, if first then 0 else 1⟩, rep, jump, decide (256 ≤ pos + l.length), l.flatMap (List.replicate 8))
  | .step el => some (⟨el, stepBracket, false, 0⟩, 0, 0, true, stepSamples)

/-- A fired move waits for the element, or a class 0 move needs it: its fetch goes ahead of every other (R230). -/
def Dev.fetchFirst (d : Dev) (el : Nat) : Bool :=
  d.rtp.moves.any (fun m => m.elems.any (fun x => x.el = el && (m.klass = 0 || m.fire.isSome) && decide (x.phase < 4)))

/-- The status of a write (Table 6-2). A segment that is selected but not complete is being filled, and its write goes on (R151). A window
leaves the reserve of R229 free. -/
def Dev.segStatus (d : Dev) (w : SegWrite) (t : SegTag) (n : Nat) : Nat :=
  let others := d.trn.descs.filter (fun x => x.1 ≠ w.desc)
  let hit := others.filter (fun x => overlap w.base n x.2.base x.2.len)
  let mine := match d.segDesc w.desc with
    | some y => decide (y.tag.el = t.el) && decide (y.tag.bracket = t.bracket) && decide (y.tag.rise = t.rise) && !y.stale &&
        (decide (16 ≤ t.bracket) || decide (y.tag.part = t.part))
    | none => decide (d.trn.descs.length < 32768)
  let used := (others.map (fun x => x.2.len)).foldl (· + ·) n
  let window := decide (t.bracket < 16) && decide (t.part = 0) && !d.fetchFirst t.el
  if n < 4 ∨ 64 < n ∨ (t.bracket = rakeBracket ∧ 8 < n) then 2
  else if (d.segComplete w.desc && d.segActive w.desc) || hit.any (fun x => d.segActive x.1) then 1
  else if 32768 ≤ w.desc ∨ 245760 < w.base + n ∨ hit ≠ [] ∨ mine = false then 3
  else if window ∧ (245760 < used + 16384 ∨ 32768 < others.length + 1 + 2048) then 3
  else 0

end Sys2Proof.Machine
end

