-- ==== Sys2Proof/Machine/TrnOps.lean ====
section
/-! DEFINITION. Operations of the transition engine (chapter 06): sluices and their registers, shapes, grants (R154),
ends and stops (R146, R150, R152), and the calendar (R156). None of them raises a fault source. -/

namespace Sys2Proof.Machine

/-- The first sample boundary at or after `t`; `o` is the shift of the pair count (R411). -/
def sampleAt (o t : Nat) : Nat := (t + o % 400 + 399) / 400 * 400 - o % 400

/-- The start instant of a grant at `g` (R145, R154). -/
def startOf (o g : Nat) : Nat := sampleAt o (g + tickLead)

/-- The code that an element's front-end has in force: one evaluated since the last strobe acts at the next only (R20). A parked element is
at code 0, also when a move has just taken it out of economy (R28). -/
def Dev.codeInForce (d : Dev) (el : Nat) : Nat :=
  if (d.loop el).susp.parked || (d.loop el).susp.waits then 0
  else if (d.lpc.codesDue ++ d.lpc.codesNext ++ d.lpc.codesSent).any (fun c => c.1 = el) then tget (fun _ => 0) d.lpc.applied el
  else (d.loop el).code

/-- The state field of SL_STATE (Table 6-12), with class, link and element; SL_TAG follows. -/
def Dev.showSluice (d : Dev) (s st : Nat) : Dev :=
  let x := d.sluice s
  let g := match x.cur with | some g => some g | none => x.next
  let tag := match g with
    | some g => (match g.oid with
      | some o => (match d.rtp.moves.find? (fun m => m.oid = o) with | some m => m.tag | none => 0)
      | none => 0)
    | none => 0
  let (el, k) := match g with | some g => (g.el, g.klass) | none => (0, 0)
  let d1 := (d.setFld (F.trnSlState_state s) st).setFld (F.trnSlState_class s) (if g = none then 0 else k)
  let d2 := (d1.setFld (F.trnSlState_link s) (if g = none then 0 else linkOf el)).setFld (F.trnSlState_element s) el
  d2.setRegN (R.trnSlTag s) tag

/-- A sluice is in use: leading, playing, stalled, stopping or re-arming. -/
def Dev.sluiceBusy (d : Dev) (s : Nat) : Bool := d.fld (F.trnSlState_state s) ≠ 0

/-- Sluices in use. -/
def Dev.sluicesInUse (d : Dev) : Nat := countBelow 64 d.sluiceBusy

/-- The link that a sluice's work lies on. -/
def Grant.link (g : Grant) : Nat := linkOf g.el

/-- The sluice plays the final pass of a segment whose `last` is set, with no jump pending (R154). -/
def Dev.finalPass (d : Dev) (s : Nat) : Bool :=
  let x := d.sluice s
  match d.segDesc x.desc with
  | some y => y.last && x.jump = none && decide (y.rep ≤ x.passes) && decide (y.rep ≠ 255)
  | none => false

/-- Where the transition on a sluice ends if it does not stall: all parts of its shape that remain, the pass under way included; a rake or
step at the end of its pass (R156). -/
def Dev.playEnd (d : Dev) (s : Nat) : Nat :=
  let x := d.sluice s
  if x.shape = [] then (if x.stalledAt.isSome then d.now else d.passEnd s)
  else (if x.stalledAt.isSome then d.now else x.passAt) + 8 * granulesFrom (x.shape.length / 8) x.tag.part * tickSample

/-- The instant at which a sluice's re-arm ends, where that is fixed; none while it is not (R154). A free sluice: 0. -/
def Dev.freeTime (d : Dev) (s : Nat) : Option Nat :=
  let x := d.sluice s
  match x.cur with
  | none => if d.fld (F.trnSlState_state s) = 1 then some x.freeAt else some 0
  | some _ => if x.stalledAt.isSome then none else if d.finalPass s then some (d.passEnd s + tickRearm) else none

/-- Available at the start instant `st` of a grant at `g` (R154). -/
def Dev.sluiceAvailable (d : Dev) (s g st : Nat) : Bool :=
  let x := d.sluice s
  x.next = none && (match x.cur, d.freeTime s with
    | none, some r => decide (r ≤ g)
    | some _, some r => decide (g < r - tickRearm) && decide (r ≤ st)
    | _, none => false)

/-- The last grant of a sluice in re-arm, kept for the link it counts on. -/
def Dev.countsOn (d : Dev) (s l st : Nat) : Bool :=
  let x := d.sluice s
  let now := match x.cur with
    | some gr => decide (gr.link = l) && (match d.freeTime s with | some r => decide (st < r) | none => true)
    | none => decide (d.fld (F.trnSlState_state s) = 1) && decide (d.fld (F.trnSlState_link s) = l) && decide (st < x.freeAt)
  let next := match x.next with | some gr => decide (gr.link = l) && decide (gr.startAt ≤ st) | none => false
  now || next

/-- Sluices that count on a link at `st` (R154). -/
def Dev.linkCount (d : Dev) (l st : Nat) : Nat := countBelow 64 (fun s => d.countsOn s l st)

/-- An element that waits for a sluice: class, fire instant, schedule entry, plan order (its rank, R154), element and
move. -/
abbrev Waiter : Type := Nat × Nat × Nat × Nat × Nat × Nat

/-- The waiting elements of a move, in plan order, with their ranks (R154). Unkeyed moves rank after every schedule
entry. -/
def moveWaiting (m : Move) : List Waiter :=
  match m.fire with
  | some f =>
    if m.deferred then []
    else (m.elems.zipIdx.filter (fun x => x.1.phase = 1)).map
      (fun x => (m.klass, f, m.entry.getD 4096, x.2, x.1.el, m.oid))
  | none => []

/-- `a` ranks before `b` (R154). -/
def rankLt (a b : Waiter) : Bool := lexLt [a.1, a.2.1, a.2.2.1, a.2.2.2.1] [b.1, b.2.1, b.2.2.1, b.2.2.2.1]

/-- The best-ranked of a list. -/
def bestRank : List Waiter → Option Waiter
  | [] => none
  | a :: r => match bestRank r with
    | none => some a
    | some b => if rankLt b a then some b else some a

/-- Every element of the fired moves that waits for a sluice. -/
def Dev.waitingElems (d : Dev) : List Waiter := d.rtp.moves.flatMap moveWaiting

/-- The setting that a move gives an element: kind, cross, attenuation. -/
def Dev.moveTarget (d : Dev) (oid el : Nat) : Nat × Bool × Nat :=
  match d.rtp.moves.find? (fun m => m.oid = oid) with
  | some m => (match m.elems.find? (fun x => x.el = el) with
    | some x => (x.kind, x.cross, x.att)
    | none => (0, false, 0))
  | none => (0, false, 0)

/-- The code of the element's new setting and the direction of its shape (R138, R143). -/
def Dev.targetCode (d : Dev) (oid el : Nat) : Nat × Bool :=
  let (k, c, a) := d.moveTarget oid el
  let c1 := d.bank.settingCode el k c a
  (c1, decide (d.codeInForce el ≤ c1))

/-- An element link's state. -/
def Dev.elink (d : Dev) (l : Nat) : Link := tget (fun _ => {}) d.elk.links l
/-- An element link's state replaced. -/
def Dev.setElink (d : Dev) (l : Nat) (x : Link) : Dev :=
  { d with elk := { d.elk with links := tput (fun _ => {}) d.elk.links l x } }

/-- The bracket whose shape an element of a move plays (R140): that in force, for a class 0 move that of its fire
instant. -/
def Dev.moveBracket (d : Dev) (oid el : Nat) : Nat :=
  match d.rtp.moves.find? (fun m => m.oid = oid) with
  | some m => if m.klass = 0 then
      (match m.elems.find? (fun x => x.el = el) with | some x => x.bracket | none => d.bracket (linkOf el))
    else d.bracket (linkOf el)
  | none => d.bracket (linkOf el)

/-- The shape that an element of a move plays (R140): its first descriptor where it is in the store. -/
def Dev.moveShape (d : Dev) (oid el : Nat) : Option Nat :=
  let (_, rise) := d.targetCode oid el
  d.shapeDesc el (d.moveBracket oid el) rise

/-- The bracket of an element at a fire instant (R140): that in force where its shape is complete, otherwise the one
just left. -/
def Dev.fireBracket (d : Dev) (x : MoveElem) : Nat :=
  let l := linkOf x.el
  let rise := decide (d.codeInForce x.el ≤ d.bank.settingCode x.el x.kind x.cross x.att)
  if (d.shapeDesc x.el (d.bracket l) rise).isSome || (d.shapeDesc x.el (d.elink l).leftBracket rise).isNone then d.bracket l
  else (d.elink l).leftBracket

/-- One element of a move, with its phase changed. -/
def setPhase (oid el ph : Nat) (started : Bool) (l : List Move) : List Move :=
  l.map (fun m => if m.oid = oid then
    { m with elems := m.elems.map (fun x => if x.el = el then { x with phase := ph, started := x.started || started } else x) }
    else m)

/-- A move replaced. -/
def Dev.setMove (d : Dev) (m : Move) : Dev :=
  { d with rtp := { d.rtp with moves := d.rtp.moves.map (fun x => if x.oid = m.oid then m else x) } }

/-- The move with a number. -/
def Dev.findMove (d : Dev) (oid : Nat) : Option Move := d.rtp.moves.find? (fun m => m.oid = oid)

/-- The phase of one element of a move changed. -/
def Dev.movePhase (d : Dev) (oid el ph : Nat) (started : Bool) : Dev :=
  { d with rtp := { d.rtp with moves := setPhase oid el ph started d.rtp.moves } }

/-- The sluices that play or are granted an element. -/
def Dev.sluicesOf (d : Dev) (el : Nat) : List Nat :=
  sluiceNumbers.filter (fun s => match (d.sluice s).cur with | some g => g.el = el | none => false)

/-- An element is in a sluice, or waits for its hand-back. -/
def Dev.inSluice (d : Dev) (el : Nat) : Bool :=
  !(d.sluicesOf el).isEmpty || sluiceNumbers.any (fun s => (d.sluice s).ended.contains el)

/-- The elements that may be granted now: first segment complete, link with room at `st` (R154), no rake on the element. -/
def Dev.grantable (d : Dev) (st : Nat) : List Waiter :=
  d.waitingElems.filter (fun w => decide (d.linkCount (linkOf w.2.2.2.2.1) st < 4) &&
    (d.moveShape w.2.2.2.2.2 w.2.2.2.2.1).isSome && !d.inSluice w.2.2.2.2.1)

/-- A rake or live step that may be granted now (R155); none while the engine is off (R160). -/
def Dev.rakeGrantable (d : Dev) (st : Nat) : Option RakeWait :=
  if !d.flag F.trnCtrl_rakeEn || !d.flag F.trnCtrl_en then none
  else d.trn.rakes.find? (fun r => decide (d.linkCount (linkOf r.el) st < 4) && d.segComplete r.desc &&
    !d.waitingElems.any (fun w => linkOf w.2.2.2.2.1 = linkOf r.el))

/-- A grant entered in a sluice. -/
def Dev.enterGrant (d : Dev) (s : Nat) (g : Grant) : Dev :=
  let x := d.sluice s
  let d1 := d.setSluice s { x with next := some g }
  if x.cur = none then d1.showSluice s 2 else d1

/-- Grants at instant `g` for start instant `st`, sluices in ascending number (R154, R155). -/
def grantRound (g st : Nat) : List Nat → Dev → Dev
  | [], d => d
  | s :: r, d =>
    if d.sluiceAvailable s g st then
      match bestRank (d.grantable st) with
      | some (k, _, _, _, el, oid) =>
        let desc := (d.moveShape oid el).getD 0
        grantRound g st r ((d.movePhase oid el 2 false).enterGrant s { el := el, oid := some oid, klass := k, desc := desc, startAt := st, rake := false })
      | none => match d.rakeGrantable st with
        | some w =>
          let d1 := { d with trn := { d.trn with rakes := d.trn.rakes.filter (fun q => q.el ≠ w.el) } }
          grantRound g st r (d1.enterGrant s { el := w.el, oid := none, klass := 2, desc := w.desc, startAt := st, rake := !w.live })
        | none => d
    else grantRound g st r d

/-- The code of a sample (R143): a rake's are codes themselves. -/
def Sluice.codeOf (x : Sluice) (v : Nat) : Nat :=
  match x.cur with
  | some g => if g.rake then v else playCode x.c0 x.c1 (signed 16 (v % 65536))
  | none => x.lastCode

/-- The last code that the sluice has played by the end of a segment: the last sample of its descriptor (R143). -/
def Dev.lastCode (d : Dev) (s : Nat) : Nat :=
  let x := d.sluice s
  match (d.segSamples x.desc).getLast? with
  | some v => x.codeOf v
  | none => x.lastCode

/-! ### Fast-mode records (R244, R247) -/

/-- The index of the sample boundary at `t` (Table 10-4). -/
def Dev.sampleIndex (d : Dev) (t : Nat) : Nat := (t + d.shift) / tickSample % 4096

/-- Codes in trios of at most 6: channel, index of the first sample, whether the last of them carries `last`, and the codes. -/
def trios (ch : Nat) (closing : Bool) : Nat → Nat → List Nat → List (List Nat)
  | 0, _, _ => []
  | fuel + 1, idx, l =>
    if l = [] then []
    else (ch :: idx % 4096 :: b2n (closing && decide (l.length ≤ 6)) :: l.take 6) :: trios ch closing fuel (idx + 6) (l.drop 6)

/-- FAST trios sent for the codes of an element from instant `t` on. -/
def Dev.sendTrios (d : Dev) (el t : Nat) (closing : Bool) (codes : List Nat) : Dev :=
  if !d.sendsCodes then d
  else (trios (el % 192) closing codes.length (d.sampleIndex t) codes).foldl (fun d f => d.send (.element (linkOf el) 3 f)) d

/-- The trios of the pass that begins on a sluice. The final pass of a transition carries `last` (R247). -/
def Dev.sendPass (d : Dev) (s : Nat) : Dev :=
  let x := d.sluice s
  match x.cur with
  | none => d
  | some g =>
    let closing := !g.rake && !x.stop && d.finalPass s
    (d.sendTrios g.el x.passAt closing ((d.segSamples x.desc).map x.codeOf)).setSluice s { x with closed := closing }

/-- The end of a sluice's fast-mode stream: where no sample has carried `last`, a trio of one sample repeats the code in force (R247). -/
def Dev.closeFast (d : Dev) (s : Nat) : Dev :=
  let x := d.sluice s
  match x.cur with
  | some g => if x.closed then d else d.sendTrios g.el d.now true [x.lastCode]
  | none => d

/-- A move's transitions have all ended or been withdrawn: its settled instant, the latest of their ends, is published in event 0x0301
(R147). -/
def Dev.checkSettled (d : Dev) (oid : Nat) : Dev :=
  match d.findMove oid with
  | none => d
  | some m => match m.lastEnd with
    | some t =>
      if m.settled = 0 ∧ m.fire.isSome ∧ m.elems.all (fun x => decide (3 ≤ x.phase)) then
        (d.setMove { m with settled := t }).event 0x0301 (m.entry.getD 0xFFFF) (le 8 (d.taiAt t))
      else d
    | none => d

/-- A transition of a move has ended now. -/
def Dev.noteEnd (d : Dev) (oid : Nat) : Dev :=
  match d.findMove oid with
  | some m => d.setMove { m with lastEnd := some d.now }
  | none => d

/-- The store after a sluice has left an element: a sweep's ring and a step's segment are free, and so are the streamed parts of its shape
and the segments of an earlier bank. -/
def Dev.leaveSegments (d : Dev) (el : Nat) : Dev :=
  d.freeSegs (fun x => x.tag.el = el && (decide (16 ≤ x.tag.bracket) || x.stale || decide (1 ≤ x.tag.part)) && !d.deadlineSeg x.tag)

/-- The transition on a sluice ends now (R146): its stream is closed, re-arm begins, the element waits for its hand-back at `code`; a rake or
step awaits its result. -/
def Dev.endTransition (d : Dev) (s code : Nat) : Dev :=
  let x := d.sluice s
  match x.cur with
  | none => d
  | some g =>
    let d0 := d.closeFast s
    let l := d0.elink g.link
    let d1 := (d0.setLoop g.el { d0.loop g.el with code := code }).setElink g.link { l with fastOpen := l.fastOpen ++ [(g.el % 192, d.now)] }
    let d2 := { d1 with lpc := { d1.lpc with applied := tput (fun _ => 0) d1.lpc.applied g.el code } }
    let d3 := d2.setSluice s { x with cur := none, stop := false, stopCode := none, jump := none, stalledAt := none, shape := [], tag := {},
                                      closed := false, lastCode := code, freeAt := d.now + tickRearm, ended := x.ended ++ [g.el] }
    let d4 := (d3.setFld (F.trnSlState_state s) 1).leaveSegments g.el
    match g.oid with
    | some o => ((d4.movePhase o g.el 3 true).noteEnd o).checkSettled o
    | none => if g.klass = 2 then { d4 with cal := { d4.cal with ended := d4.cal.ended ++ [⟨s, g.el, !g.rake, x.invalid⟩] } } else d4

/-- A stop registered on a sluice (R150): at the end of its current segment the element returns to hold, at `code` or
at the last code played. A transition that stands stalled is at a segment end and ends at once (R155); a rake ends with the segment that
follows its stall (Table 6-4). The result of a rake or step that is stopped is discarded (R155, R231, R384). -/
def Dev.stopSluice (d : Dev) (s : Nat) (code : Option Nat) : Dev :=
  let x := d.sluice s
  match x.cur with
  | none => d
  | some g =>
    if x.stalledAt.isSome && g.oid.isSome then d.endTransition s (code.getD x.lastCode)
    else (d.setSluice s { x with stop := true, stopCode := code, invalid := x.invalid || g.oid.isNone }).setFld
      (F.trnSlState_state s) (if x.stalledAt.isSome then 4 else 5)

/-- A transition abandoned (R152): counted, published, its move late; the sluice re-arms. -/
def Dev.abandonTransition (d : Dev) (s : Nat) : Dev :=
  let x := d.sluice s
  match x.cur with
  | none => d
  | some g =>
    let tag := match g.oid with | some o => (match d.findMove o with | some m => m.tag | none => 0) | none => 0
    let d1 := ((d.setFlag (F.trnSlFlags_abandoned s) true).bump R.trnAbandonCount).event 0x0303 s (le 2 g.el ++ le 4 tag)
    let d2 := match g.oid with
      | some o => (match d1.findMove o with | some m => d1.setMove { m with late := true } | none => d1)
      | none => d1
    d2.endTransition s x.lastCode

/-- `drained` of TRN.STAT (Table 6-9). -/
def Dev.updateTrnDrained (d : Dev) : Dev :=
  d.setFlag F.trnStat_drained (!d.flag F.trnCtrl_en && decide (d.sluicesInUse = 0))

/-- The grants in advance of elements that satisfy `p` withdrawn. -/
def Dev.dropGrants (d : Dev) (p : Nat → Bool) : Dev :=
  sluiceNumbers.foldl (fun d s =>
    let x := d.sluice s
    match x.next with
    | some g => if p g.el then
        let d1 := d.setSluice s { x with next := none }
        if x.cur = none ∧ d.fld (F.trnSlState_state s) = 2 then d1.showSluice s 0 else d1
      else d
    | none => d) d

/-! ### The calendar (R156) -/

/-- A move in the calendar: number, class, fire instant, and whether its key has fired. -/
def calendarFire (d : Dev) (m : Move) : Option Nat :=
  match m.fire with
  | some f => some f
  | none => match m.entry with
    | some e => (match aget d.tbu.sched e with | some x => x.predicted | none => none)
    | none => none

/-- The samples that an element of a move will play in the bracket in force (R156). -/
def Dev.elemLength (d : Dev) (oid el : Nat) : Nat :=
  d.bank.shapeLength el (d.bracket (linkOf el)) (d.targetCode oid el).2

/-- What waits in the calendar: rank, link, samples. -/
def calendarWaiters (d : Dev) (extra : List Move) : List (Waiter × Nat × Nat) :=
  ((d.rtp.moves ++ extra).filter (fun m => !m.deferred)).flatMap (fun m =>
    match calendarFire d m with
    | none => []
    | some f => (m.elems.zipIdx.filter (fun x => decide (x.1.phase ≤ 1))).map (fun x =>
        let c1 := d.bank.settingCode x.1.el x.1.kind x.1.cross x.1.att
        let len := d.bank.shapeLength x.1.el (d.bracket (linkOf x.1.el)) (decide (d.codeInForce x.1.el ≤ c1))
        ((m.klass, f, m.entry.getD 4096, x.2, x.1.el, m.oid), linkOf x.1.el, len)))

/-- A sluice in the calendar: its number, the links it counts on until it is free, and when its re-arm ends. -/
def calendarSluices (d : Dev) : List (Nat × List Nat × Nat) :=
  sluiceNumbers.map (fun s =>
    let x := d.sluice s
    let curEnd := match x.cur with
      | some g => some (d.playEnd s + tickRearm, [g.link])
      | none => if d.fld (F.trnSlState_state s) = 1 then some (x.freeAt, [d.fld (F.trnSlState_link s)]) else none
    match x.next, curEnd with
    | some g, c =>
      let len := match g.oid with | some o => d.elemLength o g.el | none => 0
      (s, g.link :: (match c with | some (_, l) => l | none => []), g.startAt + len * tickSample + tickRearm)
    | none, some (r, l) => (s, l, r)
    | none, none => (s, [], 0))

/-- Grants of one instant of the calendar: sluices in ascending number take the best-ranked waiter whose link has
room at `st`. Answers the sluices, the waiters left, and (move, start, end) of each grant. -/
def calendarRound (g st : Nat) : List (Nat × List Nat × Nat) → List (Nat × List Nat × Nat) →
    List (Waiter × Nat × Nat) → List (Nat × Nat × Nat) →
    List (Nat × List Nat × Nat) × List (Waiter × Nat × Nat) × List (Nat × Nat × Nat)
  | done, [], ws, out => (done, ws, out)
  | done, (n, ls, r) :: rest, ws, out =>
    let free := decide (r ≤ g) || (decide (g < r - tickRearm) && decide (r ≤ st))
    if !free then calendarRound g st (done ++ [(n, ls, r)]) rest ws out
    else
      let room := fun l => decide (((done ++ (n, ls, r) :: rest).filter (fun x => decide (st < x.2.2) && x.2.1.contains l)).length < 4)
      match bestRank ((ws.filter (fun w => decide (w.1.2.1 ≤ g) && room w.2.1)).map (fun w => w.1)) with
      | none => (done ++ (n, ls, r) :: rest, ws, out)
      | some b =>
        match ws.find? (fun w => w.1 = b) with
        | none => (done ++ (n, ls, r) :: rest, ws, out)
        | some w =>
          let e := st + w.2.2 * tickSample
          calendarRound g st (done ++ [(n, [w.2.1], e + tickRearm)]) rest (ws.filter (fun q => q.1 ≠ b))
            (out ++ [(b.2.2.2.2.2, st, e)])

/-- The next instant at which the calendar can grant after `g`. -/
def calendarNext (o g : Nat) (sl : List (Nat × List Nat × Nat)) (ws : List (Waiter × Nat × Nat)) :
    Option Nat :=
  let fires := (ws.map (fun w => w.1.2.1)).filter (fun f => decide (g < f))
  let ends := sl.flatMap (fun x => [sampleAt o (x.2.2 - tickLead), sampleAt o x.2.2])
  match fires ++ ends.filter (fun e => decide (g < e)) with
  | [] => none
  | a :: r => some (r.foldl min a)

/-- The calendar replayed from instant `g` (R156): start and end of every element not yet granted. -/
def replayCalendar (o : Nat) : Nat → Nat → List (Nat × List Nat × Nat) →
    List (Waiter × Nat × Nat) → List (Nat × Nat × Nat) → List (Nat × Nat × Nat)
  | 0, _, _, _, out => out
  | fuel + 1, g, sl, ws, out =>
    if ws.isEmpty then out else
    let (sl1, ws1, out1) := calendarRound g (startOf o g) [] sl ws out
    match calendarNext o g sl1 ws1 with
    | none => out1
    | some t => replayCalendar o fuel t sl1 ws1 out1

/-- Start and end of every element in the calendar, those granted or playing included. -/
def Dev.calendar (d : Dev) (extra : List Move) : List (Nat × Nat × Nat) :=
  let ws := calendarWaiters d extra
  let playing := sluiceNumbers.flatMap (fun s =>
    let x := d.sluice s
    (match x.cur with | some g => (match g.oid with | some o => [(o, g.startAt, d.playEnd s)] | none => []) | none => [])
    ++ (match x.next with
      | some g => (match g.oid with | some o => [(o, g.startAt, g.startAt + d.elemLength o g.el * tickSample)] | none => [])
      | none => []))
  let g0 := if ws.any (fun w => decide (w.1.2.1 ≤ d.now)) then sampleAt d.shift d.now
    else (ws.map (fun w => w.1.2.1)).foldl (fun a f => min a f) (match ws with | w :: _ => w.1.2.1 | [] => d.now)
  playing ++ replayCalendar d.shift (3 * ws.length + 200) g0 (calendarSluices d) ws []

/-- The move's slack in ticks against R156; negative where its check fails. -/
def moveSlack (d : Dev) (cal : List (Nat × Nat × Nat)) (m : Move) : Option Int :=
  match calendarFire d m with
  | none => none
  | some f =>
    let mine := cal.filter (fun c => c.1 = m.oid)
    if mine.isEmpty then none
    else if m.klass = 0 then
      some ((f + 120 * tickUs : Nat) - ((mine.map (fun c => c.2.1)).foldl max 0 : Nat) : Int)
    else some ((f + 190 * tickUs : Nat) - ((mine.map (fun c => c.2.2)).foldl max 0 : Nat) : Int)

/-- Both checks of R156 hold for every move not yet complete, a new one included (R157). -/
def Dev.calendarOk (d : Dev) (extra : List Move) : Bool :=
  let cal := d.calendar extra
  ((d.rtp.moves ++ extra).filter (fun m => !m.deferred)).all (fun m =>
    match moveSlack d cal m with | some x => decide (0 ≤ x) | none => true)

/-- TRN.SLACK: the least slack of the class 0 moves in ns (Table 6-7). -/
def Dev.slack (d : Dev) : Nat :=
  let cal := d.calendar []
  match (d.rtp.moves.filter (fun m => m.klass = 0 && !m.deferred)).filterMap (moveSlack d cal) with
  | [] => 0xFFFFFFFF
  | a :: r => min 0xFFFFFFFE ((r.foldl min a).toNat / tickNs)

end Sys2Proof.Machine
end

