-- ==== Sys2Proof/Machine/RtpOps.lean ====
section
/-! DEFINITION. Operations on circuits and moves (chapter 05): claims and their release, the final reply of a move,
deferral by economy mode (R27), withdrawal (R485), blanking (R133, R134), optical safe (R389). None of them raises a
fault source. -/

namespace Sys2Proof.Machine

/-- A circuit of the table; none where the ID is free. -/
def Dev.circuit (d : Dev) (n : Nat) : Option Circuit := aget d.rtp.circuits n

/-- A circuit replaced. -/
def Dev.setCircuit (d : Dev) (n : Nat) (c : Circuit) : Dev :=
  { d with rtp := { d.rtp with circuits := aput d.rtp.circuits n c } }

/-- A circuit ID freed. -/
def Dev.freeCircuit (d : Dev) (n : Nat) : Dev := { d with rtp := { d.rtp with circuits := adel d.rtp.circuits n } }

/-- The setting in force of a switch cell (true is cross): `idle_cross` until it is changed. -/
def Dev.cellSetting (d : Dev) (c : Nat) : Bool :=
  tget (fun e => match d.rtp.map.elem e with | some r => r.idleCross | none => false) d.rtp.settings c

/-- A switch cell's setting changed. -/
def Dev.setCell (d : Dev) (c : Nat) (x : Bool) : Dev :=
  { d with rtp := { d.rtp with settings := tput (fun e => match d.rtp.map.elem e with | some r => r.idleCross | none => false) d.rtp.settings c x } }

/-- A pending move changes the element (R121). -/
def Dev.claimed (d : Dev) (e : Nat) : Bool := d.rtp.moves.any (fun m => m.elems.any (fun x => x.el = e))

/-- A cell's setting in the claimed state (R121). -/
def Dev.claimedSetting (d : Dev) (c : Nat) : Bool :=
  match d.rtp.moves.find? (fun m => m.elems.any (fun x => x.el = c)) with
  | some m => (match m.elems.find? (fun x => x.el = c) with | some x => x.cross | none => d.cellSetting c)
  | none => d.cellSetting c

/-- A circuit's path in the claimed state. -/
def Dev.claimedPath (d : Dev) (n : Nat) (c : Circuit) : List (Nat × Bool) :=
  match d.rtp.moves.find? (fun m => m.path.any (fun p => p.1 = n)) with
  | some m => (match m.path.find? (fun p => p.1 = n) with | some p => p.2 | none => c.path)
  | none => c.path

/-- The VOA of an output port. -/
def Dev.voaOf (d : Dev) (p : Nat) : Nat := match d.rtp.map.port p with | some r => r.outVoa | none => 0

/-- The elements of a circuit: its cells and its VOA. -/
def Dev.circuitElems (d : Dev) (c : Circuit) : List Nat := c.path.map (fun h => h.1) ++ [d.voaOf c.outPort]

/-- An element is used by a circuit of the table. -/
def Dev.inCircuit (d : Dev) (e : Nat) : Bool := d.rtp.circuits.any (fun x => (d.circuitElems x.2).contains e)

/-- The element whose use decides how an element stands: a trimmer stands as the cell that it trims (R26). -/
def FabricMap.served (m : FabricMap) (e : Nat) : Nat :=
  match m.elem e with | some r => if r.kind = 3 then r.assoc else e | none => e

/-- The trimmers of a cell. -/
def FabricMap.trimmersOf (m : FabricMap) (c : Nat) : List Nat :=
  (m.elems.filter (fun e => e.2.kind = 3 && e.2.assoc = c)).map (fun e => e.1)

/-- An element is idle: a drive element that no circuit uses; an adopted element counts as live (R26, R80). -/
def Dev.idleElem (d : Dev) (e : Nat) : Bool :=
  let k := d.rtp.map.kind e
  let u := d.rtp.map.served e
  (k = 1 || k = 2 || k = 3) && !d.inCircuit u && !d.rtp.adopted.any (fun a => a.1 = u) && !d.claimed u

/-- An element is dark-path: it lies on a circuit whose input tap is dark (R26). -/
def Dev.darkPath (d : Dev) (e : Nat) : Bool :=
  d.rtp.circuits.any (fun x => x.2.dark && (d.circuitElems x.2).contains (d.rtp.map.served e))

/-- Economy mode is in force (R26). -/
def Dev.economy (d : Dev) : Bool := d.flag F.thsEconStat_active

/-- Idle elements parked, where economy mode parks them (R26). -/
def Dev.parkIdle (d : Dev) : Dev :=
  if d.economy && d.flag F.thsEconCtrl_parkIdle then
    (d.rtp.map.elems.filter (fun e => d.idleElem e.1)).foldl (fun d e => d.parkElement e.1 true) d
  else d

/-- A schedule entry changed. -/
def Dev.setEntry (d : Dev) (i : Nat) (f : SchedEntry → SchedEntry) : Dev :=
  { d with tbu := { d.tbu with sched := d.tbu.sched.map (fun x => if x.1 = i then (x.1, f x.2) else x) } }

/-! ### Blanked ports (R133) -/

/-- RTP.BLANKED of a port. -/
def Dev.setBlanked (d : Dev) (p : Nat) (v : Bool) : Dev := d.setBitAt (R.rtpBlanked (p / 32)) (p % 32) v

/-- A port is blanked (RTP.BLANKED). -/
def Dev.portBlanked (d : Dev) (p : Nat) : Bool := d.bitAt (R.rtpBlanked (p / 32)) (p % 32)

/-- Some port is blanked. -/
def Dev.anyBlanked (d : Dev) : Bool := (List.range 16).any (fun w => d.regN (R.rtpBlanked w) ≠ 0)

/-- A VOA of a blanked port. -/
def Dev.voaBlanked (d : Dev) (e : Nat) : Bool := (List.range d.rtp.map.ports).any (fun p => d.portBlanked p && d.voaOf p = e)

/-- A VOA that stands at its code for `att_max` with its loop suspended: its port is blanked (R133), or optical safe holds (R389). -/
def Dev.heldAtMax (d : Dev) (e : Nat) : Bool := d.voaBlanked e || (d.flag F.fltState_osafe && decide (d.rtp.map.kind e = 2))

/-- The calibrated insertion loss of a circuit's path under the bank in force (R176). -/
def Dev.pathSum (d : Dev) (c : Circuit) : Frac := ((d.circuitElems c).map d.bank.loss).foldl Frac.add Frac.zero

/-- A circuit becomes live at `t`: the loss of its path is summed (R176). -/
def Dev.goLive (d : Dev) (n t : Nat) (c : Circuit) : Dev := d.setCircuit n { c with state := 2, tLive := t, loss := d.pathSum c }

/-- The ceiling of a port, that which applies from the next frame where one is due (R135). -/
def Dev.ceilingTo (d : Dev) (p : Nat) : Nat := (aget d.rtp.ceilDue p).getD (d.fld (F.rtpCeiling_ceiling p))

/-- A port blanked no longer: the loop of its VOA starts from the `att_max` code, unless optical safe holds it; event 0x0203; source 297 ends
once no port is blanked (R135). In a sluice the VOA takes its code and its loop at the hand-back. -/
def Dev.endBlank (d : Dev) (p : Nat) : Dev :=
  let v := d.voaOf p
  let d1 := d.setBlanked p false
  let x := d1.loop v
  let d2 := if d1.heldAtMax v then d1
    else if x.inSluice then d1.setLoop v { x with susp := { x.susp with blanked := false } }
    else d1.setLoop v { x with susp := { x.susp with blanked := false }, code := d1.attMaxCode v, start := some ⟨d1.attMaxCode v, none⟩ }
  let d3 := { d2 with rtp := { d2.rtp with overs := d2.rtp.overs.filter (fun x => x.1 ≠ p) } }.event 0x0203 p (le 2 (d.ceilingTo p))
  if d3.anyBlanked then d3 else d3.setBitAt (R.fltPresent (297 / 32)) (297 % 32) false

/-- A circuit that becomes free: a blank of its port ends with it (R132, R135). -/
def Dev.releaseCircuit (d : Dev) (n : Nat) : Dev :=
  match d.circuit n with
  | none => d
  | some c => let d1 := d.freeCircuit n; if d1.portBlanked c.outPort then d1.endBlank c.outPort else d1

/-- The effect of a move's final reply on the circuit table (R120, R125, R129): `ok` for DONE and LATE. Circuits in `blank`, and those
whose port is blanked, enter state 4 (R134). A move that ends otherwise after elements of it were changed leaves the paths as those
elements make them, and disturbs what it has disturbed (R129, R134). -/
def Dev.applyMove (d : Dev) (m : Move) (ok : Bool) : Dev :=
  let t := d.tai
  let ran := ok || m.elems.any (fun x => x.started)
  let played := fun (c : Circuit) => m.elems.any (fun x => x.el = d.voaOf c.outPort && x.started && x.phase = 4)
  let d1 := if ran then m.path.foldl (fun d p => match d.circuit p.1 with
    | some c => d.setCircuit p.1 { c with path := p.2 } | none => d) d else d
  let d2 := m.atts.foldl (fun d a => match d.circuit a.1 with
    | some c => if ok || played c then d.setCircuit a.1 { c with att := a.2 } else d
    | none => d) d1
  let d3 := m.sets.foldl (fun d n => match d.circuit n with
    | none => d
    | some c =>
      let c1 := { c with setTag := m.tag }
      if !ok && !m.blank.contains n then d.releaseCircuit n
      else if d.portBlanked c.outPort then d.setCircuit n { c1 with state := 4 }
      else d.goLive n t c1) d2
  let d4 := m.clears.foldl (fun d n => match d.circuit n with
    | none => d
    | some c => if ok then d.releaseCircuit n else d.setCircuit n { c with state := if d.portBlanked c.outPort then 4 else 2 }) d3
  if !ran then d4 else
  m.dist.foldl (fun d n => match d.circuit n with
    | some c => (d.setCircuit n { c with distTag := m.tag, tLive := t }).event 0x0204 n (le 4 m.tag)
    | none => d) d4

/-- A move's final reply: its circuits settle, its claims and its schedule entry are released (R44, R104, R120). -/
def Dev.finishMove (d : Dev) (m : Move) (status : Nat) : Dev :=
  let ok := decide (status = St.done) || decide (status = St.late)
  let d1 := { d with rtp := { d.rtp with moves := d.rtp.moves.filter (fun x => x.oid ≠ m.oid) } }
  let d2 := m.elems.foldl (fun d x => d.resumeLoop x.el) (d1.applyMove m ok)
  (d2.finish m.oid status m.result).parkIdle

/-- A move whose elements have all been handed back or withdrawn completes (R129, R134, R152, R160). -/
def Dev.checkMove (d : Dev) (oid : Nat) : Dev :=
  match d.findMove oid with
  | none => d
  | some m =>
    if m.fire.isSome ∧ !m.deferred ∧ m.elems.all (fun x => decide (4 ≤ x.phase)) then
      d.finishMove m (if m.refused then St.refused else if m.late then St.late else St.done)
    else d

/-- The reading of a port's output tap in 0.01 dBm. -/
def Dev.outReading (d : Dev) (p : Nat) : Int :=
  match d.rtp.map.port p with | some r => centi (d.tapDbm r.outTap) | none => 0

/-- The new setting of an element of a move in force, at its hand-back: a cell's setting, the attenuation of a VOA's circuit, whose path's
loss is summed from now on (R176). -/
def Dev.takeSetting (d : Dev) (oid el : Nat) : Dev :=
  let (k, c, _) := d.moveTarget oid el
  if k = 1 then d.setCell el c
  else match d.findMove oid with
    | none => d
    | some m => m.atts.foldl (fun d a => match d.circuit a.1 with
        | some c => if d.voaOf c.outPort = el then d.setCircuit a.1 { c with att := a.2, loss := d.pathSum c } else d
        | none => d) d

/-- An element handed back to hold (R21), its new setting in force: its loop starts from the last code and takes the setpoint stored
meanwhile (R191); a VOA that a blank holds stays suspended (R134), and a parked element takes code 0 (R26). -/
def Dev.handBack (d : Dev) (oid : Option Nat) (el code : Nat) (err : Option Frac) : Dev :=
  let d0 := d.startLoop el code err
  let x := d0.loop el
  let d1 := d0.setLoop el { x with operand := x.operandDue.getD x.operand, operandDue := none,
                                   susp := { x.susp with blanked := d.heldAtMax el } }
  let d2 := if d.heldAtMax el then d1.blankElement el (d1.attMaxCode el)
    else if x.susp.parked then (d1.setLoop el { d1.loop el with code := 0 }).queueCode el 0 else d1
  match oid with
  | none => d2
  | some o => (d2.movePhase o el 4 true).checkMove o

/-- A move that has not started withdrawn (R485, Table 5-13): claims released, sluice grants dropped, final reply. -/
def Dev.withdrawMove (d : Dev) (m : Move) (status : Nat) : Dev :=
  (d.dropGrants (fun e => m.elems.any (fun x => x.el = e && decide (x.phase ≤ 2)))).finishMove { m with blank := [] } status

/-- An element named by a circuit command leaves the adopted state (Table 5-13). -/
def Dev.unadopt (d : Dev) (e : Nat) : Dev := if d.rtp.adopted.any (fun a => a.1 = e) then d.releaseAdopted e else d

/-- An element leaves economy parking, and its trimmers with it (R28). -/
def Dev.unpark (d : Dev) (e : Nat) : Dev :=
  (d.rtp.map.trimmersOf e).foldl (fun d t => d.parkElement t false) (d.parkElement e false)

/-- The elements that a move needs and does not change: the cells of its circuits' paths that stand as they are. -/
def Move.stands (m : Move) : List Nat :=
  ((m.path.flatMap (fun p => p.2.map (fun h => h.1))).filter (fun e => !m.elems.any (fun x => x.el = e))).eraseDups

/-- The elements of a move made ready as its key fires: they leave the adopted state and economy; the loops of those that it changes wait for
their shape, which plays from code 0 (R28, Table 5-13). -/
def Dev.readyMove (d : Dev) (m : Move) : Dev :=
  let d1 := m.elems.foldl (fun d x => (d.rtp.map.trimmersOf x.el).foldl (fun d t => d.parkElement t false) ((d.unadopt x.el).leavePark x.el)) d
  m.stands.foldl (fun d e => (d.unadopt e).unpark e) d1

/-- A move whose key has fired, or that is unkeyed, begins (R145, R154): its elements wait, and sluices are granted
at this instant. A move with nothing to change completes at once. While TRN.CTRL `en` is 0 it completes with REFUSED. -/
def Dev.beginMove (d : Dev) (oid : Nat) : Dev :=
  match d.findMove oid with
  | none => d
  | some m =>
    if !d.flag F.trnCtrl_en ∧ !m.elems.isEmpty then d.withdrawMove m St.refused
    else
      let els := m.elems.map (fun x => if x.phase = 0 then { x with phase := 1, bracket := d.fireBracket x } else x)
      let d1 := d.setMove { m with fire := some d.now, deferred := false, elems := els }
      let d2 := d1.readyMove m
      (grantRound d.now (startOf d.shift d.now) sluiceNumbers d2).checkMove oid

/-- A move may not begin: economy mode defers it (R26, R27), after a warm restart one of its links is not ready yet (R84), or
after a takeover one of them has not been read back yet (R428). -/
def Dev.mayNotBegin (d : Dev) (m : Move) : Bool :=
  (d.economy && decide (m.keyKind ≠ 2)) || (d.hst.warm && m.elems.any (fun x => !d.linkReady (linkOf x.el))) ||
    m.elems.any (fun x => decide ((d.elink (linkOf x.el)).unread ≠ 0))

/-- A move that may not begin yet is deferred, or completes with TOO_LATE where it is strict (R26, R27). -/
def Dev.fireMove (d : Dev) (oid : Nat) : Dev :=
  match d.findMove oid with
  | none => d
  | some m =>
    if d.mayNotBegin m then
      if m.strict then d.withdrawMove m St.tooLate
      else d.setMove { m with fire := some d.now, deferred := true, late := true }
    else d.beginMove oid

/-- The deferred moves that may begin now begin (R27, R84, R159). -/
def Dev.beginDeferred (d : Dev) : Dev :=
  let wait := (d.rtp.moves.filter (fun m => m.deferred && !d.mayNotBegin m)).map (fun m => m.oid)
  wait.foldl (fun d o => d.beginMove o) d

/-- The VOA of a port held at its code for `att_max`, with its loop suspended (R133, R389). -/
def Dev.holdAtMax (d : Dev) (p : Nat) : Dev := d.blankElement (d.voaOf p) (d.attMaxCode (d.voaOf p))

/-- The circuit of a port that a blank concerns: of a clear and a set on the port in one move, the set (R134). -/
def Dev.blankCircuit (d : Dev) (p : Nat) : Option (Nat × Circuit) :=
  match d.rtp.circuits.find? (fun x => x.2.outPort = p && x.2.state ≠ 3) with
  | some x => some x
  | none => d.rtp.circuits.find? (fun x => x.2.outPort = p)

/-- The move that a blank of circuit `n` on the VOA `v` ends with REFUSED (R134): one that sets the circuit, or changes its attenuation. A clear
of it proceeds. -/
def Dev.blankMove (d : Dev) (v n : Nat) : Option Move :=
  d.rtp.moves.find? (fun m => m.sets.contains n ||
    (m.atts.any (fun a => a.1 = n) && m.elems.any (fun x => x.el = v && decide (x.phase ≤ 3))))

/-- A move that a blank ends with REFUSED: its VOA, where no sluice has begun it, is withdrawn (log entry 138). -/
def Dev.refuseBlanked (d : Dev) (m : Move) (v n : Nat) : Dev :=
  let wait := fun (x : MoveElem) => decide (x.el = v) && decide (x.phase ≤ 2) && !x.started
  let d1 := if m.elems.any wait then d.dropGrants (fun e => e = v) else d
  (d1.setMove { m with refused := true, blank := if m.sets.contains n then m.blank ++ [n] else m.blank,
                       elems := m.elems.map (fun x => if wait x then { x with phase := 5 } else x) }).checkSettled m.oid |>.checkMove m.oid

/-- A port blanked (R133, R134): the circuit in state 2 enters state 4, its VOA is held at `att_max`; a VOA in a
sluice stops at the end of its segment; event 0x0202; a move that sets the circuit or moves its VOA ends with REFUSED. -/
def Dev.blankPort (d : Dev) (p : Nat) (reading : Int) : Dev :=
  let v := d.voaOf p
  let code := d.attMaxCode v
  let d1 := (d.setBlanked p true).event 0x0202 p (le 2 (pattern 16 reading))
  let d2 := match d1.blankCircuit p with
    | some (n, c) => if c.state = 2 then d1.setCircuit n { c with state := 4 } else d1
    | none => d1
  let hold := match d2.sluicesOf v with
    | s :: _ => (d2.setLoop v { d2.loop v with susp := { (d2.loop v).susp with blanked := true } }).stopSluice s (some code)
    | [] => if (d2.loop v).inSluice then
        d2.setLoop v { d2.loop v with code := code, susp := { (d2.loop v).susp with blanked := true } }
      else d2.blankElement v code
  match d2.blankCircuit p with
  | some (n, _) => (match hold.blankMove v n with | some m => hold.refuseBlanked m v n | none => hold)
  | none => hold

/-- The elements of a link that wait for a sluice are withdrawn, and the sluices on it are freed at once; each move
concerned completes with REFUSED once its other elements are handed back (R160). -/
def Dev.linkLostMoves (d : Dev) (l : Nat) : Dev :=
  let hit := d.rtp.moves.filter (fun m => m.elems.any (fun x => linkOf x.el = l && decide (1 ≤ x.phase) && decide (x.phase ≤ 3)))
  let d1 := d.dropGrants (fun e => linkOf e = l)
  let d2 := sluiceNumbers.foldl (fun d s => match (d.sluice s).cur with
    | some g => if g.link = l then
        let x := d.sluice s
        let d1 := ((d.setFlag (F.trnSlFlags_abandoned s) true).bump R.trnAbandonCount).event 0x0303 s
          (le 2 g.el ++ le 4 (d.regN (R.trnSlTag s)))
        let d2 := (d1.setSluice s { ended := x.ended, next := x.next }).leaveSegments g.el
        let d3 := match g.oid with | some o => d2.noteEnd o | none => d2
        (d3.setLoop g.el { d3.loop g.el with inSluice := false }).showSluice s (if x.next.isSome then 2 else 0)
      else d
    | none => d) d1
  let d3 := hit.foldl (fun d m => match d.findMove m.oid with
    | some m => d.setMove { m with refused := true, elems := m.elems.map (fun x =>
        if linkOf x.el = l && decide (1 ≤ x.phase) && decide (x.phase ≤ 3) then { x with phase := 5 } else x) }
    | none => d) d2
  let d4 := { d3 with trn := { d3.trn with rakes := d3.trn.rakes.filter (fun r => linkOf r.el ≠ l) } }
  hit.foldl (fun d m => (d.checkSettled m.oid).checkMove m.oid) d4

/-- Every running sluice and rake stops at the end of its current segment (R150, R389). -/
def Dev.stopAllSluices (d : Dev) (refuse late : Bool) : Dev :=
  sluiceNumbers.foldl (fun d s => match (d.sluice s).cur with
    | some g =>
      let d1 := match g.oid with
        | some o => (match d.findMove o with
          | some m => d.setMove { m with refused := m.refused || refuse, late := m.late || late }
          | none => d)
        | none => d
      d1.stopSluice s none
    | none => d) d

/-- Waiting elements of the moves that have fired withdrawn. -/
def Dev.withdrawWaiting (d : Dev) (refuse late : Bool) : Dev :=
  let ids := (d.rtp.moves.filter (fun m => m.fire.isSome && !m.deferred && m.elems.any (fun x => decide (x.phase ≤ 2) && !x.started))).map (fun m => m.oid)
  let d1 := d.dropGrants (fun _ => true)
  ids.foldl (fun d o => match d.findMove o with
    | some m => (d.setMove { m with refused := m.refused || refuse, late := m.late || late, elems := m.elems.map (fun x =>
        if x.phase ≤ 2 ∧ !x.started then { x with phase := 5 } else x) }).checkSettled o |>.checkMove o
    | none => d) d1

/-- Entry to optical safe (R389, steps 1 to 3): moves whose keys have not fired are refused, sluices stop, every VOA
of the map goes to its code for `att_max`, circuits in state 2 enter state 4. -/
def Dev.opticalSafe (d : Dev) : Dev :=
  let d1 := (d.rtp.moves.filter (fun m => m.fire.isNone || m.deferred)).foldl (fun d m => d.withdrawMove m St.refused) d
  let d2 := { d1 with trn := { d1.trn with rakes := [] } }
  let d3 := (d2.stopAllSluices true false).withdrawWaiting true false
  let voas := (d3.rtp.map.elems.filter (fun e => e.2.kind = 2)).map (fun e => e.1)
  let d4 := voas.foldl (fun d v => match d.sluicesOf v with
    | s :: _ => d.stopSluice s (some (d.attMaxCode v))
    | [] => d.blankElement v (d.attMaxCode v)) d3
  let live := d4.rtp.circuits.filter (fun x => x.2.state = 2)
  let d5 := live.foldl (fun d x =>
    ((d.setCircuit x.1 { x.2 with state := 4 }).setBlanked x.2.outPort true).event 0x0202 x.2.outPort
      (le 2 (pattern 16 (d.outReading x.2.outPort)))) d4
  (d5.rtp.circuits.filter (fun x => x.2.state = 3)).foldl (fun d x => d.setBlanked x.2.outPort true) d5

end Sys2Proof.Machine
end

