-- ==== Sys2Proof/Machine/CalOps.lean ====
section
/-! DEFINITION. Calibration work on the elements (R155, R231, R382): its queue, its admission to the sluices, and its end
where a move or a failure comes first. None of this raises a fault source. -/

namespace Sys2Proof.Machine

/-- A restore requested: it completes later, by frame n + 3 at the latest (R227). -/
def Dev.requestRestore (d : Dev) (el : Nat) : Dev :=
  if (d.loop el).evicted && !d.plm.restores.any (fun r => r.1 = el) then
    { d with plm := { d.plm with restores := d.plm.restores ++ [(el, d.frame)] } }
  else d

/-- An element flagged for calibration (R148: `origin` 2; R371: 1). -/
def Dev.flagElement (d : Dev) (el origin : Nat) : Dev :=
  if d.cal.items.any (fun i => i.el = el) then
    { d with cal := { d.cal with items := d.cal.items.map (fun i => if i.el = el then { i with origin := max i.origin origin } else i) } }
  else { d with cal := { d.cal with items := d.cal.items ++ [{ el := el, origin := origin }] } }

/-- A link marked `foreign` or `provisional` (R371): event 0x0A03, and its switch cells and VOAs queued. -/
def Dev.markLink (d : Dev) (l : Nat) (foreign : Bool) : Dev :=
  let f := if foreign then F.calLinkCal_foreign l else F.calLinkCal_provisional l
  let d1 := (d.setFlag f true).event 0x0A03 l (le 1 (if foreign then 1 else 2))
  (d1.rtp.map.elems.filter (fun e => linkOf e.1 = l && (e.2.kind = 1 || e.2.kind = 2))).foldl (fun d e => d.flagElement e.1 1) d1

/-- The open gaps of an element of a live circuit (R231): opening tick, and closing tick where it is declared. -/
def Dev.openGaps (d : Dev) (el : Nat) : List (Nat × Option Nat) :=
  let mine := d.rtp.circuits.filter (fun x => x.2.state = 2 && (d.circuitElems x.2).contains el)
  if mine.isEmpty then []
  else ((d.cal.gaps.filter (fun g => g.isOpen && (g.link = 0xFF || g.link = linkOf el))).map (fun g => (g.opens, some g.closes))) ++
    (d.cal.detected.filter (fun x => mine.any (fun c => c.1 = x.1 && c.2.dark))).map (fun x => (x.2, none))

/-- The gap in which a step of an element that starts at `st` may run: it has had none there, and the step ends at least
100 µs before a declared gap closes. -/
def Dev.gapFor (d : Dev) (i : CalItem) (st : Nat) : Option Nat :=
  ((d.openGaps i.el).find? (fun g => !i.gaps.contains g.1 && (match g.2 with
    | some c => decide (st + 32 * tickSample + 100 * tickUs ≤ c)
    | none => true))).map (fun g => g.1)

/-- Calibration work of an element is under way: in a sluice, granted, or awaiting its result. -/
def Dev.calUnderWay (d : Dev) (el : Nat) : Bool :=
  d.inSluice el || d.cal.ended.any (fun x => x.el = el) ||
    sluiceNumbers.any (fun s => match (d.sluice s).next with | some g => g.el = el | none => false)

/-- An item may be raked now (R231, R382). -/
def Dev.mayRake (d : Dev) (i : CalItem) : Bool :=
  ((i.job && !i.live) || (decide (i.origin ≠ 0) && d.flag F.calCtrl_autoRake)) && (d.rtp.map.kind i.el = 1 || d.rtp.map.kind i.el = 2) &&
    (d.idleElem i.el || d.darkPath i.el)

/-- An item may take a live step that starts at `st` (R231, R380, R382). -/
def Dev.mayStep (d : Dev) (i : CalItem) (st : Nat) : Bool :=
  ((i.job && i.live) || (decide (i.origin ≠ 0) && d.flag F.calCtrl_autoLive)) && (d.gapFor i st).isSome

/-- What an item asks of the sluices for a start at `st`; none where nothing is allowed. -/
def Dev.calWork (d : Dev) (st : Nat) (i : CalItem) : Option RakeWait :=
  let wanted := fun (live : Bool) => (d.segOf ⟨i.el, if live then stepBracket else rakeBracket, false, 0⟩).map
    (fun n => (⟨i.el, n, 0, live⟩ : RakeWait))
  if !d.flag F.twnStat_claimOut || !d.flag F.calCtrl_en || d.flag F.fltState_osafe || d.claimed i.el || !d.linkReady (linkOf i.el) || d.calUnderWay i.el then none
  else if d.mayRake i then wanted false
  else if d.mayStep i st then wanted true
  else none

/-- The items in the order in which they are granted (R231). -/
def Dev.calOrder (d : Dev) : List CalItem :=
  d.cal.items.filter (fun i => i.origin = 2) ++ d.cal.items.filter (fun i => i.origin ≠ 2)

/-- The rakes and steps that may be granted with start instant `st` (R155, R231); the loop of one that is evicted is first
restored (R227). -/
def Dev.admitCal (d : Dev) (st : Nat) : Dev :=
  let l := d.calOrder.filterMap (d.calWork st)
  let out := l.filter (fun w => (d.loop w.el).evicted)
  let d1 := out.foldl (fun d w => d.requestRestore w.el) d
  { d1 with trn := { d1.trn with rakes := l.filter (fun w => !(d.loop w.el).evicted) } }

/-- The grants of one instant, calibration work included where it is admitted (R154, R155). -/
def Dev.grantNow (d : Dev) : Dev :=
  let st := startOf d.shift d.now
  let d1 := grantRound d.now st sluiceNumbers (d.admitCal st)
  { d1 with trn := { d1.trn with rakes := [] } }

/-- A step begins: the gap that it uses is kept, and its code c1 = c0 ± `live_step`, the sign alternating (R380). -/
def Dev.beginStep (d : Dev) (el c0 st : Nat) : Nat × Dev :=
  match d.cal.items.find? (fun i => i.el = el) with
  | none => (c0, d)
  | some i =>
    let gaps := match d.gapFor i st with | some g => i.gaps ++ [g] | none => i.gaps
    let delta : Int := d.fld F.calLiveCfg_liveStep
    let c1 := clampInt 0 0xFFFF (if i.gaps.length % 2 = 0 then (c0 : Int) + delta else (c0 : Int) - delta)
    (c1.toNat, { d with cal := { d.cal with items := d.cal.items.map (fun x => if x.el = el then { x with gaps := gaps } else x) } })

/-- Rakes and steps of the elements that `p` names stop at the end of their segment, and grants to them are withdrawn
(R150, R384). -/
def Dev.stopCal (d : Dev) (p : Nat → Bool) : Dev :=
  let d1 := sluiceNumbers.foldl (fun d s =>
    let x := d.sluice s
    match x.next with
    | some g => if g.klass = 2 && p g.el then
        let d1 := d.setSluice s { x with next := none }
        if x.cur = none ∧ d.fld (F.trnSlState_state s) = 2 then d1.showSluice s 0 else d1
      else d
    | none => d) d
  sluiceNumbers.foldl (fun d s => match (d.sluice s).cur with
    | some g => if g.klass = 2 && p g.el && !(d.sluice s).stop then d.stopSluice s none else d
    | none => d) d1

/-- The inputs under calibration released on every converter pair (R357). -/
def Dev.releaseInputs (d : Dev) : Dev :=
  (List.range 6).foldl (fun d p =>
    let x := tget (fun _ => ({} : AdcPair)) d.adc.pairs p
    if x.calOid = none then d
    else
      let l := tput (fun _ => ({} : AdcPair)) d.adc.pairs p { x with calInputs := [], calOid := none, calNext := [], calWaits := [] }
      ({ d with adc := { d.adc with pairs := l } }).setFlag (F.adcPairStat_calBusy p) false) d

/-- A running job ends: its queue entries go, its inputs are released. The results that it measured go with it unless it
passed. -/
def Dev.clearJob (d : Dev) (j : CalJob) (pass : Bool) : Dev :=
  let mine := fun (el : Nat) => decide (4 ≤ j.kind) && decide (j.kind ≤ 5) && decide (j.first ≤ el) && decide (el < j.first + j.count)
  let items := (d.cal.items.filter (fun i => i.origin ≠ 0)).map (fun i => { i with job := false, live := false })
  let left := if pass then d.cal.gathered else d.cal.gathered.filter (fun g => !mine g.result.element)
  ({ d with cal := { d.cal with job := none, items := items, gathered := left } }).releaseInputs

/-- The job's outcome told (R377): counted, event 0x0A02, the final reply. -/
def Dev.reportJob (d : Dev) (j : CalJob) (pass : Bool) (result : Bytes) : Dev :=
  let d1 := if pass then d.setFld F.calJobCount_passed (d.fld F.calJobCount_passed + 1)
    else d.setFld F.calJobCount_failed (d.fld F.calJobCount_failed + 1)
  (d1.event 0x0A02 j.kind (le 1 (b2n pass))).finish j.oid (if pass then St.done else St.refused) result

/-- The bank that is not active, left invalid (R372, R384). -/
def Dev.voidInactive (d : Dev) : Dev :=
  if d.flag F.calStat_active then
    (({ d with cal := { d.cal with bankA := { d.cal.bankA with valid := false } } }).setFlag F.calStat_validA false).setRegN R.calIdA 0
  else (({ d with cal := { d.cal with bankB := { d.cal.bankB with valid := false } } }).setFlag F.calStat_validB false).setRegN R.calIdB 0

/-- A running job completes with REFUSED and its bank is not switched to (R383, R384): on a disable, a warm restart, a
change of the unit in control. -/
def Dev.abortJob (d : Dev) : Dev :=
  let d1 := if d.cal.written.isSome then ({ d with cal := { d.cal with written := none } }).voidInactive else d
  match d1.cal.job with
  | none => d1
  | some j => (((if j.kind = 7 then d1 else d1.voidInactive).clearJob j false)).reportJob j false []

/-- The IDENT serial of a link compared with the active bank (R371). -/
def Dev.checkSerial (d : Dev) (l serial : Nat) : Dev :=
  if !d.bank.valid then d
  else
    let head := d.bank.body 1 0
    let d1 := if bit (rd head 4 4) 0 then d.markLink l false else d.setFlag (F.calLinkCal_provisional l) false
    if rd head (8 + 8 * l) 8 = serial then d1.setFlag (F.calLinkCal_foreign l) false else d1.markLink l true

end Sys2Proof.Machine
end

