-- ==== Sys2Proof/Machine/PwmOps.lean ====
section
/-! DEFINITION. Operations of the LV stage (chapter 13): leg states, the raw signal and the gate outputs, staging and
commit, period boundaries, drains and forced disables. None of them raises a fault source. -/

namespace Sys2Proof.Machine

/-- A leg's state beside its registers. -/
def Dev.leg (d : Dev) (l : Nat) : Leg := tget (fun _ => {}) d.pwm.legs l
/-- A leg replaced. -/
def Dev.setLeg (d : Dev) (l : Nat) (x : Leg) : Dev :=
  { d with pwm := { d.pwm with legs := tput (fun _ => {}) d.pwm.legs l x } }

/-- A leg's state of Table 13-2. -/
def Dev.legState (d : Dev) (l : Nat) : Nat := d.fld (F.pwmLegStat_state l)

/-- A leg's LV source: true for `src` 0, the LV-bus loop (Table 13-7). -/
def Dev.legLv (d : Dev) (l : Nat) : Bool := d.fld (F.pwmLegCfg_src l) = 0

/-- A leg put into a state: its bit in PWM.STAT [7:0] follows, and event 0x0802 is published on a change. -/
def Dev.setLegState (d : Dev) (l st : Nat) : Dev :=
  let old := d.legState l
  if old = st then d else
  let d1 := (d.setFld (F.pwmLegStat_state l) st).setFld F.pwmStat_running
    (setBit (d.fld F.pwmStat_running) l (st = 2))
  let off := !d1.flag F.pwmCtrl_en && (List.range 8).all (fun n => d1.legState n = 0)
  (if off then d1.setFld F.pwmStat_drained 255 else d1).event 0x0802 l (le 1 st ++ le 1 old)

/-- The leg's period in force, in ticks (R325). -/
def Dev.legPeriod (d : Dev) (l : Nat) : Nat := d.fld (F.pwmPerAct_v l)

/-- The changes of the raw signal within a period of `t` ticks for a raw high time of `c` ticks, as offsets from the period start
(Table 13-1); `cut` is the low time of a refresh pulse (R323). -/
def rawChanges (mode t c : Nat) (cut : Option (Nat × Nat)) : List (Nat × Bool) :=
  (if c = 0 then [(0, false)] else if t ≤ c then [(0, true)] else match mode with
    | 1 => [(0, false), ((t - c) / 2, true), ((t + c) / 2, false)]
    | 3 => [(0, false), (t - c, true)]
    | _ => [(0, true), (c, false)]) ++
  (match cut with | some (a, b) => [(a, false), (b, true)] | none => [])

/-- The raw signal takes a level at a tick. -/
def RawSignal.take (x : RawSignal) (t : Nat) (v : Bool) : RawSignal := if x.level = v then x else ⟨v, t, x.edge⟩

/-- How much of the period's end a refresh pulse takes (R323). -/
def Dev.refreshLen (d : Dev) (l : Nat) : Nat := d.fld (F.pwmLegMp_bstW l) + d.fld (F.pwmLegDt_dtF l) + d.fld (F.pwmLegDt_dtR l)

/-- The changes of the raw signal in the leg's period in progress. -/
def Dev.legChanges (d : Dev) (l : Nat) : List (Nat × Bool) :=
  let x := d.leg l
  let t := d.legPeriod l
  rawChanges (d.fld (F.pwmLegCfg_mode l)) t x.high (if x.refreshed then some (t - d.refreshLen l, t - d.fld (F.pwmLegDt_dtR l)) else none)

/-- The raw signal of a leg at tick `now` (R318, R319, R323): from `rawFrom` on it follows the period's changes, those that lie before it
at once (R324). -/
def Dev.rawAt (d : Dev) (l now : Nat) : RawSignal :=
  let x := d.leg l
  let ch := d.legChanges l
  let r0 := match (ch.filter (fun e => decide (x.start + e.1 ≤ x.rawFrom))).getLast? with
    | some e => if x.rawFrom ≤ now then x.rawWas.take x.rawFrom e.2 else x.rawWas
    | none => x.rawWas
  (ch.filter (fun e => decide (x.rawFrom < x.start + e.1) && decide (x.start + e.1 ≤ now))).foldl (fun r e => r.take (x.start + e.1) e.2) r0

/-- The raw signal so far kept, before the pair that shapes it changes at tick `t`. -/
def Dev.markRaw (d : Dev) (l t : Nat) : Dev := d.setLeg l { d.leg l with rawWas := d.rawAt l t, rawFrom := t }

/-- The raw high time after minimum-pulse filtering (R322), and whether a pulse was dropped or stretched. -/
def filterPulse (t c dtR dtF minP : Nat) (stretch : Bool) : Nat × Bool × Bool :=
  if c = 0 then (0, false, false)
  else if t ≤ c then (t, false, false)
  else if c < minP + dtR then (if stretch then (min t (minP + dtR), false, true) else (0, true, false))
  else if t - c < minP + dtF then (if stretch then (t - (minP + dtF), false, true) else (t, true, false))
  else (c, false, false)

/-- The gate commands of a running leg (R321): each switch turns on its own dead time after the raw signal's change, and off with the next.
(GATE_HI, GATE_LO). -/
def Dev.gateCommands (d : Dev) (l : Nat) : Bool × Bool :=
  let r := d.rawAt l d.now
  if d.now < (d.leg l).start then (false, false)
  else if r.level then (decide (r.edge + d.fld (F.pwmLegDt_dtR l) ≤ d.now), false)
  else (false, decide (r.edge + d.fld (F.pwmLegDt_dtF l) ≤ d.now))

/-- The outputs of a leg at `now` (Table 13-2, R333, R338, R340): (GATE_HI, GATE_LO). -/
def Dev.gates (d : Dev) (l : Nat) : Bool × Bool :=
  let x := d.leg l
  if d.pwm.gatesOff || !d.flag F.gdpStat_drvEn || !d.flag F.gdpStat_vgdOk then (false, false)
  else match d.legState l with
    | 1 => (false, true)
    | 2 | 3 => let (h, lo) := d.gateCommands l
               (h && !d.flag (F.gdpLegLatch_bstUv l) && decide (x.bstFrom ≤ (d.rawAt l d.now).edge), lo)
    | 5 => (false, false)
    | _ => (x.holdHi && decide (x.holdHiFrom ≤ d.now), x.holdLo && decide (x.holdLoFrom ≤ d.now))

/-- Commands waiting for legs to run that are complete: every leg of the mask is in state 2 (R342). -/
def checkEnables : List (Nat × Nat) → Dev → Dev
  | [], d => d
  | (oid, m) :: r, d =>
    if (bitsOf m 8).all (fun l => d.legState l = 2) then
      checkEnables r (({ d with pwm := { d.pwm with enables := d.pwm.enables.filter (fun e => e.1 ≠ oid) } }).finish oid St.done [])
    else checkEnables r d

/-- Commands waiting for legs to drain that are complete: every leg of the mask is in state 0, or was stopped by a
latch (R343). -/
def checkDisables : List (Nat × Nat) → Dev → Dev
  | [], d => d
  | (oid, m) :: r, d =>
    if (bitsOf m 8).all (fun l => d.legState l = 0 || d.legState l = 4) then
      checkDisables r (({ d with pwm := { d.pwm with disables := d.pwm.disables.filter (fun e => e.1 ≠ oid) } }).finish oid St.done [])
    else checkDisables r d

/-- The waiting LEG_ENABLE commands that name leg `l` end with REFUSED: the leg cannot reach state 2 any more. -/
def Dev.failEnables (d : Dev) (l : Nat) : Dev :=
  let (hit, keep) := d.pwm.enables.partition (fun e => bit e.2 l)
  finishAll St.refused (hit.map (fun e => e.1)) { d with pwm := { d.pwm with enables := keep } }

/-- The running legs with `src` 0, ascending: the LV group (R328). On a standby its legs in shadow form it (R344). -/
def Dev.lvGroup (d : Dev) : List Nat := (List.range 8).filter (fun l => d.legLv l && (d.legState l = 2 || d.legState l = 5))

/-- The offset of ordinal `i` of `n` legs from the leader, for a period of `t` ticks: round(i × T / n) (R328). -/
def groupOffset (i t n : Nat) : Nat := (2 * i * t + n) / (2 * n)

/-- A change of the LV group: it is re-spread at the leader's next period end (R328). -/
def Dev.lvGroupChanged (d : Dev) (l : Nat) : Dev :=
  if d.legLv l then { d with pwm := { d.pwm with respread := true } } else d

/-- The instants from which the safe levels hold: a level of 1 turns no switch on sooner than its own dead time after
the other switch last turned off (R338). -/
def Dev.safeFrom (d : Dev) (l : Nat) : Nat × Nat :=
  let (h, lo) := d.gates l
  let r := d.rawAt l d.now
  let dtR := d.fld (F.pwmLegDt_dtR l)
  let loOff := if lo then d.now else if r.level then r.edge else r.prev
  let hiOff := if h then d.now else if r.level then r.prev else r.edge
  match d.legState l with
  | 2 | 3 => (loOff + dtR, hiOff + d.fld (F.pwmLegDt_dtF l))
  | 1 => (d.now + dtR, d.now)
  | _ => (d.now, d.now)

/-- A leg's outputs driven to given levels while it does not run (R338, R339). -/
def Dev.holdOutputs (d : Dev) (l : Nat) (hi lo : Bool) : Dev :=
  let (a, b) := d.safeFrom l
  d.setLeg l { d.leg l with holdHi := hi, holdLo := lo, holdHiFrom := a, holdLoFrom := b }

/-- A leg stopped at once at its safe levels (R338). -/
def Dev.holdSafe (d : Dev) (l : Nat) : Dev :=
  d.holdOutputs l (d.flag (F.pwmLegCfg_safeHi l)) (d.flag (F.pwmLegCfg_safeLo l))

/-- Forced disable of one leg (R343): safe levels at once, state 0, no latch, no drain. A latched leg keeps its
latch and its state 4, with both outputs off where a comparator or the interlock has latched (R338). -/
def Dev.forceDisable (d : Dev) (l : Nat) : Dev :=
  match d.legState l with
  | 0 => d
  | 4 => if d.regN (R.gdpLegLatch l) % 8 ≠ 0 then d else d.holdSafe l
  | _ =>
    let d1 := ((d.holdSafe l).setLegState l 0).lvGroupChanged l
    let d2 := d1.failEnables l
    checkDisables d2.pwm.disables d2

/-- Forced disable of every leg that `p` names. -/
def Dev.forceDisableWhere (d : Dev) (p : Nat → Bool) : Dev :=
  ((List.range 8).filter p).foldl Dev.forceDisable d

/-- A leg's flag of Table 13-9 set. -/
def Dev.legFlag (d : Dev) (f : FieldRef) : Dev := d.setFlag f true

/-- A pulse of the period in progress dropped or stretched (R322): flagged and counted. -/
def Dev.notePulse (d : Dev) (l : Nat) (drop str : Bool) : Dev :=
  let d1 := if drop then (d.legFlag (F.pwmLegFlags_mpDrop l)).bumpSat (F.pwmLegCount_pulses l) else d
  if str then (d1.legFlag (F.pwmLegFlags_mpStretch l)).bumpSat (F.pwmLegCount_pulses l) else d1

/-- The raw high time that the pair in force gives (R322), with `full` of LEG_STAT. -/
def Dev.shapePulse (d : Dev) (l : Nat) : Dev :=
  let per := d.legPeriod l
  let (c, drop, str) := filterPulse per (d.fld (F.pwmDutyAct_v l)) (d.fld (F.pwmLegDt_dtR l)) (d.fld (F.pwmLegDt_dtF l))
    (d.fld (F.pwmLegMp_minPulse l)) (d.flag (F.pwmLegCfg_mpMode l))
  ((d.setLeg l { d.leg l with high := c }).setFlag (F.pwmLegStat_full l) (decide (per ≤ c))).notePulse l drop str

/-- The pair in force taken for a new period that starts at tick `t` (R322, R329): minimum-pulse filtering, trigger
positions, the 100 % flag. -/
def Dev.beginPeriod (d : Dev) (l t : Nat) : Dev :=
  let per := d.legPeriod l
  let posA := if d.flag (F.pwmTrgA_en l) then some (d.fld (F.pwmTrgA_position l)) else none
  let posB := if d.flag (F.pwmTrgB_en l) then some (d.fld (F.pwmTrgB_position l)) else none
  let miss := (match posA with | some p => decide (per ≤ p) | none => false)
    || (match posB with | some p => decide (per ≤ p) | none => false)
  let d1 := (d.setLeg l { d.leg l with start := t, rawFrom := t, half := false, refreshed := false, trgA := posA, trgB := posB }).shapePulse l
  if miss then d1.legFlag (F.pwmLegFlags_trgMiss l) else d1

/-- The rest of a period after a commit at its middle, tick `t` (R324): a raw edge whose new instant has passed occurs at once. A high pulse
that this ends too soon is stretched to `min_pulse` where `mp_mode` says so (R322). -/
def Dev.shapeRest (d : Dev) (l t : Nat) : Dev :=
  let d1 := d.shapePulse l
  let x := d1.leg l
  let least := d1.fld (F.pwmLegMp_minPulse l) + d1.fld (F.pwmLegDt_dtR l)
  if x.rawWas.level && !(d1.rawAt l t).level && decide (t < x.rawWas.edge + least) then
    if d1.flag (F.pwmLegCfg_mpMode l) then
      let fall := x.rawWas.edge + least - x.start
      let c := if d1.fld (F.pwmLegCfg_mode l) = 1 then 2 * fall - d1.legPeriod l else fall
      (d1.setLeg l { x with high := c }).notePulse l false true
    else d1.notePulse l true false
  else d1

/-- The staged pair made active (R324 to R326) at a boundary at tick `t`, if a commit was registered at least 128
ticks before it. A commit with nothing newly staged changes nothing. -/
def Dev.commitAt (d : Dev) (l t : Nat) : Dev :=
  let x := d.leg l
  match x.pendingAt with
  | none => d
  | some r =>
    if t < r + 128 then d else
    let d0 := (d.setLeg l { x with pendingAt := x.pendingLate, pendingLate := none }).setBitAt R.pwmCommit l x.pendingLate.isSome
    if !(x.perNew || x.cmpNew) then d0 else
    let split := x.perNew && !x.cmpNew && decide (x.cmpAt < x.commits) && !d.legLv l
    let per := d.fld (F.pwmPerStg_v l)
    let d1 := ((d0.setFld (F.pwmPerAct_v l) per).setFld (F.pwmDutyAct_v l) (d.fld (F.pwmDutyStg_v l))).setLeg l
      { x with pendingAt := x.pendingLate, pendingLate := none, perNew := false, cmpNew := false, commits := x.commits + 1 }
    let d2 := d1.setFld (F.pwmLegCount_commits l) (d1.fld (F.pwmLegCount_commits l) + 1)
    if split then (d2.legFlag (F.pwmLegFlags_pairSplit l)).event 0x0803 l (le 4 per) else d2

/-- The tick at which the current period of a leg ends (R328): in modes 2 and 3 a leg of the LV group that is not its leader ends it when
the leader has completed i / n of its own. -/
def Dev.periodEnd (d : Dev) (l : Nat) : Nat :=
  let x := d.leg l
  let own := x.realign.getD (x.start + d.legPeriod l)
  let i := d.fld (F.pwmLegStat_ordinal l)
  match d.lvGroup with
  | g :: r =>
    if 2 ≤ d.fld (F.pwmLegCfg_mode l) ∧ i ≠ 0 ∧ r.contains l then
      let t := d.legPeriod g
      let p := (d.leg g).start + groupOffset i t (r.length + 1)
      if x.start < p then p else p + t
    else own
  | [] => own

/-- The refresh pulse of R323: `bst_ref` sets and the count of periods without a low-side pulse starts again. -/
def Dev.refreshPulse (d : Dev) (l : Nat) : Dev :=
  ((d.setLeg l { d.leg l with refreshed := true }).legFlag (F.pwmLegFlags_bstRef l)).setFld (F.pwmLegStat_noLo l) 0

/-- The count of periods in a row without a low-side pulse at a period end (R323). -/
def Dev.countFullPeriod (d : Dev) (l : Nat) : Dev :=
  let x := d.leg l
  if x.refreshed then d
  else if d.legPeriod l ≤ x.high then
    if d.fld (F.pwmLegCfg_bstN l) ≤ d.fld (F.pwmLegStat_noLo l) + 1 then d.refreshPulse l
    else d.addSat (F.pwmLegStat_noLo l) 1
  else d.setFld (F.pwmLegStat_noLo l) 0

/-- Ordinals and offsets of the LV group given anew at the leader's period start `t` (R328); in modes 2 and 3 the offsets follow the leader
in every period (`periodEnd`). -/
def spreadGroup (t per n : Nat) : Nat → List Nat → Dev → Dev
  | _, [], d => d
  | i, l :: r, d =>
    let d1 := d.setFld (F.pwmLegStat_ordinal l) i
    let d2 := if i = 0 ∨ 2 ≤ d.fld (F.pwmLegCfg_mode l) then d1 else d1.setLeg l { d1.leg l with realign := some (t + groupOffset i per n) }
    spreadGroup t per n (i + 1) r d2

/-- A leg at its period end, tick `t`: drain completes, a commit takes effect, the next period starts (R323, R324,
R328, R343). -/
def Dev.legPeriodEnd (d : Dev) (l t : Nat) : Dev :=
  let d1 := d.countFullPeriod l
  if d.legState l = 3 then
    let d2 := (d1.setLeg l { d1.leg l with holdHi := false, holdLo := false, realign := none }).setLegState l 0
    let d3 := d2.setFld F.pwmStat_drained (setBit (d2.fld F.pwmStat_drained) l true)
    checkDisables d3.pwm.disables d3
  else
    let d1 := d1.markRaw l t
    let d2 := if d.fld (F.pwmLegCfg_upd l) = 0 then d1.commitAt l t else d1
    let d3 := (d2.setLeg l { d2.leg l with realign := none }).beginPeriod l t
    match d3.lvGroup with
    | g :: rest =>
      if g = l && d3.pwm.respread then
        spreadGroup t (d3.legPeriod l) (rest.length + 1) 0 (g :: rest) { d3 with pwm := { d3.pwm with respread := false } }
      else d3
    | [] => d3

/-- A leg at its mid-period boundary, tick `t` (R324): the rest of the period follows a committed pair. -/
def Dev.legMid (d : Dev) (l t : Nat) : Dev :=
  let d1 := d.setLeg l { d.leg l with half := true }
  if d.fld (F.pwmLegCfg_upd l) = 1 then
    let d2 := (d1.markRaw l t).commitAt l t
    if (d2.leg l).commits = (d1.leg l).commits then d1.commitAt l t else d2.shapeRest l t
  else d1

/-- The next boundary of the leg's `upd` kind (R324). -/
def Dev.commitBoundary (d : Dev) (l : Nat) : Nat :=
  let x := d.leg l
  if d.fld (F.pwmLegCfg_upd l) = 0 then d.periodEnd l
  else if x.half then d.periodEnd l + d.legPeriod l / 2 else x.start + d.legPeriod l / 2

/-- A commit registered for a leg (R325): a second one for the same boundary merges and sets `merged`; one that comes less than 128 ticks
before a boundary for which another waits is for the boundary after it (R324). A draining leg takes none (R343). -/
def Dev.registerCommit (d : Dev) (l : Nat) : Dev :=
  let x := d.leg l
  let b := d.commitBoundary l
  if d.legState l = 3 then d else
  match x.pendingAt with
  | some r =>
    if r + 128 ≤ b ∧ b < d.now + 128 ∧ x.pendingLate = none then d.setLeg l { x with pendingLate := some d.now }
    else d.legFlag (F.pwmLegFlags_merged l)
  | none => (d.setLeg l { x with pendingAt := some d.now }).setBitAt R.pwmCommit l true

/-- The duty fraction d of the LV-bus lane staged on a leg with `src` 0 (R319, R327), to be committed at the next
period end. -/
def Dev.stageDuty (d : Dev) (f : Frac) (l : Nat) : Dev :=
  let mode := d.fld (F.pwmLegCfg_mode l)
  let lo := 8 * d.fld (F.pwmLegLim_perMin l)
  let hi := 8 * d.fld (F.pwmLegLim_perMax l)
  let fix : Frac := Frac.ofInt (d.fld (F.pwmLegFix_tFix l))
  let du := Frac.clamp Frac.zero Frac.one f
  let x := d.leg l
  let (per, cmp) : Nat × Nat :=
    if mode < 2 then
      let t := d.fld (F.pwmPerStg_v l)
      (t, (Frac.round (Frac.mul du (Frac.ofInt t))).toNat)
    else
      let q := if mode = 2 then du else Frac.sub Frac.one du
      if q.num = 0 then (hi, if mode = 2 then 0 else hi)
      else
        let raw := (Frac.round (Frac.div fix q)).toNat
        let t := max lo (min hi raw)
        let on := (Frac.round (Frac.mul du (Frac.ofInt t))).toNat
        if t = raw then (t, if mode = 2 then d.fld (F.pwmLegFix_tFix l) else t - d.fld (F.pwmLegFix_tFix l))
        else (t, on)
  let d1 := (d.setFld (F.pwmPerStg_v l) per).setFld (F.pwmDutyStg_v l) cmp
  d1.setLeg l { x with perNew := true, cmpNew := true, perAt := x.commits, cmpAt := x.commits, pendingAt := some d.now }

/-- Disable of a leg (R343): a running leg drains, a leg in pre-charge or in shadow stops at once. -/
def Dev.disableLeg (d : Dev) (l : Nat) : Dev :=
  match d.legState l with
  | 2 => ((d.setLegState l 3).lvGroupChanged l).failEnables l
  | 1 | 5 =>
    let d1 := (d.setLeg l { d.leg l with holdHi := false, holdLo := false }).setLegState l 0
    let d2 := d1.setFld F.pwmStat_drained (setBit (d1.fld F.pwmStat_drained) l true)
    d2.failEnables l
  | _ => d

end Sys2Proof.Machine
end

