-- ==== Sys2Proof/Machine/CmuOps.lean ====
section
/-! DEFINITION. Operations of the cell link and the cell modulation unit that a fault reaction needs too: stages,
sets, cells in service, the trip of R314 and BRK_TRIP (R315). None of them raises a fault source. -/

namespace Sys2Proof.Machine

/-- A cell's state. -/
def Dev.cellNode (d : Dev) (n : Nat) : CellNode := tget (fun _ => {}) d.cln.cells n
/-- A cell's state replaced. -/
def Dev.setCellNode (d : Dev) (n : Nat) (x : CellNode) : Dev :=
  { d with cln := { d.cln with cells := tput (fun _ => {}) d.cln.cells n x } }
/-- A chain's state. -/
def Dev.chain (d : Dev) (c : Nat) : Chain := tget (fun _ => {}) d.cln.chains c
/-- A chain's state replaced. -/
def Dev.setChain (d : Dev) (c : Nat) (x : Chain) : Dev :=
  { d with cln := { d.cln with chains := tput (fun _ => {}) d.cln.chains c x } }

/-- The SST stage (Table 12-14). -/
def Dev.stage (d : Dev) : Nat := d.fld F.cmuSstStat_stage

/-- The period length in ticks. -/
def Dev.periodTicks (d : Dev) : Nat := d.cmu.period * tickFrame

/-- The tick of S(k + 1): P after S(k), on the frame strobe there (R22, R411). -/
def Dev.nextStart (d : Dev) : Nat := d.strobeFrom (d.cmu.start + d.periodTicks)

/-- An instant of the control period: `pct` per cent of P after S(k), rounded down to whole timebase counts (R23). -/
def Dev.periodInstant (d : Dev) (pct : Nat) : Nat := d.cmu.start + d.cmu.period * 1000 * pct / 100 * tickCount

/-- The stage changed, with event 0x0720 (Table 12-12). -/
def Dev.setStage (d : Dev) (st : Nat) : Dev :=
  let old := d.stage
  if old = st then d else
  let d1 := d.setFld F.cmuSstStat_stage st
  let lanes := if st = 0 ∨ st = 10 then [] else d.cmu.lanes
  ({ d1 with cmu := { d1.cmu with stageAt := d.now, within := 0, lanes := lanes } }).event 0x0720 0 (le 1 st ++ le 1 old)

/-- The cells of chain `c`, by global number. -/
def Dev.chainCells (d : Dev) (c : Nat) : List Nat :=
  (List.range (d.fld (F.clnChainCfg_nCells c))).map (fun i => d.fld (F.clnChainCfg_base c) + i)

/-- The chain and position of a cell, from the configuration of the enabled chains (R265). -/
def Dev.cellPlace (d : Dev) (n : Nat) : Option (Nat × Nat) :=
  match (List.range 8).find? (fun c => d.bitAt R.clnChainEn c && decide (d.fld (F.clnChainCfg_base c) ≤ n)
      && decide (n < d.fld (F.clnChainCfg_base c) + d.fld (F.clnChainCfg_nCells c))) with
  | some c => some (c, n - d.fld (F.clnChainCfg_base c))
  | none => none

/-- The cells that an enabled chain holds. -/
def Dev.configuredCells (d : Dev) : List Nat := (List.range 48).filter (fun n => (d.cellPlace n).isSome)

/-- The cells in service, ascending (R298): `svc` 0 in CMU.CELL_SVC and on an enabled chain. -/
def Dev.inService (d : Dev) : List Nat := d.configuredCells.filter (fun n => d.fld (F.cmuCellSvc_svc n) = 0)

/-- `n_svc` brought up to date (Table 12-14). -/
def Dev.countService (d : Dev) : Dev := d.setFld F.cmuSstStat_nSvc d.inService.length

/-- A command for a cell, to be sent in the next command window (R276). -/
def Dev.queueCellCmd (d : Dev) (n op tAct : Nat) (oid : Option Nat) : Dev :=
  let x := d.cellNode n
  d.setCellNode n { x with waiting := x.waiting ++ [⟨op, tAct, oid⟩] }

/-- The same command for several cells. -/
def queueAll (op tAct : Nat) (l : List Nat) (d : Dev) : Dev := l.foldl (fun d n => d.queueCellCmd n op tAct none) d

/-- The ports of a chain (R265). -/
def Dev.chainPorts (d : Dev) (c : Nat) : List Nat :=
  if d.fld (F.clnChainCfg_wiring c) = 1 then [c, d.fld (F.clnChainCfg_ret c)] else [c]

/-- A port reaches side B of its chain (R265): the return port of a ring, and every port of unit 1 of a pair (log entry 80). -/
def Dev.fromB (d : Dev) (c port : Nat) : Bool :=
  decide (port ≠ c) || (decide (d.fld (F.clnChainCfg_wiring c) = 2) && d.flag F.twnStat_unitId)

/-- The distance of position `pos` from the end of the chain at a port (R268). -/
def Dev.distance (d : Dev) (c port pos : Nat) : Nat :=
  if d.fromB c port then d.fld (F.clnChainCfg_nCells c) - 1 - pos else pos

/-- The port of a chain that a cell's records leave by, and its distance from there: port c, or the return port of a ring where port c
has lost sync or the ring is broken before the cell (R265, R285). -/
def Dev.chainPort (d : Dev) (c pos : Nat) : Nat × Nat :=
  let ret := d.fld (F.clnChainCfg_ret c)
  let x := (d.chain c).lostPorts
  let cut := d.flag (F.clnChainStat_broken c) && decide (d.fld (F.clnChainStat_brkPos c) < pos)
  let p := if d.fld (F.clnChainCfg_wiring c) = 1 && (bit x c || (cut && !bit x ret)) then ret else c
  (p, d.distance c p pos)

/-- The records sent on a port. -/
def Dev.sentOn (d : Dev) (port : Nat) : Nat := tget (fun _ => 0) d.cln.sent port

/-- A record sent on a port of the cell link, and counted (Table 11-2). -/
def Dev.sendCell (d : Dev) (port kind : Nat) (fields : List Nat) : Dev :=
  { d with cln := { d.cln with sent := tput (fun _ => 0) d.cln.sent port ((d.sentOn port + 1) % 2 ^ 32) } }.send (.cell port kind fields)

/-- The number of a chain's next CMD record, taken (R278). -/
def Dev.nextCseq (d : Dev) (c : Nat) : Nat × Dev :=
  let q := ((d.chain c).cseq + 1) % 2 ^ 32
  (q, d.setChain c { d.chain c with cseq := q })

/-- A CMD record to a cell waits for its ACK (R278). -/
def Dev.awaitAck (d : Dev) (n : Nat) (x : CellCmd) : Dev :=
  d.setCellNode n { d.cellNode n with cmds := (d.cellNode n).cmds ++ [x] }

/-- A CMD record sent to one cell (R277, R278). -/
def Dev.sendCellCmd (d : Dev) (n : Nat) (w : CellCmdWait) : Dev :=
  match d.cellPlace n with
  | none => d
  | some (c, pos) =>
    let (q, d1) := d.nextCseq c
    let (port, dest) := d.chainPort c pos
    (d1.sendCell port 0x13 [dest, q, w.op, w.tAct]).awaitAck n ⟨q, w.op, w.tAct, d.cmu.k, 0, w.oid⟩

/-- BLOCK sent with `dest` 0xFF to every cell of every chain in state 4, on every port of the chain (R304, R314). -/
def Dev.blockAll (d : Dev) (tAct : Nat) : Dev :=
  ((List.range 8).filter (fun c => d.fld (F.clnChainStat_state c) = 4)).foldl (fun d c =>
    let (q, d1) := d.nextCseq c
    let d2 := (d.chainPorts c).foldl (fun d p => d.sendCell p 0x13 [0xFF, q, 0x01, tAct]) d1
    (d.chainCells c).foldl (fun d n => d.awaitAck n ⟨q, 0x01, tAct, d.cmu.k, 0, none⟩) d2) d

/-- BRK_TRIP asserted for latch `src` of Table 12-17 (8: a class 5 reaction, 9: no period start), with event 0x0724
(R315). In a twin pair only the unit whose CLAIM_OUT is high asserts it. -/
def Dev.assertBrk (d : Dev) (src : Nat) : Dev :=
  if d.fld F.twnCtrl_mode = 1 ∧ !d.flag F.twnStat_claimOut then d
  else if d.flag F.cmuProtStat_brk then
    { d with cmu := { d.cmu with brkSource := some (d.cmu.brkSource.getD src) } }
  else
    let d1 := d.setFlag F.cmuProtStat_brk true
    ({ d1 with cmu := { d1.cmu with brkAt := d.now, brkSource := some src } }).event 0x0724 0 (le 1 1)

/-- A start that fails (R303): cause 1 limit, 2 catenary lost, 3 trip, 4 SST_STOP. Every cell is sent BLOCK and the
LV legs are forced off at the next period start (R343; DEDUCED, log entry 142); the stage returns to 0, or to 10 after a trip. -/
def Dev.failStart (d : Dev) (cause : Nat) : Dev :=
  match d.cmu.startCmd with
  | none => d
  | some (oid, _) =>
    let stg := d.stage
    let d1 := ({ d with cmu := { d.cmu with startCmd := none, vdcRamp := none, voutRamp := none, lvRamp := none } }).finish oid St.refused (le 1 stg ++ le 1 cause)
    if cause = 3 then d1
    else
      let d2 := queueAll 0x01 0 d1.configuredCells d1
      { d2 with cmu := { d2.cmu with legsOff := true } }.setStage 0

/-- The trip of R314: stage 10, BLOCK to all cells in the command window of this period if it is still open and
otherwise of the next one, and the legs with `src` 0 forced off at once (R343). A stopped or tripped SST stays as it
is. -/
def Dev.sstTrip (d : Dev) : Dev :=
  if d.stage = 0 ∨ d.stage = 10 then d else
  let d1 := d.failStart 3
  let d2 := d1.setStage 10
  let open_ := decide (d.periodInstant 30 ≤ d.now) && decide (d.now < d.periodInstant 55)
  let due := if open_ then none else some (if d.now < d.periodInstant 30 then d.cmu.k else d.cmu.k + 1)
  let d3 := { d2 with cmu := { d2.cmu with blockDue := due, coasts := [], coastFrom := none, rRamp := none, rHold := false,
                                            vdcRamp := none, voutRamp := none, lvRamp := none, neutralTrigger := false,
                                            nextSet := none } }
  let d4 := if open_ then d3.blockAll 0 else d3
  let d5 := match d.cmu.stopOid with
    | some o => ({ d4 with cmu := { d4.cmu with stopOid := none } }).finish o St.refused []
    | none => d4
  (d5.setFlag F.cmuSstStat_ramping false).forceDisableWhere (fun l => d.legLv l)

/-- Stage 10 returns to 0 once every latch of CMU.PROT_STAT [6:0] is clear (R314) and the BLOCK of the trip has been sent. -/
def Dev.leaveTrip (d : Dev) : Dev :=
  if d.stage = 10 ∧ d.regN R.cmuProtStat % 128 = 0 ∧ d.cmu.blockDue = none then d.setStage 0 else d

end Sys2Proof.Machine
end

