-- ==== Sys2Proof/Machine/TwnOps.lean ====
section
/-! DEFINITION. Roles of a twin pair (R414 to R418, R423 to R425): yielding, withdrawing, claiming, and the causes of
ineligibility. None of them raises a fault source. -/

namespace Sys2Proof.Machine

/-- This unit's number. -/
def Dev.unit (d : Dev) : Nat := d.fld F.twnStat_unitId

/-- This unit's term. -/
def Dev.term (d : Dev) : Nat := d.fld F.twnStat_term

/-- Twin operation is selected (TWN.CTRL `mode`). -/
def Dev.twinMode (d : Dev) : Bool := d.flag F.twnCtrl_mode

/-- `a` is above `b` in the serial arithmetic of 16 bits (R260). -/
def serialLt (b a : Nat) : Bool :=
  let x := (a + 65536 - b) % 65536
  decide (0 < x) && decide (x < 32768)

/-- A rank (claim, term, unit) is above another (R260, R279). -/
def outranks (t u t2 u2 : Nat) : Bool := serialLt t2 t || (decide (t = t2) && decide (u < u2))

/-- This unit claims: CLAIM_OUT is high. -/
def Dev.claims (d : Dev) : Bool := d.flag F.twnStat_claimOut

/-- The role changed, with event 0x0C01 (Table 17-8); cause: 1 start, 2 yield, 3 silence, 4 withdrawal. -/
def Dev.setRole (d : Dev) (role cause : Nat) : Dev :=
  if d.fld F.twnStat_role = role then d else
  (d.setFld F.twnStat_role role).event 0x0C01 d.unit (le 1 role ++ le 1 cause ++ le 2 d.term)

/-- `eligible` and event 0x0C02 after a change of the causes (R424). -/
def Dev.setElig (d : Dev) (causes : Nat) : Dev :=
  let old := d.regN R.twnElig
  if old = causes then d else
  let d1 := (d.setRegN R.twnElig causes).setFlag F.twnStat_eligible (d.standby && decide (causes = 0))
  if (old = 0) ≠ (causes = 0) then d1.event 0x0C02 d.unit (le 4 causes) else d1

/-- One cause of ineligibility set or cleared (Table 17-5). -/
def Dev.setCause (d : Dev) (i : Nat) (v : Bool) : Dev := d.setElig (setBit (d.regN R.twnElig) i v)

/-- The identity of the active calibration bank (Tables 15-10, 17-2). -/
def Dev.calIdent (d : Dev) : Nat := d.regN (if d.flag F.calStat_active then R.calIdB else R.calIdA)

/-- The booted firmware's version (chapter 03). -/
def Dev.firmware (d : Dev) : Nat := match d.hst.image with | some i => i.version % 2 ^ 32 | none => 0

/-- A YIELD record (Table 17-2). -/
def twinYield : Nat := 7
/-- A HEARTBEAT record. -/
def twinHeartbeat : Nat := 1
/-- A DIGEST record. -/
def twinDigest : Nat := 2
/-- A MACK record. -/
def twinMack : Nat := 5

/-- What a unit that gives up control stops (R417): sluices and trios, with the moves whose keys have fired left to the
peer (R428), and its legs, which go on in shadow (R344). -/
def Dev.stopControl (d : Dev) : Dev :=
  let fired := (d.rtp.moves.filter (fun m => m.fire.isSome)).map (fun m => m.oid)
  let d1 := sluiceNumbers.foldl (fun d s =>
    let x := d.sluice s
    let els := x.ended ++ (match x.cur with | some g => [g.el] | none => [])
    let d1 := els.foldl (fun d e => d.setLoop e { d.loop e with inSluice := false }) d
    if x.cur = none ∧ x.next = none ∧ x.ended = [] then d else
    (d1.setSluice s { d1.sluice s with cur := none, next := none, stop := false, jump := none, stalledAt := none,
                                       ended := [] }).showSluice s 0) d
  let d2 := { d1 with rtp := { d1.rtp with moves := d1.rtp.moves.filter (fun m => !fired.contains m.oid) },
                      cpx := { d1.cpx with opened := d1.cpx.opened.filter (fun o => !fired.contains o.oid) } }
  let d3 := fired.foldl Dev.releaseSched d2
  (List.range 8).foldl (fun d l =>
    if d.legState l = 1 ∨ d.legState l = 2 ∨ d.legState l = 3 then d.setLegState l 5 else d) d3

/-- CLAIM_OUT falls and the unit becomes the standby (R417, R418); cause as in event 0x0C01. -/
def Dev.dropClaim (d : Dev) (cause : Nat) : Dev :=
  let d1 := ((d.setFlag F.twnStat_claimOut false).abortJob).stopControl
  let d2 := { (d1.setRole 2 cause).setFlag F.twnStat_eligible false with twn := { d1.twn with switchAt := none, mapplied := d1.twn.peerMseq, fapplied := 0, fwdPart := [], mirrorSent := [] } }
  d2.setFlag F.twnStat_peerEligible false

/-- The unit yields (R417). -/
def Dev.yield (d : Dev) : Dev :=
  let d1 := d.dropClaim 2
  ({ d1 with twn := { d1.twn with yielding := true } }).send (.twin twinYield [d.term])

/-- The unit withdraws (R418): event 0x0C03 with the peer's term; it resynchronises as standby. -/
def Dev.withdraw (d : Dev) (peerTerm : Nat) : Dev :=
  if !d.claims then d else
  let d1 := (d.dropClaim 4).event 0x0C03 d.unit (le 2 peerTerm)
  ({ d1 with twn := { d1.twn with resync := 1 } }).setCause 0 true

/-- What a claim takes over from the peer (R425, R428): its moves, its keyed commands and its start of the SST have no requester here, those that had started are planned again
once their codes are read back, and no code goes out for a channel until then. -/
def Dev.inheritWork (d : Dev) : Dev :=
  let known := fun (oid : Nat) => d.twn.inherited.any (fun x => x.1 = oid)
  let fromPeer := fun (oid : Nat) => (d.findOpen oid).isNone && !known oid
  let moves0 := (d.rtp.moves.filter (fun m => fromPeer m.oid)).map (fun m => (m.oid, m.tag, m.entry.getD 0xFFFF))
  let keyed := (d.tbu.sched.filter (fun e => fromPeer e.2.oid && !d.rtp.moves.any (fun m => m.oid = e.2.oid))).map (fun e => (e.2.oid, e.2.tag, e.1))
  let starts := match d.cmu.startCmd with
    | some (o, _) => if fromPeer o then [(o, d.twn.startTag, 0xFFFF)] else []
    | none => []
  let mine := moves0 ++ keyed ++ starts
  let moves := d.rtp.moves.map (fun m => if m.fire.isSome then
      { m with deferred := true, late := true, elems := m.elems.map (fun x => if x.phase ≤ 3 then { x with phase := 1, started := false } else x) }
    else m)
  let links := (List.range 32).filter (fun l => d.fld (F.elkLinkStat_state l) = 6)
  let d1 := { d with twn := { d.twn with inherited := d.twn.inherited ++ mine, switchAt := some (d.strobeFrom (d.now + 1250 * tickNs)) },
                     rtp := { d.rtp with moves := moves } }
  links.foldl (fun d l => d.setElink l { d.elink l with unread := 2 ^ (d.elink l).channels - 1 }) d1

/-- A claim (R414, R416, R425): the term rises, CLAIM_OUT rises, the event counter is moved on under R110, legs in state 5 enter
state 2; the read-back of every channel begins at the switching strobe, the first at least 1.25 µs ahead (Table 17-6). -/
def Dev.claim (d : Dev) (cause : Nat) : Dev :=
  let wasStandby := d.standby
  let own := d.term
  let peer := d.fld F.twnPeer_term
  let t := if d.twinMode then ((if serialLt own peer then peer else own) + 1) % 65536 else own
  let degraded := d.twinMode && wasStandby && decide (cause = 3) && decide (d.regN R.twnElig ≠ 0)
  let d1 := ((d.setFld F.twnStat_term t).setFlag F.twnStat_claimOut true).setFlag F.twnStat_degraded degraded
  let d2 := d1.addSat F.twnHbMiss_claims 1
  let ev := if d.twinMode then (max d.tbu.evseq d.twn.peerEvseq + 2 ^ 32) % 2 ^ 64 else d.tbu.evseq
  let twn := { d2.twn with yielding := false, peerYield := false, resync := 0, gapFrom := none, yieldOids := [], fseq := 0,
                           mseq := if wasStandby then d2.twn.mapplied else d2.twn.mseq }
  let d3 := { d2 with tbu := { d2.tbu with evseq := ev }, twn := twn }
  let d4 := (d3.setRole 1 cause).setFlag F.twnStat_eligible false
  let d5 := (List.range 8).foldl (fun d l => if d.legState l = 5 then (d.setLegState l 2).lvGroupChanged l else d) d4
  let d6 := if wasStandby then (d5.abortJob).inheritWork else d5
  d.twn.yieldOids.foldl (fun d o => d.finish o St.done (le 2 t)) d6

end Sys2Proof.Machine
end

