-- ==== Sys2Proof/Machine/Flt.lean ====
section
/-! DEFINITION. The fault collector (chapter 16): sources, reaction states, FAULT_O and ALIVE_P. Everything that
detects a condition calls `raise`, `raiseLevel` or `clearLevel` here; the reactions call the operations of the other
subsystems, which raise nothing. -/

namespace Sys2Proof.Machine

/-- Number of fault sources (R385). -/
def sourceCount : Nat := 423

/-- A source's sticky bit. -/
def Dev.sticky (d : Dev) (s : Nat) : Bool := d.bitAt (R.fltSticky (s / 32)) (s % 32)
/-- A source's sticky bit changed. -/
def Dev.setSticky (d : Dev) (s : Nat) (v : Bool) : Dev := d.setBitAt (R.fltSticky (s / 32)) (s % 32) v
/-- A source's condition is present. -/
def Dev.present (d : Dev) (s : Nat) : Bool := d.bitAt (R.fltPresent (s / 32)) (s % 32)
/-- A source's present bit changed. -/
def Dev.setPresent (d : Dev) (s : Nat) (v : Bool) : Dev := d.setBitAt (R.fltPresent (s / 32)) (s % 32) v

/-- The class a source is mapped to (R397). -/
def Dev.sourceClass (d : Dev) (s : Nat) : Nat := d.fld (F.fltClass_class s)

/-- Some sticky bit is mapped to a class of the list (R387). -/
def Dev.stickyOfClass (d : Dev) (cs : List Nat) : Bool :=
  (List.range sourceCount).any (fun s => d.sticky s && cs.contains (d.sourceClass s))

/-- Event 0x0B02 with FLT.STATE [7:0]. -/
def Dev.stateEvent (d : Dev) : Dev := d.event 0x0B02 0 (le 1 (d.regN R.fltState % 256))

/-- FAULT_O asserted on entry to optical safe or device safe, for at least 100 µs from now (R394). A release that
waits is withdrawn with REFUSED. -/
def Dev.assertFaultO (d : Dev) : Dev :=
  let d0 := { d with flt := { d.flt with holdUntil := d.now + 100 * tickUs } }
  let d1 := if d0.flag F.fltState_faultO then d0 else (d0.setFlag F.fltState_faultO true).event 0x0B03 0 (le 1 1)
  finishAll St.refused d1.flt.release { d1 with flt := { d1.flt with release := [] } }

/-- ALIVE_P stopped or resumed (R395): it stops on power safe or device safe, and runs again once neither is in force
and no latch of CMU.PROT_STAT is set; it first toggles once `flt` is set and sources 302 and 404 to 411 are absent. -/
def Dev.updateAlive (d : Dev) : Dev :=
  let stop := d.flag F.fltState_psafe || d.flag F.fltState_dsafe
  if d.flag F.fltState_alive then
    if stop then (d.setFlag F.fltState_alive false).event 0x0B04 0 (le 1 0) else d
  else
    let first := d.flt.aliveOnce || (d.flag F.cpxReady1_flt && !d.present 302 && !(List.range 8).any (fun i => d.present (404 + i)))
    if !stop && first && d.regN R.cmuProtStat % 128 = 0 then
      ({ d with flt := { d.flt with aliveOnce := true } }.setFlag F.fltState_alive true).event 0x0B04 0 (le 1 1)
    else d

/-- Entry to power safe (R391): the SST trips, every leg is forced off, ALIVE_P stops. The local trip of a source has
asserted BRK_TRIP where CMU.BRK_CFG says so. -/
def Dev.powerSafe (d : Dev) : Dev := (d.sstTrip).forceDisableWhere (fun _ => true)

/-- The optical-safe and power-safe states brought up to date with the sticky bits, the mapping and device safe
(R387, R392): entered, with the actions of R389 and R391 unless a device safe has handed control over, or left. Event
0x0B02 on a change, or where `changed` says that device safe was entered. -/
def Dev.updateStates (d : Dev) (changed : Bool := false) : Dev :=
  let own := d.flag F.fltState_dsafe && !d.flt.handedOver
  let os := d.stickyOfClass [2, 5] || own
  let ps := d.stickyOfClass [3, 5] || own
  let was := (d.flag F.fltState_osafe, d.flag F.fltState_psafe)
  let d1 := (d.setFlag F.fltState_osafe os).setFlag F.fltState_psafe ps
  let d2 := if os && !was.1 then (if d1.flt.handedOver then d1 else d1.opticalSafe).assertFaultO else d1
  let d3 := if ps && !was.2 then (if d2.flt.handedOver then d2 else d2.powerSafe) else d2
  let d4 := d3.updateAlive
  if (os, ps) = was ∧ !changed then d4 else d4.stateEvent

/-- Restarts within the past hour (R393). -/
def Dev.restartsInHour (d : Dev) : Nat :=
  (d.hst.restartsAt.filter (fun t => decide ((d.now : Int) < t + (3600 * tickS : Nat)))).length

/-- Device safe (R392): control handed over where the peer is eligible, gate outputs off, ALIVE_P low, FAULT_O high,
BRK_TRIP under R315; then optical safe and power safe where control was not handed over. A restart is due after
`restart_ms` unless `restart_max` have occurred within the hour (R393). The links are silent from then on. Of a supply source
and an absolute limit at once, FLT.SAFE_CAUSE keeps the lower (Table 18-4). -/
def Dev.deviceSafe (d : Dev) (cause : Nat) : Dev :=
  let monitors := fun (s : Nat) => (decide (348 ≤ s) && decide (s < 376)) || (decide (404 ≤ s) && decide (s < 412))
  if d.flag F.fltState_dsafe then
    if d.flt.holdUntil = d.now + 100 * tickUs && monitors cause && monitors (d.fld F.fltSafeCause_source) && decide (cause < d.fld F.fltSafeCause_source)
    then d.setFld F.fltSafeCause_source cause else d
  else
  let hand := d.claims && d.flag F.twnStat_peerEligible
  let brk := decide (1 ≤ d.stage) && decide (d.stage ≤ 9) && d.flag F.cmuBrkCfg_brkSafe
  let d0 := (d.setFlag F.fltState_dsafe true).setFld F.fltSafeCause_source cause
  let d1 := if hand then d0.yield else d0
  let d2 := { d1 with pwm := { d1.pwm with gatesOff := true }, flt := { d1.flt with handedOver := hand } }
  let d3 := d2.assertFaultO
  let d4 := if brk then d3.assertBrk 8 else d3
  let n := d4.restartsInHour
  let d6 := if d4.flag F.fltCfg_autoRestart then
      if n < d4.fld F.fltCfg_restartMax then
        { d4 with hst := { d4.hst with restartDue := some (d4.now + d4.fld F.fltCfg_restartMs * 10 * tickMs) } }
      else d4.event 0x0B05 0 (le 1 n)
    else d4
  let d7 := d6.updateStates true
  { d7 with flt := { d7.flt with silent := true } }

/-- Class 4 (R388): the unit gives up control where it claims and its peer is eligible; otherwise `relinq_blocked`. -/
def Dev.relinquish (d : Dev) : Dev :=
  if d.claims && d.flag F.twnStat_peerEligible then d.yield else d.setFlag F.fltState_relinqBlocked true

/-- One assertion of a source (R385, R387): counted; on a sticky bit that passes from 0 to 1, event 0x0B01 from class 1
on, and the reaction of the class. -/
def Dev.raiseCore (d : Dev) (s : Nat) : Dev :=
  let d1 := d.bump R.fltCount
  if d1.sticky s then d1 else
  let c := d1.sourceClass s
  let d2 := d1.setSticky s true
  let d3 := if 1 ≤ c then d2.event 0x0B01 s (le 1 c ++ le 1 (d2.fld (F.fltClass_kind s))) else d2
  match c with
  | 4 => d3.relinquish
  | 5 => (d3.deviceSafe s).updateStates
  | 2 | 3 => d3.updateStates
  | _ => d3

/-- Cause `fault` of ineligibility, and source 420 with it (R417, R423, R424); source 422 ends with this unit's claim. -/
def Dev.refreshElig (d : Dev) : Dev :=
  let d1 := d.setCause 7 (d.standby && d.stickyOfClass [4, 5])
  let bad := d1.standby && decide (d1.regN R.twnElig ≠ 0)
  if bad && !d1.present 420 then (d1.setPresent 420 true).raiseCore 420
  else if !bad && d1.present 420 then d1.setPresent 420 false
  else if d1.present 422 && !(d1.claims && d1.flag F.twnStat_peerClaimIn) then d1.setPresent 422 false
  else d1

/-- An event source asserts (R386). -/
def Dev.raise (d : Dev) (s : Nat) : Dev := (d.raiseCore s).refreshElig

/-- A level source's condition appears (R386): it asserts if it was absent. -/
def Dev.raiseLevel (d : Dev) (s : Nat) : Dev :=
  if d.present s then d else ((d.setPresent s true).raiseCore s).refreshElig

/-- A level source's condition ends (R386); the sticky bit stays. -/
def Dev.clearLevel (d : Dev) (s : Nat) : Dev := d.setPresent s false

/-- A level source follows its condition. -/
def Dev.level (d : Dev) (s : Nat) (v : Bool) : Dev := if v then d.raiseLevel s else d.clearLevel s

/-- `relinq_blocked` cleared once no sticky bit is mapped to class 4 (Table 16-8). -/
def Dev.updateRelinq (d : Dev) : Dev :=
  if d.stickyOfClass [4] then d else d.setFlag F.fltState_relinqBlocked false

/-- A cause of ineligibility changed, with source 420 following (R424). -/
def Dev.elig (d : Dev) (i : Nat) (v : Bool) : Dev := (d.setCause i v).refreshElig

/-- The unit becomes or stops being the standby; source 420 follows (R424). -/
def Dev.afterRole (d : Dev) : Dev := d.refreshElig

/-- FAULT_O falls (R394): event 0x0B03, and the final replies of the releases that waited, with the instant. -/
def Dev.dropFaultO (d : Dev) : Dev :=
  let d1 := if d.flag F.fltState_faultO then (d.setFlag F.fltState_faultO false).event 0x0B03 0 (le 1 0) else d
  d.flt.release.foldl (fun d o => d.finish o St.done (le 8 d1.tai)) { d1 with flt := { d1.flt with release := [] } }

/-- A trip of the SST by one of its protections (R314, R315): its latch, the trip, BRK_TRIP where the latch's enable
is set, and its source. `i` is the bit of CMU.PROT_STAT: 0 sst_ov, 1 cat_oc, 2 few_cells, 3 power_stall,
4 coast_exp. -/
def Dev.protTrip (d : Dev) (i : Nat) : Dev :=
  let brk := bit (d.regN R.cmuBrkCfg) i
  let d1 := (d.setBitAt R.cmuProtStat i true).sstTrip
  let d2 := if brk then d1.assertBrk i else d1
  d2.raiseLevel (248 + i)

/-- The trip condition behind a latch has ended; the latch stays (R399). -/
def Dev.protGone (d : Dev) (i : Nat) : Dev := d.clearLevel (248 + i)

end Sys2Proof.Machine
end

