-- ==== Sys2Proof/Machine/Calendar.lean ====
section
/-! DEFINITION. The calendar checked again after a change (R158). -/

namespace Sys2Proof.Machine

/-- A move refused after it was accepted (R158): counted, event 0x0305, source 307, final reply NO_SLUICE. -/
def Dev.refuseMove (d : Dev) (m : Move) : Dev :=
  let d1 := ((d.bump R.trnNosluiceCount).event 0x0305 (m.entry.getD 0xFFFF) (le 4 m.tag)).withdrawMove m St.noSluice
  d1.raise 307

/-- The move that R158 refuses next: of those whose keys have not fired, class 1 before class 0, latest accepted
first. -/
def Dev.nextRefused (d : Dev) : Option Move :=
  let before := fun (a b : Move) => decide (b.klass < a.klass) || (decide (a.klass = b.klass) && decide (b.order < a.order))
  (d.rtp.moves.filter (fun m => m.fire.isNone)).foldl (fun best m => match best with
    | none => some m
    | some b => if before m b then some m else some b) none

/-- Moves refused until both checks of R156 pass. -/
def refuseUntilOk : Nat → Dev → Dev
  | 0, d => d
  | fuel + 1, d =>
    if d.calendarOk [] then d
    else match d.nextRefused with
      | none => d
      | some m => refuseUntilOk fuel (d.refuseMove m)

/-- The calendar checked again (R158). -/
def Dev.recheckCalendar (d : Dev) : Dev := refuseUntilOk d.rtp.moves.length d

end Sys2Proof.Machine
end

