-- ==== Sys2Proof/Machine/MemOps.lean ====
section
/-! DEFINITION. The patrol scrubber of the DDR5 channels (R451), and the reset of a bus master (R458). -/

namespace Sys2Proof.Machine

/-- A channel's scrub state. -/
def Dev.scrub (d : Dev) (c : Nat) : Scrub := tget (fun _ => {}) d.mem.scrub c

/-- How far a channel has been scrubbed, in 2^−32 of the channel, whole passes included: `scrub_h` hours for each pass. -/
def Dev.scrubAt (d : Dev) (c : Nat) : Nat :=
  let x := d.scrub c
  match x.since with
  | none => x.base
  | some t => x.base + (d.now - t) * 2 ^ 32 / (max 1 (d.fld F.memScrubCfg_scrubH) * 3600 * tickS)

/-- The scrubbers follow `scrub_en` and the channels' states: each runs while its channel runs. Called before and after a
change of either, and before one of `scrub_h`. -/
def Dev.syncScrub (d : Dev) : Dev :=
  (List.range 2).foldl (fun d c =>
    let runs := d.flag F.memCtrl_scrubEn && decide (d.fld (F.memDdrStat_dstate c) = 2)
    let x : Scrub := ⟨d.scrubAt c, if runs then some d.now else none⟩
    { d with mem := { d.mem with scrub := tput (fun _ => {}) d.mem.scrub c x } }) d

/-- A DDR5 channel's state (Table 19-4), with its scrubber. -/
def Dev.setDstate (d : Dev) (c st : Nat) : Dev := ((d.syncScrub).setFld (F.memDdrStat_dstate c) st).syncScrub

/-- A bus master reset (R458): the bursts that complete at that instant and the read beats they discard are counted; how many
there are is free. -/
def Dev.resetMaster (d : Dev) (m : Nat) : Dev :=
  let (n, d1) := d.fresh 65536
  let (k, d2) := d1.fresh 65536
  (d2.setFld (F.bmxMReset_bursts m) (d2.fld (F.bmxMReset_bursts m) + n)).addSat (F.bmxMReset_beats m) k

end Sys2Proof.Machine
end

