-- ==== Sys2Proof/Machine/Econ.lean ====
section
/-! DEFINITION. Economy mode (R26 to R28): its triggers, entry and exit. -/

namespace Sys2Proof.Machine

/-- The catenary trigger: catenary loss, where `en_catenary` is set. -/
def Dev.econCatenary (d : Dev) : Bool := d.flag F.thsEconCtrl_enCatenary && d.flag F.tbuCatStat_lost
/-- The neutral-section trigger (R309, R310). -/
def Dev.econNeutral (d : Dev) : Bool := d.flag F.thsEconCtrl_enNeutral && d.cmu.neutralTrigger
/-- The LV trigger: the LV bus below `enter_v`; an `enter_v` of 0 disables it (Table 1-9). `lvVolts` counts
10 mV / 65 536, so that code and scale give it exactly. -/
def Dev.econLv (d : Dev) : Bool :=
  d.flag F.thsEconCtrl_enLvbus && decide (d.fld F.thsEconLv_enterV ≠ 0) &&
    decide (d.ths.lvVolts < ((d.fld F.thsEconLv_enterV * 65536 : Nat) : Int))
/-- The host's trigger. -/
def Dev.econForce (d : Dev) : Bool := d.flag F.thsEconCtrl_force

/-- The four triggers of economy mode as ECON_STAT [4:1] shows them (Table 1-10). -/
def Dev.econCauses (d : Dev) : Nat :=
  b2n d.econCatenary + 2 * b2n d.econNeutral + 4 * b2n d.econLv + 8 * b2n d.econForce

/-- The LV bus lies above `exit_v`; met while the LV trigger is disabled. -/
def Dev.lvRecovered (d : Dev) : Bool :=
  decide (d.fld F.thsEconLv_enterV = 0) || decide (((d.fld F.thsEconLv_exitV * 65536 : Nat) : Int) < d.ths.lvVolts)

/-- Moves not keyed to a position mark that have fired and not started are deferred on entry to economy mode, and
those that are strict are withdrawn with TOO_LATE (R27, Table 1-6). -/
def Dev.deferMoves (d : Dev) : Dev :=
  let hit := d.rtp.moves.filter (fun m => m.fire.isSome && !m.deferred && decide (m.keyKind ≠ 2) && !m.elems.isEmpty
    && m.elems.all (fun x => (decide (x.phase ≤ 2) || decide (x.phase = 5)) && !x.started))
  hit.foldl (fun d m =>
    if m.strict then d.withdrawMove m St.tooLate
    else
      let d1 := d.dropGrants (fun e => m.elems.any (fun x => x.el = e))
      d1.setMove { m with deferred := true, late := true, elems := m.elems.map (fun x => if x.phase = 5 then x else { x with phase := 1 }) }) d

/-- The cause bits of ECON_STAT set to the triggers present; `active` is set while there is one (R26, Table 1-10). -/
def Dev.showCauses (d : Dev) : Dev :=
  let c := d.econCauses
  d.setReg R.thsEconStat (mergeWord (d.reg R.thsEconStat) (BitVec.ofNat 32 (2 * c + 1)) (if c = 0 then 0x1E#32 else 0x1F#32))

/-- Economy mode entered while a trigger is present (R26), and the exit dwell counted from the instant at which none is
present and the LV bus lies above `exit_v` (R27). -/
def Dev.settle (d : Dev) : Dev :=
  let c := d.econCauses
  let d1 := if c ≠ 0 ∧ !d.economy then ((d.setFlag F.thsEconStat_active true).deferMoves).parkIdle else d
  let calm := d1.economy && decide (c = 0) && d1.lvRecovered
  let d2 := { d1 with ths := { d1.ths with dwellFrom := if calm then some (d1.ths.dwellFrom.getD d1.now) else none } }
  d2.showCauses

/-- Exit from economy mode (R27, R159): parked elements resume from code 0, deferred moves begin. -/
def Dev.leaveEconomy (d : Dev) : Dev :=
  let d1 := d.setFlag F.thsEconStat_active false
  let d2 := (d1.rtp.map.elems.filter (fun e => (d1.loop e.1).susp.parked)).foldl (fun d e => d.parkElement e.1 false) d1
  ({ d2 with ths := { d2.ths with dwellFrom := none } }).beginDeferred

end Sys2Proof.Machine
end

