-- ==== Sys2Proof/Machine/Mirror.lean ====
section
/-! DEFINITION. The mirrored items of Table 17-4: how the active unit keeps the standby's copy up to date, and what the standby does
with an update (R419, R420, R423). -/

namespace Sys2Proof.Machine

/-- A CW register stands at an offset. -/
def isCw (off : Nat) : Bool := match regBankAt off with | some b => b.acc = .cw | none => false

/-- Registers `f 0 … f (n - 1)` as words. -/
def Dev.words (d : Dev) (f : Nat → Nat) (n : Nat) : List Nat := (List.range n).map (fun i => d.regN (f i))

/-- Registers `f 0, f 1, …` given the words of a list. -/
def Dev.setWords (d : Dev) (f : Nat → Nat) (l : List Nat) : Dev := l.zipIdx.foldl (fun d x => d.setRegN (f x.2) x.1) d

/-- The legs that run, a bit for each (R344). -/
def Dev.legsOn (d : Dev) : Nat :=
  (List.range 8).foldl (fun m l => setBit m l (d.legState l = 1 || d.legState l = 2 || d.legState l = 3 || d.legState l = 5)) 0

/-- The mirrored items as this unit holds them (Table 17-4). -/
def Dev.mirrored (d : Dev) : Mirrored :=
  { circuits := d.rtp.circuits
    settings := d.rtp.settings
    adopted := d.rtp.adopted
    ceilings := d.words R.rtpCeiling 512
    blanked := d.words R.rtpBlanked 16
    sched := d.tbu.sched
    waits := d.rtp.moves.filter (fun m => m.fire.isNone)
    trains := d.tbu.trains
    wheels := d.words R.tbuWsCount 8
    payloads := d.twn.payloads
    stage := d.stage
    set := d.fld F.cmuSstStat_set
    service := (List.range 48).map (fun n => d.fld (F.cmuCellSvc_svc n))
    vdcRamp := d.cmu.vdcRamp
    voutRamp := d.cmu.voutRamp
    lvRamp := d.cmu.lvRamp
    rRamp := d.cmu.rRamp
    coasts := d.cmu.coasts
    start := d.cmu.startCmd
    startTag := d.twn.startTag
    params := d.cmu.params
    latches := d.regN R.cmuProtStat
    lvRef := d.regN R.pwmLvref
    legs := d.legsOn
    bank := if d.flag F.calStat_active then d.cal.bankA else d.cal.bankB
    switchAt := match d.cal.written with | some (_, n) => n | none => 0
    config := d.twn.peerConfig
    fired := d.rtp.moves.filter (fun m => m.fire.isSome)
    ready0 := d.twn.peerReady0
    ready1 := d.twn.peerReady1 }

/-! ### The active unit -/

/-- The items whose content differs between two states of the active unit. A change of the configuration digest is one of what it
is taken over (R423): the CW registers outside the TWN window, the coefficient sets, and the drive elements' bindings. -/
def changedItems (a b : Dev) : List Nat :=
  let x := a.mirrored
  let y := b.mirrored
  let one := decide (x.circuits ≠ y.circuits) || decide (x.settings ≠ y.settings) || decide (x.adopted ≠ y.adopted) ||
    decide (x.ceilings ≠ y.ceilings) || decide (x.blanked ≠ y.blanked)
  let two := decide (x.sched ≠ y.sched) || decide (x.trains ≠ y.trains) || decide (x.wheels ≠ y.wheels)
  let three := decide (x.stage ≠ y.stage) || decide (x.set ≠ y.set) || decide (x.service ≠ y.service) || decide (x.vdcRamp ≠ y.vdcRamp) ||
    decide (x.voutRamp ≠ y.voutRamp) || decide (x.lvRamp ≠ y.lvRamp) || decide (x.rRamp ≠ y.rRamp) || decide (x.coasts ≠ y.coasts) ||
    decide (x.latches ≠ y.latches) || decide (x.lvRef ≠ y.lvRef) || decide (x.legs ≠ y.legs)
  let four := decide (a.calIdent ≠ b.calIdent)
  let cw := fun (d : Dev) => d.regs.filter (fun e => decide (e.1 < 0x130000) && isCw e.1)
  let bound := fun (d : Dev) => d.lpc.loops.map (fun (l : Nat × Loop) => (l.1, l.2.slot, l.2.set))
  let five := decide (cw a ≠ cw b) || decide (a.lpc.sets ≠ b.lpc.sets) || decide (bound a ≠ bound b)
  let six := decide (x.fired ≠ y.fired)
  ([(1, one), (2, two), (3, three), (4, four), (5, five), (6, six)].filter (fun i => i.2)).map (fun i => i.1)

/-- MIRROR records for the items of a list (R419). -/
def Dev.mirrorItems (d : Dev) (l : List Nat) : Dev := l.foldl (fun d i => (d.sendMirror [i]).2) d

/-- Every mirrored item sent (R429). -/
def Dev.mirrorAll (d : Dev) : Dev := d.mirrorItems [1, 2, 3, 4, 5, 6]

/-! ### The standby -/

/-- The number under which a command of the peer is known here, apart from this unit's own. -/
def peerOid (oid : Nat) : Nat := if oid < 2 ^ 40 then oid + 2 ^ 40 else oid

/-- A move of the peer, as it is known here. -/
def peerMove (m : Move) : Move := { m with oid := peerOid m.oid }

/-- Item 1 applied. -/
def Dev.putItem1 (d : Dev) (m : Mirrored) : Dev :=
  ({ d with rtp := { d.rtp with circuits := m.circuits, settings := m.settings, adopted := m.adopted } }.setWords R.rtpCeiling
    (m.ceilings.take 512)).setWords R.rtpBlanked (m.blanked.take 16)

/-- Item 2 applied. -/
def Dev.putItem2 (d : Dev) (m : Mirrored) : Dev :=
  let sched := m.sched.map (fun e => (e.1, { e.2 with oid := peerOid e.2.oid }))
  let moves := d.rtp.moves.filter (fun x => x.fire.isSome) ++ m.waits.map peerMove
  { d with tbu := { d.tbu with sched := sched, trains := m.trains }, rtp := { d.rtp with moves := moves },
           twn := { d.twn with payloads := m.payloads.map (fun (x : Nat × Bytes) => (peerOid x.1, x.2)) } }.setWords R.tbuWsCount (m.wheels.take 8)

/-- The legs of the peer that run are shadowed in state 5 (R344). -/
def Dev.shadowLegs (d : Dev) (mask : Nat) : Dev :=
  (List.range 8).foldl (fun d l =>
    if bit mask l then (if d.legState l = 0 then d.setLegState l 5 else d)
    else if d.legState l = 5 then d.setLegState l 0 else d) d

/-- Item 3 applied (R316). -/
def Dev.putItem3 (d : Dev) (m : Mirrored) : Dev :=
  let lanes := if m.stage = 0 ∨ m.stage = 10 then [] else d.cmu.lanes
  let at_ := if m.stage = d.stage then d.cmu.stageAt else d.now
  let cmu := { d.cmu with vdcRamp := m.vdcRamp, voutRamp := m.voutRamp, lvRamp := m.lvRamp, rRamp := m.rRamp, coasts := m.coasts,
                          params := m.params, startCmd := m.start.map (fun x => (peerOid x.1, x.2)), lanes := lanes, stageAt := at_ }
  let d1 := { d with cmu := cmu, twn := { d.twn with startTag := m.startTag } }
  let d2 := (d1.setFld F.cmuSstStat_stage m.stage).setFld F.cmuSstStat_set m.set
  let d3 := (m.service.take 48).zipIdx.foldl (fun d x => d.setFld (F.cmuCellSvc_svc x.2) x.1) d2
  (((d3.setRegN R.cmuProtStat m.latches).setRegN R.pwmLvref m.lvRef).countService).shadowLegs m.legs

/-- Item 4 applied (R378): the optical records join this unit's own unit section, that of its active bank (R377), in the inactive bank, which
switches at the same frame. -/
def Dev.putItem4 (d : Dev) (m : Mirrored) : Dev :=
  if m.switchAt ≤ d.frame then d
  else
    let second := !d.flag F.calStat_active
    let own := d.bank.recs.filter (fun r => r.rtype = 4 || r.rtype = 5)
    let recs := m.bank.recs.filter (fun r => decide (1 ≤ r.rtype) && decide (r.rtype ≤ 3)) ++ own
    let b : Bank := { m.bank with valid := true, seq := (d.bank.seq + 1) % 2 ^ 32, recs := recs }
    let d1 := if second then { d with cal := { d.cal with bankB := b, written := some (none, m.switchAt) } }
      else { d with cal := { d.cal with bankA := b, written := some (none, m.switchAt) } }
    if second then (d1.setFlag F.calStat_validB true).setRegN R.calIdB b.ident else (d1.setFlag F.calStat_validA true).setRegN R.calIdA b.ident

/-- Item 6 applied: the moves whose key has fired. -/
def Dev.putItem6 (d : Dev) (m : Mirrored) : Dev :=
  { d with rtp := { d.rtp with moves := d.rtp.moves.filter (fun x => x.fire.isNone) ++ m.fired.map peerMove } }

/-- The update of one item applied on the standby (R408, R419). The ready bits of Table 17-5 come with every update. -/
def Dev.putItem (d : Dev) (i : Nat) (m : Mirrored) : Dev :=
  let d1 := { d with twn := { d.twn with peerReady0 := m.ready0, peerReady1 := m.ready1, items := i :: d.twn.items.filter (fun x => x ≠ i) } }
  match i with
  | 1 => d1.putItem1 m
  | 2 => d1.putItem2 m
  | 3 => d1.putItem3 m
  | 4 => d1.putItem4 m
  | 5 => { d1 with twn := { d1.twn with peerConfig := m.config } }
  | 6 => d1.putItem6 m
  | _ => d1

/-- Cause `shadow` of Table 17-5: a link or chain that is ready on the active unit is not ready here, or the LV stage or the converters. -/
def Dev.shadowBehind (d : Dev) : Bool :=
  let m := 0xFF * 2 ^ 17 + 2 ^ 26 + 2 ^ 27
  decide (andNot d.twn.peerReady0 (d.regN R.cpxReady0) ≠ 0) || decide (Nat.land (andNot d.twn.peerReady1 (d.regN R.cpxReady1)) m ≠ 0)

/-! ### After every row -/

/-- What the twin does after a row: the active unit of a pair sends the items that the row has changed, unless a record of the row
has carried them; the standby brings cause `shadow` up to date. -/
def Dev.twinFollow (d : Dev) (old : Dev) : Dev :=
  if d.pairedActive then (if d.twn.mseq = old.twn.mseq then d.mirrorItems (changedItems old d) else d)
  else if d.standby && d.flag F.twnStat_paired then d.elig 6 d.shadowBehind
  else d

end Sys2Proof.Machine
end

