-- ==== Sys2Proof/Machine/Boot.lean ====
section
/-! DEFINITION. Bindings and their end (R48, R493), cold start and warm restart (R67, R68, R78, R82, R83). -/

namespace Sys2Proof.Machine

/-- The ring pair bound to a requester. -/
def Dev.ringOf (d : Dev) (owner : Nat) : Option Nat :=
  (List.range 8).find? (fun n => (d.ring n).bound = some owner)

/-- The session of a requester. -/
def Dev.sessionOf (d : Dev) (owner : Nat) : Option Session := d.cpx.sessions.find? (fun s => s.requester = owner)

/-- A requester is bound to a ring pair or to a session. -/
def Dev.isBound (d : Dev) (owner : Nat) : Bool := (d.ringOf owner).isSome || (d.sessionOf owner).isSome

/-- A requester's window, subscriptions and numbers cleared (R48, R483, R493). -/
def Dev.forgetRequester (d : Dev) (owner : Nat) : Dev := d.setRequester owner {}

/-- Commands of a requester that have no final reply yet: those that run, those that wait for a fence, and those whose final reply waits
for the standby. -/
def Dev.openCount (d : Dev) (owner : Nat) : Nat :=
  (d.cpx.opened.filter (fun o => o.owner = owner)).length + (d.cpx.waiting.filter (fun w => w.owner = owner)).length +
    (d.standbyWaits.filter (fun r => r.owner = owner && r.final)).length

/-- Source 298 ends once no completion ring has been full for 1 ms (R62, Table 16-1). -/
def Dev.stallEnds (d : Dev) : Dev :=
  if (List.range 8).any (fun n => match (d.ring n).fullSince with | some t => decide (t + tickMs ≤ d.now) | none => false) then d
  else d.clearLevel 298

/-- A disabled ring pair stops: it fetches nothing, its binding and its replay window end (R48). -/
def Dev.ringDisabled (d : Dev) (n : Nat) : Dev :=
  let r := d.ring n
  match r.bound with
  | none => d.setRing n { r with disabling := false }
  | some owner => ((d.setRing n {}).forgetRequester owner).stallEnds

/-- Every command of a ring pair has its final reply written. -/
def Dev.ringIdle (d : Dev) (n : Nat) : Bool :=
  match (d.ring n).bound with
  | none => true
  | some owner => decide (d.openCount owner = 0) && decide ((d.requester owner).held = [])

/-- `en` of a ring pair cleared (R48, Table 2-17): it takes effect at once where nothing is left to write. -/
def Dev.disableRing (d : Dev) (n : Nat) : Dev :=
  let d1 := d.setFlag (F.cpxRingCtrl_en n) false
  if d1.ringIdle n then d1.ringDisabled n else d1.setRing n { d1.ring n with disabling := true }

/-- The end of a requester's binding (R493). -/
def Dev.closeBinding (d : Dev) (owner : Nat) : Dev :=
  match d.ringOf owner with
  | some n => d.disableRing n
  | none => ({ d with cpx := { d.cpx with sessions := d.cpx.sessions.filter (fun s => s.requester ≠ owner) } }).forgetRequester owner

/-- The session nonce drawn anew (R60). -/
def Dev.renewNonce (d : Dev) : Dev :=
  let v := Config.nonce d.hst.nonceCount
  let d1 := { d with hst := { d.hst with nonceCount := d.hst.nonceCount + 1 } }
  (List.range 8).foldl (fun d i => d.setRegN (R.hstNonce i) (v / 2 ^ (32 * i))) d1

/-- Registers whose value comes from fuses, from the NV store or survives a start (R68, Table 3-5): ROLLBACK,
COLD_COUNT, DEVID, OWNER_SET, RESET_CAUSE and FLT.SAFE_CAUSE. -/
def keptRegs : List Nat :=
  [R.hstRollback, R.hstColdCount, R.hstDevid 0, R.hstDevid 1, R.hstDevid 2, R.hstDevid 3, R.hstOwnerSet, R.hstResetCause,
   R.fltSafeCause]

/-- Both dice in reset (R67, R68, R78): everything at its reset value except fused values, the boot flash, the NV store (banks, owner laws,
term, COLD_COUNT), RESET_CAUSE, FLT.SAFE_CAUSE and the UNIT_ID strap; the timebase stands at 0. `cause` is what the next start
records. -/
def Dev.resetAll (d : Dev) (cause : Nat) : Dev :=
  let hst : Hst := { ownerKey := d.hst.ownerKey, nonceCount := d.hst.nonceCount, nextCause := cause, lawStore := d.hst.lawStore, staged := d.hst.staged,
                     restartsAt := d.hst.restartsAt.map (fun t => t - (d.now : Int)) }
  let cal : Cal := { bankA := d.cal.bankA, bankB := d.cal.bankB }
  let mem : Mem := { porst := false, jtagIr := d.mem.jtagIr }
  let d1 : Dev := keptRegs.foldl (fun x o => x.setReg o (d.reg o)) { hst := hst, cal := cal, mem := mem, out := d.out, free := d.free }
  (d1.setFld F.twnStat_term d.term).setFlag F.twnStat_unitId (d.flag F.twnStat_unitId)

/-- A cold start (R67, R68, R78): both dice leave reset, the start is counted and its cause recorded, a nonce is drawn. `unit`
is the UNIT_ID strap (R465); EXTEST and SAMPLE/PRELOAD behave as BYPASS from now on (R471). -/
def Dev.coldStart (d : Dev) (cause : Nat) (unit : Bool) : Dev :=
  let d1 := d.resetAll 1
  let d2 := { d1 with mem := { d1.mem with porst := true, jtagIr := if 2 ≤ d1.mem.jtagIr then 0 else d1.mem.jtagIr } }
  let d3 := (d2.setRegN R.hstColdCount (min (d.regN R.hstColdCount + 1) 0xFFFFFFFF)).setFld F.hstResetCause_cause cause
  (d3.setFlag F.twnStat_unitId unit).renewNonce

/-- The ready bits that a warm restart keeps: `aon`, `ths`, `flt` (Table 2-9). -/
def warmKeeps : Nat := 1 + 2 ^ 14 + 2 ^ 15

/-- A warm restart (R81 to R84): intake stops, ready bits clear, sluices stop at the end of their segments, the moves
that have fired wait for their links and complete late, or with TOO_LATE where they are strict, links read their codes back again, DAC queues empty, DDR5 goes
to self-refresh (R450). Circuits, schedule, windows, trains, output levels, timebase and evseq stay. -/
def Dev.warmRestart (d : Dev) : Dev :=
  let d1 := ((d.abortJob).setFld F.hstResetCause_cause 4).setRegN R.cpxReady0 0
  let d2 := d1.setRegN R.cpxReady1 (Nat.land (d1.regN R.cpxReady1) warmKeeps)
  let d3 := { d2 with cpx := { d2.cpx with accepting := false }, hst := { d2.hst with warm := true } }
  let d4 := d3.dropGrants (fun _ => true)
  let d5 : Dev := sluiceNumbers.foldl (fun d s => match (d.sluice s).cur with
    | some _ =>
      let d1 := d.stopSluice s none
      d1.setSluice s { d1.sluice s with cur := (d1.sluice s).cur.map (fun g => { g with oid := none }) }
    | none => d) d4
  let again := fun (x : MoveElem) => if x.phase ≤ 3 then { x with phase := 1, started := false } else x
  let moves := d5.rtp.moves.map (fun (m : Move) => if m.fire.isSome then { m with deferred := true, late := true, elems := m.elems.map again } else m)
  let d6 := { d5 with trn := { d5.trn with rakes := [] }, rtp := { d5.rtp with moves := moves } }
  let strict := d6.rtp.moves.filter (fun (m : Move) => m.fire.isSome && m.strict)
  let d6 := strict.foldl (fun d m => d.finishMove m St.tooLate) d6
  let d7 := (List.range 32).foldl (fun d l => if d.fld (F.elkLinkStat_state l) = 6 then
      ((d.setFld (F.elkLinkStat_state l) 5) : Dev) else d) d6
  let d8 := (List.range 16).foldl (fun d c =>
    let x := tget (fun _ => ({} : DacCh)) d.dac.chans c
    { (d.setFld (F.dacChStat_qLevel c) 0) with dac := { d.dac with chans := tput (fun _ => {}) d.dac.chans c { x with queue := [] } } }) d7
  let d9 := (List.range 2).foldl (fun d c => if d.fld (F.memDdrStat_dstate c) = 2 then
      (d.setDstate c 3).setFlag F.memStat_sr true else d) d8
  let elk := { d9.elk with links := d9.elk.links.map (fun x => (x.1, { x.2 with read := 0, ctrls := [] })) }
  [0, 2, 5, 6, 7, 8, 11, 12].foldl Dev.resetMaster { d9 with elk := elk }

/-- What waits until the replies of the row have been sent: the end of a binding (R493), a restart (R482). -/
def runPost : List PostAction → Dev → Dev
  | [], d => d
  | .close owner :: r, d => runPost r (d.closeBinding owner)
  | .restart true :: r, d => runPost r (d.coldStart 3 (d.flag F.twnStat_unitId))
  | .restart false :: r, d => runPost r d.warmRestart
  | .cancel oid :: r, d => runPost r (match d.findMove oid with | some m => (d.withdrawMove m St.refused).recheckCalendar | none => d)

/-- The end of every row: economy mode follows its triggers, and replies and events go out. What had to wait for them is done then, and
what that says goes out too. -/
def Dev.finalize (d : Dev) : Dev :=
  let d1 := d.settle.flush
  if d1.cpx.post = [] then d1 else (runPost d1.cpx.post { d1 with cpx := { d1.cpx with post := [] } }).settle.flush

/-- The state after a row whose effect on the device is `d`. -/
def State.after (s : State) (d : Dev) : State := { dev := (d.twinFollow s.dev).finalize, pending := s.pending }

/-- The outcome of a row that goes on. -/
def commit (s : State) (d : Dev) : Host.Outcome State Fault Refusal := .next (s.after d)

/-- The outcome of a row that names an instance: a fault where the block has none of that number. -/
def commitIf (ok : Bool) (what : String) (s : State) (d : Dev) : Host.Outcome State Fault Refusal :=
  if ok then commit s d else .fault (.noSuchInstance what)

end Sys2Proof.Machine
end

