-- ==== Sys2Proof/Machine/LawOps.lean ====
section
/-! DEFINITION. The arithmetic of a block (R165 to R170), the vendor hold laws (R174 to R177), the microword
interpreter (R201 to R208) and the common epilogue (R174, R179, R180, R186). -/

namespace Sys2Proof.Machine

/-- A stage of a block: the shared exponent, the lanes' values, and whether the exponent left its range (R165). -/
structure StageVal where
  exp : Int
  vals : List Frac
  ovf : Bool
  deriving DecidableEq, Repr

/-- The exponent that a block's lanes take before rounding (R166, steps 1 and 2). -/
def stageTop (vs : List Frac) : Int := vs.foldl (fun a v => max a v.ownExp) (-128)

/-- Normalisation at the end of a stage (R166, R167): mantissas of 24 bits at one exponent. -/
def normStage (vs : List Frac) : StageVal :=
  let top := stageTop vs
  let at23 := fun (e : Int) (v : Frac) => Frac.reduce (Frac.scale (Frac.ofInt (mantissaAt 23 v e)) (e - 23))
  let past := vs.any (fun v => decide ((mantissaAt 23 v top).natAbs ≥ 2 ^ 23))
  let e := if past then top + 1 else top
  if 127 < e then
    let big : Frac := Frac.scale (Frac.ofInt (2 ^ 23 - 1)) 104
    ⟨127, vs.map (fun v => if v.num < 0 then big.neg else if v.num = 0 then v else big), true⟩
  else ⟨e, vs.map (at23 e), false⟩

/-- Significant bits that a lane keeps in a stage of exponent `e` (R166); 23 for a lane that is zero. -/
def keptBits (e : Int) (v : Frac) : Nat := if v.num = 0 then 23 else (23 - (e - v.ownExp)).toNat

/-- A lane that rounds to 0 in a stage (R167). -/
def flushed (e : Int) (v : Frac) : Bool := v.num ≠ 0 && decide (23 < e - v.ownExp) && decide (mantissaAt 23 v e = 0)

/-- A term at exponent `e` in the 48-bit accumulator of its lane, ties away from zero (R168). -/
def accRound (e : Int) (v : Frac) : Frac := Frac.reduce (Frac.scale (Frac.ofInt (mantissaAt 46 v e)) (e - 46))

/-- The terms of a block loaded into its accumulators at one exponent (R168, R169). -/
def accLoad (vs : List Frac) : List Frac := vs.map (accRound (stageTop vs))

/-- Terms of different exponents summed lane by lane, aligned to the larger exponent (R168). -/
def accSum (a b : List Frac) : List Frac :=
  let e := max (stageTop a) (stageTop b)
  List.zipWith Frac.add (a.map (accRound e)) (b.map (accRound e))

/-- A quotient; over zero the spec states none. -/
def quot (a b : Frac) : Frac := if b.num = 0 then Config.overZero a else Frac.div a b

/-- A value stored as a coefficient word between evaluations (R169). -/
def asCoef (a : Frac) : Frac := coefValue (coefWord a)

/-! ### The inputs of a hold loop -/

/-- Power at a tap of a drive channel: the link's bracket tap scale applies (Table 15-3). -/
def Dev.drivePower (d : Dev) (e raw : Nat) : Frac :=
  Config.tapPower 0 (d.bank.bracketScale (linkOf e) (d.bracket (linkOf e))) raw

/-- Taps a and b of a drive element whose raw samples are `ab`. -/
def Dev.tapsAt (d : Dev) (e : Nat) (ab : Nat × Nat) : Frac × Frac := (d.drivePower e ab.1, d.drivePower e ab.2)

/-- Taps a and b of a drive element in its last samples. -/
def Dev.taps (d : Dev) (e : Nat) : Frac × Frac := d.tapsAt e (d.sample e)

/-- Light arriving at an input of a switch cell (R175): an output tap of the feeding cell, or the input port's tap. -/
def Dev.feedLight (d : Dev) (c side : Nat) : Frac :=
  match d.rtp.map.feeder c side with
  | some (f, o) => if o = 0 then (d.taps f).1 else (d.taps f).2
  | none => match d.rtp.map.portTab.find? (fun p => p.inCell = c && p.inSide = side) with
    | some p => d.tapPower p.inTap (d.tapRaw p.inTap)
    | none => Frac.zero

/-- The elements whose samples a loop takes (R162, R175, R176): its own; for a switch cell those of what feeds it; for a VOA the taps of
its output port and of its circuit's input port. -/
def Dev.feedTaps (d : Dev) (e : Nat) : List Nat :=
  if d.rtp.map.kind e = 1 then
    let f := fun side => match d.rtp.map.feeder e side with
      | some (c, _) => [c]
      | none => (d.rtp.map.portTab.find? (fun p => p.inCell = e && p.inSide = side)).toList.map (fun p => p.inTap)
    e :: f 0 ++ f 1
  else if d.rtp.map.kind e = 2 then
    e :: (d.rtp.map.portTab.filter (fun p => p.outVoa = e)).map (fun p => p.outTap) ++
      (d.rtp.circuits.filter (fun x => d.voaOf x.2.outPort = e)).filterMap (fun x => (d.rtp.map.port x.2.inPort).map (fun p => p.inTap))
  else [e]

/-- The links that feed a loop (R162). -/
def Dev.feedLinks (d : Dev) (e : Nat) : List Nat := ((d.feedTaps e).map linkOf).eraseDups

/-- The PIC temperature of a link in °C. -/
def Dev.degrees (d : Dev) (l : Nat) : Frac := Frac.mk2 (d.picTemp l) 100

/-- The centre of a bracket in °C (R139); brackets 0 and 15 lie half a width outside the others. -/
def Dev.bracketCentre (d : Dev) (b : Nat) : Frac :=
  let base : Int := signed 8 (d.fld F.trnBracketCfg_base)
  let width : Int := d.fld F.trnBracketCfg_width
  Frac.mk2 (8 * base + (2 * (b : Int) - 1) * width) 8

/-- The circuit whose VOA an element is and which the law regulates: live; one being set, once its move has handed the VOA back; one being
cleared, until then. -/
def Dev.voaCircuit (d : Dev) (e : Nat) : Option Circuit :=
  let played := d.rtp.moves.any (fun m => m.elems.any (fun x => x.el = e && x.started && x.phase = 4))
  match d.rtp.circuits.find? (fun x => d.voaOf x.2.outPort = e && (x.2.state = 2 || x.2.state = (if played then 1 else 3))) with
  | some x => some x.2
  | none => none

/-- What a law makes of one lane before the stages: the error, the feed-forward, gains and flags. `closed` says that the loop is closed
on its measurement (neither dark nor unobserved), `integ` that the law has an integrator; `deriv` is d of R174, `words` the law state
words after the evaluation. -/
structure LaneLaw where
  err : Frac
  f : Frac
  g : Frac
  kp : Frac
  ki : Frac
  closed : Bool
  flags : Nat
  target : Frac
  deriv : Frac := Frac.zero
  integ : Bool := true
  words : List Frac := []
  deriving DecidableEq, Repr

/-- Law 0, switch-cell ratio lock (R175, R191), at the element's raw tap samples `ab`. -/
def Dev.law0At (d : Dev) (e : Nat) (ab : Nat × Nat) : LaneLaw :=
  let x := d.loop e
  let l := linkOf e
  let (a, b) := d.tapsAt e ab
  let p0 := d.feedLight e 0
  let p1 := d.feedLight e 1
  let cross := d.cellSetting e
  let dT := Frac.sub (d.degrees l) (d.bracketCentre (d.bracket l))
  let k := Frac.add (Frac.add (d.bank.targetK e (d.bracket l)) (Frac.mul (d.bank.tempCo e) dT)) (coefValue x.operand)
  let ratio := quot (Frac.sub a b) (Frac.add a b)
  let y := quot (Frac.sub p0 p1) (Frac.add p0 p1)
  let ky := Frac.mul k y
  let err := Frac.sub (if cross then ky.neg else ky) ratio
  let dark := Frac.lt (Frac.add a b) (d.coef x.set 5)
  let unobs := Frac.lt y.abs (d.coef x.set 6)
  { err := err, f := Frac.ofInt (if cross then d.bank.crossCode e else d.bank.barCode e), g := d.bank.gain e,
    kp := d.coef x.set 0, ki := d.coef x.set 1, closed := !(dark || unobs), flags := 16 * b2n dark + 32 * b2n unobs,
    target := k }

/-- Law 0 on the last samples. -/
def Dev.law0 (d : Dev) (e : Nat) : LaneLaw := d.law0At e (d.sample e)

/-- Law 1, VOA attenuation with ceiling (R176). A VOA without a live circuit has no input light and stands at its
code for `att_max` (R126). -/
def Dev.law1 (d : Dev) (e : Nat) : LaneLaw :=
  let x := d.loop e
  let base : LaneLaw := { err := Frac.zero, f := Frac.ofInt (d.attMaxCode e), g := d.bank.gain e, kp := d.coef x.set 0,
                          ki := d.coef x.set 1, closed := false, flags := 16, target := Frac.mk2 d.rtp.map.attMax 100 }
  match d.voaCircuit e with
  | none => base
  | some c => match d.rtp.map.port c.inPort, d.rtp.map.port c.outPort with
    | some i, some o =>
      let pin := d.tapDbm i.inTap
      let pout := d.tapDbm o.outTap
      let ceil := Frac.mk2 (signed 16 (d.fld (F.rtpCeiling_ceiling c.outPort))) 100
      let att := Frac.mk2 c.att 100
      let lim := Frac.sub (Frac.sub pin c.loss) ceil
      let req := Frac.max att lim
      let meas := Frac.sub (Frac.sub pin pout) c.loss
      let dark := Frac.lt pin (Frac.mk2 d.rtp.map.darkThr 100)
      { base with err := Frac.sub req meas, f := Frac.ofInt (d.bank.voaCode e req), closed := !dark,
                  flags := 16 * b2n dark + 32768 * b2n (Frac.lt att lim), target := req }
    | _, _ => base

/-- Law 2, phase-trimmer hold (R177, R191): no error and no integrator. -/
def Dev.law2 (d : Dev) (e : Nat) : LaneLaw :=
  let x := d.loop e
  let dT := Frac.sub (d.degrees (linkOf e)) (Frac.mk2 (d.bank.tCal e) 100)
  let u := Frac.add (Frac.add (Frac.ofInt (d.bank.barCode e)) (coefValue x.operand)) (Frac.mul (d.bank.tempCo e) dT)
  { err := Frac.zero, f := u, g := Frac.one, kp := Frac.zero, ki := Frac.zero, closed := true, flags := 0, target := u, integ := false }

/-- Laws 3 to 6 (Table 7-2, R174): the error is the reference less the measurement, without feed-forward. Law 4 adds the filtered
derivative d; laws 5 and 6 shape the error. The spec writes none of these filters out: `Config.genericFilter`. -/
def genericLaw (slot : Nat) (ref meas : Frac) (c : Nat → Frac) (words : List Frac) : LaneLaw :=
  let e := Frac.sub ref meas
  let (v, w) := Config.genericFilter slot (c 5) (c 6) (c 7) e words
  { err := if slot = 5 ∨ slot = 6 then v else e, f := Frac.zero, g := Frac.one, kp := c 0, ki := c 1, closed := true, flags := 0,
    target := ref, deriv := if slot = 4 then v else Frac.zero, words := if slot = 3 then words else w }

/-! ### Microwords -/

/-- A field of a microword (Table 8-1). -/
def mw (w lo n : Nat) : Nat := w / 2 ^ lo % 2 ^ n

/-- A block under an owner law: registers as stages of 16 lanes, the accumulator, the lanes' compare results, flags,
precision bits and state words written. -/
structure MicroState where
  regs : Table StageVal
  acc : StageVal
  cmp : List Int
  flags : List Nat
  bits : List Nat
  words : Table (List Frac)
  pc : Nat
  ended : Bool
  deriving DecidableEq, Repr

/-- A register's stage; 0 until it is written. -/
def MicroState.reg (m : MicroState) (n : Nat) : StageVal :=
  tget (fun _ => (⟨-128, List.replicate 16 Frac.zero, false⟩ : StageVal)) m.regs n

/-- A register given a stage. -/
def MicroState.setReg (m : MicroState) (n : Nat) (v : StageVal) : MicroState :=
  { m with regs := tput (fun _ => (⟨-128, List.replicate 16 Frac.zero, false⟩ : StageVal)) m.regs n v }

/-- A lane predicate (Table 8-1, `lcond`) on the result of the last CMP. -/
def laneCond (c : Nat) (x : Int) : Bool :=
  match c with
  | 1 => decide (x < 0) | 2 => decide (x ≤ 0) | 3 => decide (x = 0) | 4 => decide (x ≠ 0) | 5 => decide (0 ≤ x)
  | 6 => decide (0 < x) | _ => true

/-- The greatest value of a stage: RECIP and DIV by zero give it (Table 8-2). -/
def greatest : Frac := Frac.scale (Frac.ofInt (2 ^ 23 - 1)) 104

/-- The result of an operation (Table 8-2) as it enters the accumulators (R168, R202): terms aligned to the result's exponent, and the
lanes that divided by zero. -/
def aluResult (m : MicroState) (w : Nat) : StageVal × List Bool :=
  let a := m.reg (mw w 8 5)
  let b := m.reg (mw w 13 5)
  let im : Frac := Frac.scale (Frac.ofInt (signed 24 (mw w 50 24))) (signed 8 (mw w 74 8) - 23)
  let ie := signed 8 (mw w 74 8)
  let z := List.zipWith
  let no := List.replicate 16 false
  let at_ := fun (e : Int) (l : List Frac) => ((⟨e, l.map (accRound e), false⟩ : StageVal), no)
  let sum := fun (op : Frac → Frac → Frac) (e : Int) (x y : List Frac) =>
    ((⟨e, z op (x.map (accRound e)) (y.map (accRound e)), false⟩ : StageVal), no)
  let ratio := fun (x y : List Frac) =>
    let l := z (fun (p q : Frac) => if q.num = 0 then greatest else Frac.div p q) x y
    let e := stageTop l
    ((⟨e, l.map (accRound e), false⟩ : StageVal), y.map (fun q => decide (q.num = 0)))
  match mw w 3 5 with
  | 1 => at_ a.exp a.vals
  | 2 => sum Frac.add (max a.exp b.exp) a.vals b.vals
  | 3 => sum Frac.sub (max a.exp b.exp) a.vals b.vals
  | 4 => at_ (a.exp + b.exp) (z Frac.mul a.vals b.vals)
  | 5 => at_ (a.exp + ie) (a.vals.map (fun x => Frac.mul x im))
  | 6 => sum Frac.add (max a.exp ie) a.vals (List.replicate 16 im)
  | 7 => at_ (max a.exp b.exp) (z Frac.min a.vals b.vals)
  | 8 => at_ (max a.exp b.exp) (z Frac.max a.vals b.vals)
  | 9 => at_ a.exp (a.vals.map Frac.abs)
  | 10 => at_ a.exp (a.vals.map Frac.neg)
  | 11 => ratio (List.replicate 16 Frac.one) a.vals
  | 12 => ratio a.vals b.vals
  | 14 => at_ (max a.exp b.exp) (List.zipWith (fun (c : Bool) (p : Frac × Frac) => if c then p.1 else p.2)
            (m.cmp.map (laneCond (mw w 28 4))) (a.vals.zip b.vals))
  | 15 => at_ ie (List.replicate 16 im)
  | _ => at_ (-128) (List.replicate 16 Frac.zero)

/-- Two terms aligned to the larger exponent in the 48-bit accumulator, then combined (R168). -/
def accCombine (op : Frac → Frac → Frac) (a b : StageVal) : StageVal :=
  let e := max a.exp b.exp
  ⟨e, List.zipWith op (a.vals.map (accRound e)) (b.vals.map (accRound e)), a.ovf || b.ovf⟩

/-- `new` on the lanes where `p` holds, `old` elsewhere. -/
def pick {α : Type} (p : List Bool) (new old : List α) : List α :=
  List.zipWith (fun (c : Bool) (q : α × α) => if c then q.1 else q.2) p (new.zip old)

/-- A stage ended on the lanes where `on` holds: only the lanes of `live` that it concerns set the exponent. -/
def stageOn (on live : List Bool) (vs : List Frac) : StageVal :=
  let zero := List.replicate 16 Frac.zero
  let s := normStage (pick (List.zipWith and on live) vs zero)
  let at23 := fun (v : Frac) => Frac.reduce (Frac.scale (Frac.ofInt (mantissaAt 23 v s.exp)) (s.exp - 23))
  ⟨s.exp, pick live s.vals (vs.map at23), s.ovf⟩

/-- A register after a stage is written on the lanes where `on` holds: the others keep their values. -/
def StageVal.overlay (on : List Bool) (new old : StageVal) : StageVal :=
  ⟨if on.all id then new.exp else max new.exp old.exp, pick on new.vals old.vals, new.ovf⟩

/-- What the memory port can load (Table 8-4): space and offset give one value per lane. -/
abbrev MicroMem : Type := Nat → Nat → List Frac

/-- One microword (R201 to R204); `live` are the lanes that hold a loop. A lane for which the predicate fails changes nothing, but for
`ovf`, which is set on every lane of the block (R167). -/
def microStep (mem : MicroMem) (live : List Bool) (w : Nat) (m : MicroState) : MicroState :=
  let aop := mw w 3 5
  let seq := mw w 82 4
  let cond := m.cmp.map (laneCond (mw w 28 4))
  let on := if (seq = 2 ∨ seq = 3 ∨ aop = 14) then List.replicate 16 true else cond
  let (r, zero) := aluResult m w
  let acc := match mw w 23 3 with
    | 1 => r
    | 2 => accCombine Frac.add m.acc r
    | 3 => accCombine Frac.sub m.acc r
    | _ => m.acc
  let acc1 : StageVal := ⟨acc.exp, pick on acc.vals m.acc.vals, acc.ovf⟩
  let send := decide (mw w 26 1 = 1)
  let sent := stageOn on live acc1.vals
  let cmp := if aop = 13 then
      pick on (List.zipWith (fun (x y : Frac) => (Frac.sub x y).num) (m.reg (mw w 8 5)).vals (m.reg (mw w 13 5)).vals) m.cmp
    else m.cmp
  let dst := mw w 18 5
  let m1 := if send then m.setReg dst (sent.overlay on (m.reg dst)) else m
  let space := mw w 34 3
  let off := mw w 37 8
  let mreg := mw w 45 5
  let m2 := match mw w 32 2 with
    | 1 => m1.setReg mreg ((stageOn on live (mem space off)).overlay on (m.reg mreg))
    | 2 => { m1 with words := tput (fun _ => []) m1.words off (pick on (m.reg mreg).vals
              (match tget (fun _ => []) m1.words off with | [] => mem 4 off | l => l)) }
    | _ => m1
  let fs := mw w 98 16
  let fc := mw w 114 16
  let own := m.flags.map (fun f => Nat.lor (andNot f fc) fs)
  let divs := List.zipWith (fun (z : Bool) (f : Nat) => if z then Nat.lor f 256 else f) zero own
  let flushes := List.zipWith (fun (v : Frac) (f : Nat) => if send && flushed sent.exp v then Nat.lor f 512 else f) acc1.vals divs
  let flags := pick on flushes m.flags
  let bits := if send ∧ mw w 27 1 = 1 then pick on (List.zipWith min m.bits (acc1.vals.map (keptBits sent.exp))) m.bits else m.bits
  let next := match seq with
    | 1 => mw w 86 12
    | 2 => if cond.any id then mw w 86 12 else m.pc + 1
    | 3 => if (cond.zip live).all (fun x => x.1 || !x.2) then mw w 86 12 else m.pc + 1
    | _ => m.pc + 1
  { m2 with acc := acc1, cmp := cmp, bits := bits, pc := next, ended := seq = 4,
            flags := if send && sent.ovf then flags.map (fun f => Nat.lor f 256) else flags }

/-- A law run from its entry word to END (R206). Checks 4 and 8 of Table 8-7 bound its length. -/
def microRun (mem : MicroMem) (live : List Bool) (ucode : Table Nat) : Nat → MicroState → MicroState
  | 0, m => m
  | fuel + 1, m =>
    if m.ended then m
    else microRun mem live ucode fuel (microStep mem live (tget (fun _ => 0) ucode m.pc) m)

/-- What one lane of a block evaluation yields: the error, the output without the integrator (f + g·kp·e + d of R174, v30 of
Table 8-3), the feed-forward, the increment of the integrator, flags, least bits kept, target, state words, whether the loop is closed
on its measurement, the exponent of the error stage, and whether the law integrates. `u`, `i0` and `i1` come from the last stages: the
unsaturated output, the integrator as loaded and as advanced. -/
structure LaneOut where
  err : Frac
  base : Frac
  f : Frac
  inc : Frac
  closed : Bool
  flags : Nat
  bits : Nat
  target : Frac
  words : List Frac
  stage : Int
  integ : Bool := true
  u : Frac := Frac.zero
  i0 : Frac := Frac.zero
  i1 : Frac := Frac.zero
  deriving DecidableEq, Repr

/-- The lanes of a block under a vendor law (R166, R168, R174): the error stage, the proportional stage from the products of two
mantissas, and the output without the integrator. The spec names these stages and leaves the order of the sums to the law's microcode
(DESIGN CHOICE, log entry 132). -/
def vendorBlock (laws : List (Option LaneLaw)) : List (Option LaneOut) :=
  let z : LaneLaw := ⟨Frac.zero, Frac.zero, Frac.zero, Frac.zero, Frac.zero, false, 0, Frac.zero, Frac.zero, true, []⟩
  let ls := laws.map (fun o => o.getD z)
  let errs := ls.map (fun l => l.err)
  let es := normStage errs
  let fs := normStage (ls.map (fun l => l.f))
  let kps := normStage (ls.map (fun l => Frac.mul l.g l.kp))
  let kis := normStage (ls.map (fun l => Frac.mul l.g l.ki))
  let props := List.zipWith Frac.mul kps.vals es.vals
  let ps := normStage props
  let ds := normStage (ls.map (fun l => l.deriv))
  let base := accSum (accSum fs.vals ps.vals) ds.vals
  let ovf := es.ovf || fs.ovf || kps.ovf || kis.ovf || ps.ovf || ds.ovf
  let rows := (ls.zip (errs.zip es.vals)).zip ((props.zip fs.vals).zip (base.zip kis.vals))
  let outs := rows.map (fun ((l, e0, e), ((p0, f), (b, ki))) =>
    ({ err := e, base := b, f := f, inc := Frac.mul ki e, closed := l.closed,
       flags := Nat.lor l.flags (256 * b2n ovf + 512 * b2n (flushed es.exp e0 || flushed ps.exp p0)),
       bits := keptBits es.exp e0, target := l.target, words := l.words, stage := es.exp, integ := l.integ } : LaneOut))
  List.zipWith (fun (o : Option LaneLaw) (r : LaneOut) => o.map (fun _ => r)) laws outs

/-- The last stages of a block (R166 to R170, R174): each lane comes with the integrator that it loads. The output stage gives u_unsat,
f + I on a lane that is dark or unobserved (Table 7-3); the integrator stage is a precision stage. -/
def finishBlock (minBits : Nat) (lanes : List (Option (LaneOut × Frac))) : List (Option LaneOut) :=
  let col := fun (g : LaneOut × Frac → Frac) => lanes.map (fun l => match l with | some x => g x | none => Frac.zero)
  let i0 := accLoad (col (fun x => x.2))
  let sums := accSum (col (fun x => if x.1.closed then x.1.base else x.1.f)) i0
  let us := normStage sums
  let i1 := accSum i0 (col (fun x => if x.1.integ then x.1.inc else Frac.zero))
  let top := stageTop i1
  let rows := (lanes.zip (sums.zip us.vals)).zip (i0.zip i1)
  rows.map (fun ((l, s, u), (a, b)) => l.map (fun x =>
    let o := x.1
    let bits := min o.bits (keptBits top b)
    { o with u := u, i0 := a, i1 := b, bits := bits,
             flags := Nat.lor o.flags (256 * b2n us.ovf + 512 * b2n (flushed us.exp s) + 1024 * b2n (decide (bits < minBits))) }))

/-- The loop starts in this evaluation (R186): a start is due, and neither a sluice nor a suspension keeps it from driving. -/
def Dev.starting (d : Dev) (e : Nat) : Option LoopStart :=
  if (d.loop e).inSluice || d.suspended e then none else (d.loop e).start

/-- The registers of Table 8-3 at entry for one lane of a hold kind, v0 to v15 and v31. `e0` is the start error of a loop that starts:
the stored previous error and the law's state words are set from it (R186). -/
def Dev.entryRegs (d : Dev) (kind e : Nat) (e0 : Option Frac) : List (Nat × Frac) :=
  let x := d.loop e
  let (a, b) := d.taps e
  let sw := decide (kind = 0)
  let cross := d.cellSetting e
  let f := if sw then Frac.ofInt (if cross then d.bank.crossCode e else d.bank.barCode e) else Frac.ofInt (d.bank.barCode e)
  let dT := if sw then Frac.sub (d.degrees (linkOf e)) (d.bracketCentre (d.bracket (linkOf e)))
    else Frac.sub (d.degrees (linkOf e)) (Frac.mk2 (d.bank.tCal e) 100)
  [(0, a), (1, b), (2, if sw then d.feedLight e 0 else Frac.zero), (3, if sw then d.feedLight e 1 else Frac.zero),
   (4, coefValue x.operand), (5, f), (6, d.bank.gain e), (7, dT), (8, x.out), (9, e0.getD x.eLast)] ++
  (List.range 6).map (fun j => (10 + j, e0.getD (x.words[j]?.getD Frac.zero))) ++ [(31, extValue x.i)]

/-- Register `r` of Table 8-3 at entry. -/
def Dev.entryReg (d : Dev) (kind e : Nat) (e0 : Option Frac) (r : Nat) : Frac :=
  (((d.entryRegs kind e e0).find? (fun x => x.1 = r)).map (fun x => x.2)).getD Frac.zero

/-- The value that space `sp`, offset `o` of Table 8-4 holds for one lane. -/
def Dev.memWord (d : Dev) (kind e : Nat) (e0 : Option Frac) (sp o : Nat) : Frac :=
  let x := d.loop e
  match sp with
  | 0 => d.entryReg kind e e0 o
  | 1 => d.coef x.set o
  | 2 => match o with
    | 0 => d.bank.targetK e (d.bracket (linkOf e)) | 1 => d.bank.gain e | 2 => Frac.ofInt (d.bank.barCode e)
    | 3 => Frac.ofInt (d.bank.crossCode e) | 4 => d.bank.tempCo e | _ => d.bank.loss e
  | 3 => if o = 0 then extValue x.i else x.out
  | _ => d.entryReg kind e e0 (10 + o)

/-- An owner law run on 16 lanes (R206 to R208); `pre` gives the start error of a lane whose loop starts. -/
def Dev.ownerRun (d : Dev) (slot : Nat) (full : List (Option Nat)) (pre : List (Option Frac)) : MicroState :=
  let kind := d.fld (F.lpcSlotInfo_kind slot)
  let lanes := full.zip pre
  let live := full.map Option.isSome
  let col := fun (r : Nat) => normStage (lanes.map (fun x => match x.1 with | some e => d.entryReg kind e x.2 r | none => Frac.zero))
  let zero : StageVal := ⟨-128, List.replicate 16 Frac.zero, false⟩
  let m0 : MicroState := ⟨[], zero, List.replicate 16 0, List.replicate 16 0, List.replicate 16 23, [], d.fld (F.lpcSlotInfo_entry slot), false⟩
  let m1 := ((List.range 16) ++ [31]).foldl (fun m r => m.setReg r (col r)) m0
  let mem : MicroMem := fun sp o => lanes.map (fun x => match x.1 with | some e => d.memWord kind e x.2 sp o | none => Frac.zero)
  microRun mem live d.lpc.ucode 513 m1

/-- The start errors of an owner block's lanes (R186). Where Table 7-6 takes the error of the first frame's samples, that is v28 of the law
run with those states at 0. -/
def Dev.ownerStarts (d : Dev) (slot : Nat) (full : List (Option Nat)) : List (Option Frac) :=
  let pre := full.map (fun o => o.bind (fun e => (d.starting e).map (fun s => s.err.getD Frac.zero)))
  let v28 := ((d.ownerRun slot full pre).reg 28).vals
  List.zipWith (fun (o : Option Nat) (v : Frac) => o.bind (fun e => (d.starting e).map (fun s => s.err.getD (asCoef v)))) full v28

/-- A block of an owner law (R206 to R208). -/
def Dev.ownerBlock (d : Dev) (slot : Nat) (lanes : List (Option Nat)) : List (Option LaneOut) :=
  let kind := d.fld (F.lpcSlotInfo_kind slot)
  let full := lanes ++ List.replicate (16 - lanes.length) none
  let pre := d.ownerStarts slot full
  let m := d.ownerRun slot full pre
  let at_ := fun (r i : Nat) => (m.reg r).vals[i]?.getD Frac.zero
  (full.zip pre).zipIdx.map (fun ((o, e0), i) => o.map (fun e =>
    let fl := m.flags[i]?.getD 0
    { err := at_ 28 i, base := at_ 30 i, f := d.entryReg kind e e0 5, inc := at_ 29 i, closed := !(bit fl 4 || bit fl 5), flags := fl,
      bits := m.bits[i]?.getD 23, target := coefValue (d.loop e).operand,
      words := (List.range 6).map (fun j => match tget (fun _ => []) m.words j with
        | [] => d.entryReg kind e e0 (10 + j)
        | l => asCoef (l[i]?.getD Frac.zero)),
      stage := (m.reg 28).exp }))

/-- The lanes of a block evaluated by its law, up to the output without the integrator. A hold loop is bound to slots of its element's kind
only, so that slots 3 to 6 never come up here (R173). -/
def Dev.lawLanes (d : Dev) (slot : Nat) (lanes : List (Option Nat)) : List (Option LaneOut) :=
  match slot with
  | 0 => vendorBlock (lanes.map (fun o => o.map d.law0))
  | 1 => vendorBlock (lanes.map (fun o => o.map d.law1))
  | 2 => vendorBlock (lanes.map (fun o => o.map d.law2))
  | 3 | 4 | 5 | 6 => vendorBlock (lanes.map (fun o => o.map (fun e =>
      genericLaw slot (coefValue (d.loop e).operand) (d.taps e).1 (d.coef (d.loop e).set) (d.loop e).words)))
  | _ => d.ownerBlock slot lanes

/-- I held so that f + I stays within the limits (R174). -/
def clampI (umin umax f i : Frac) : Frac := Frac.clamp (Frac.sub umin f) (Frac.sub umax f) i

/-- The integrator with which a lane enters the evaluation: its own, or that of a start, u0 less the output without it (R186, R207). -/
def loadedI (umin umax : Frac) (start : Option LoopStart) (o : LaneOut) (i : Ext) : Frac :=
  if !o.integ then Frac.zero else
  match start with
  | some s => clampI umin umax o.f (Frac.sub (Frac.ofInt s.code) o.base)
  | none => extValue i

/-- The lanes of a block of hold loops evaluated, all stages. -/
def Dev.evalLanes (d : Dev) (slot : Nat) (lanes : List (Option Nat)) : List (Option LaneOut) :=
  let outs := d.lawLanes slot lanes
  finishBlock (d.fld F.lpcPrecCfg_minBits) (List.zipWith (fun (o : Option LaneOut) (l : Option Nat) => match o, l with
    | some o, some e => some (o, loadedI (d.coef (d.loop e).set 2) (d.coef (d.loop e).set 3) (d.starting e) o (d.loop e).i)
    | _, _ => none) outs (lanes ++ List.replicate (outs.length - lanes.length) none))

/-- The output of a lane: unsaturated value, clamped to the limits, then to within c4 of the previous output; with the
saturation and rate flags (R174, R180). -/
def outputForm (umin umax rate prev u : Frac) : Frac × Nat :=
  let c := Frac.clamp umin umax u
  let r := Frac.clamp (Frac.sub prev rate) (Frac.add prev rate) c
  (r, b2n (Frac.lt umax u) + 2 * b2n (Frac.lt u umin) + 4 * b2n (decide (r ≠ c)))

/-- A masked lane (R19, R179): nothing but its flags changes. -/
def maskedLoop (sluice halt : Bool) (x : Loop) : Loop :=
  { x with flags := Nat.lor (andNot x.flags 0xF8FC) (8 + 16384 + 128 * b2n halt + 64 * b2n sluice) }

/-- The common epilogue for one lane (R174, R179, R186, R206): the loop's new record. `sluice` as R21, `halt` while the loop is suspended:
such a lane gives no output and keeps its integrator. A loop that starts gives its starting code exactly. -/
def epilogue (umin umax rate : Frac) (sluice halt : Bool) (o : LaneOut) (x : Loop) : Loop :=
  let y := { x with eLast := asCoef o.err, target := asCoef o.target, words := o.words, uUnsat := asCoef o.u, f := asCoef o.f,
                    bits := (o.bits :: x.bits).take 400, stageExp := o.stage }
  if sluice || halt then
    { y with flags := Nat.lor (Nat.lor (Nat.land x.flags 3) (Nat.land o.flags 0x8730)) (64 * b2n sluice + 128 * b2n halt + 16384) }
  else
    let (out, fl) := match x.start with
      | some s => (Frac.ofInt s.code, (outputForm umin umax rate x.out o.u).2 % 4)
      | none => outputForm umin umax rate x.out o.u
    let free := o.closed && decide (fl = 0)
    { y with i := extWord (if o.integ then clampI umin umax o.f (if free then o.i1 else o.i0) else Frac.zero), out := asCoef out,
             code := (clampInt 0 0xFFFF (Frac.round out)).toNat, start := none,
             flags := Nat.lor (Nat.land o.flags 0x8730) (fl + 16384 * b2n (!free)) }

end Sys2Proof.Machine
end

