-- ==== Sys2Proof/Machine/TbuOps.lean ====
section
/-! DEFINITION. The timebase unit's estimates: wall time and instants, trains (R91, R94), keys and their state (R98 to
R101), the catenary angle (R105 to R109). -/

namespace Sys2Proof.Machine

/-- The least number from `n` on at which `p`, which stays true once it is, holds: looked for within the next 2 ^ `k`. -/
def leastFrom (p : Nat → Bool) : Nat → Nat → Nat
  | 0, n => n
  | k + 1, n => leastFrom p k (if p (n + 2 ^ k - 1) then n else n + 2 ^ k)

/-- The first timebase count, from the present one on, at which wall time is at or after the TAI instant `num / den` ns, as the present
mapping has it with its rate correction and its slew (R88, R98). -/
def Dev.countAtTai (d : Dev) (num : Int) (den : Nat) : Nat :=
  leastFrom (fun c => decide (2 * num ≤ d.tbu.wallHalf c * den)) 64 d.count

/-- The tick at which wall time reaches `t` ns, as the present mapping has it; where it has reached it, the tick lies in the past. -/
def Dev.tickOfTai (d : Dev) (t : Int) : Int :=
  let past := d.tbu.wallHalf d.count - 2 * t
  if 0 ≤ past then ((d.count : Int) - past / 5) * 20 else (d.countAtTai t 1 * tickCount : Nat)

/-- Wall time in ns. -/
def Dev.wall (d : Dev) : Int := d.tbu.wallAt d.now

/-- A tracked train. -/
def Dev.train (d : Dev) (i : Nat) : Option Train := aget d.tbu.trains i

/-- The extrapolated position at TAI instant `t`, rounded towards the reference point (R91). -/
def Train.at (x : Train) (t : Int) : Int := x.pRef + (x.speed * (t - x.tRef)).tdiv 1000000000

/-- The age of a train in ns. -/
def Dev.age (d : Dev) (x : Train) : Int := d.wall - x.tLast

/-- The confidence level of a train (R94). -/
def Dev.confidence (d : Dev) (x : Train) : Nat :=
  if d.age x ≤ 2000000000 then (if d.flag F.cpxReady1_ptp then 3 else 2)
  else if d.age x ≤ 10000000000 then 1 else 0

/-- The tick, as a whole count from the present one on, at which a train's extrapolated position reaches `w` (R98); none at speed 0. -/
def Dev.crossing (d : Dev) (x : Train) (w : Int) : Option Nat :=
  if x.speed = 0 then none
  else
    let dist := (w - x.pRef) * 1000000000 * (if x.speed < 0 then -1 else 1)
    some (d.countAtTai (x.tRef * x.speed.natAbs + dist) x.speed.natAbs * tickCount)

/-- `w` lies at or behind a train's position in its direction of travel (R99). -/
def Dev.behind (d : Dev) (x : Train) (w : Int) : Bool :=
  if 0 < x.speed then decide (w ≤ x.at d.wall) else if x.speed < 0 then decide (x.at d.wall ≤ w) else false

/-- A position mark's `where` (R41). -/
def Key.whereMm (k : Key) : Int := signed 32 k.pos

/-- `when` of a mark is 0 or has been reached. -/
def Dev.whenReached (d : Dev) (k : Key) : Bool := k.time = 0 || decide ((k.time : Int) ≤ d.wall)

/-- A key whose mark or instant has passed when it is checked (R42, R99, R101). -/
def Dev.passed (d : Dev) (k : Key) : Bool :=
  match k.kind with
  | 1 => decide ((k.time : Int) < d.wall)
  | 2 => match d.train k.train with
    | some x => x.track = k.track && d.behind x k.whereMm && d.whenReached k
    | none => false
  | _ => false

/-- Phase gained at the tracked frequency in `dt` ticks, in 2^−32 turn. -/
def phaseGain (freq dt : Nat) : Nat := freq * dt * 65536 / 8000000000

/-- What is taken up of a slewed difference while the angle gains `g`: at most 1 % of the tracked frequency (R109). -/
def angleSlewDone (t : Tbu) (g : Nat) : Int := clampInt (-((g / 100 : Nat) : Int)) ((g / 100 : Nat) : Int) t.angleSlew

/-- The catenary angle at tick `t`, in 2^−32 turn and not reduced to one turn: the last estimate run on at the tracked frequency, with a slewed
difference taken up (R105, R108, R109). -/
def Dev.angleRun (d : Dev) (t : Nat) : Int :=
  let g := phaseGain (d.regN R.tbuFreq) (t - d.tbu.angleTick)
  (d.tbu.angleRef + g : Nat) + angleSlewDone d.tbu g

/-- The catenary angle at tick `t`, in 2^−32 turn (R105). -/
def Dev.angleAt (d : Dev) (t : Nat) : Nat := (d.angleRun t % (2 ^ 32 : Nat)).toNat

/-- The angle carried forward to now. -/
def Dev.carryAngle (d : Dev) : Dev :=
  let s := angleSlewDone d.tbu (phaseGain (d.regN R.tbuFreq) (d.now - d.tbu.angleTick))
  { d with tbu := { d.tbu with angleRef := d.angleAt d.now, angleTick := d.now, angleSlew := d.tbu.angleSlew - s } }

/-- The tick, as a whole count, at which the angle first reaches or passes `w` at or after tick `t0` (R101, R109); none while no frequency is
tracked. -/
def Dev.angleReach (d : Dev) (w t0 : Nat) : Option Nat :=
  if d.regN R.tbuFreq = 0 then none
  else
    let c := (t0 + tickCount - 1) / tickCount
    let a := d.angleRun (c * tickCount)
    let goal := a + (((w : Int) - a) % (2 ^ 32 : Nat))
    some (leastFrom (fun n => decide (goal ≤ d.angleRun (n * tickCount))) 64 c * tickCount)

/-- The predicted fire instant of a waiting key, checked at tick `since` (R98, R99, R101, R102); none where none can be
predicted. -/
def Dev.predict (d : Dev) (k : Key) (since : Nat) : Option Nat :=
  let whenTick := if k.time = 0 then 0 else d.countAtTai k.time 1 * tickCount
  match k.kind with
  | 1 => some (d.countAtTai k.time 1 * tickCount)
  | 2 => match d.train k.train with
    | some x =>
      if x.track ≠ k.track ∨ d.confidence x = 0 then none
      else if d.behind x k.whereMm then (if d.whenReached k then none else some whenTick)
      else (d.crossing x k.whereMm).map (fun c => max c whenTick)
    | none => none
  | 3 => if d.flag F.cpxReady1_angle then d.angleReach k.pos (max since whenTick) else none
  | _ => none

/-- Firing of a key now would carry `low_conf` (R89, R94, R108). -/
def Dev.keyLowConf (d : Dev) (k : Key) : Bool :=
  match k.kind with
  | 1 => !d.flag F.cpxReady1_ptp
  | 2 => match d.train k.train with | some x => decide (d.confidence x = 1 ∨ d.confidence x = 2) | none => false
  | 3 => d.flag F.tbuCatStat_flywheel
  | _ => false

/-- A key as a payload carries it (Table 2-3), at offset `o`. -/
def keyAt (p : Bytes) (o : Nat) : Key :=
  { kind := rd p o 1, train := rd p (o + 1) 1, track := rd p (o + 2) 2, pos := rd p (o + 4) 4, time := rd p (o + 8) 8 }

/-- A key that R479 refuses. -/
def keyBad (k : Key) : Bool :=
  match k.kind with
  | 0 => k.train ≠ 0 || k.track ≠ 0 || k.pos ≠ 0 || k.time ≠ 0
  | 1 => k.train ≠ 0 || k.track ≠ 0 || k.pos ≠ 0
  | 2 => decide (63 < k.train)
  | 3 => k.train ≠ 0 || k.track ≠ 0
  | _ => true

/-- The 16 bytes of a key. -/
def keyBytes (k : Key) : Bytes := le 1 k.kind ++ le 1 k.train ++ le 2 k.track ++ le 4 k.pos ++ le 8 k.time

/-- A new key is to be held from the start: its train is at confidence 0 (R99), or the angle is lost (R109). -/
def Dev.keyHeld (d : Dev) (k : Key) : Bool :=
  match k.kind with
  | 2 => match d.train k.train with | some x => decide (d.confidence x = 0) | none => false
  | 3 => !d.flag F.cpxReady1_angle
  | _ => false

/-- How a command's key stands now (R42, R99, R101, R104); an entry of the schedule is taken where the key waits, or has
passed and the command runs at once. -/
def Dev.keyState (d : Dev) (c : Call) (k : Key) : KeyState × Dev :=
  if k.kind = 0 then (.now, d)
  else
    let held := d.keyHeld k
    let late := !held && d.passed k
    let strict := flagStrict c.packet.cmd.flags
    if late && strict then (.tooLate, d)
    else match firstFree d.tbu.sched 0 4096 with
      | none => (.full, d)
      | some i =>
        let pred := if held || late then none else d.predict k d.now
        let st := if late then 3 else if held then 2 else 1
        let e : SchedEntry := ⟨st, strict, false, late, c.owner, c.packet.opcode.toNat, c.packet.cmd.tag.toNat, k, c.oid,
          pred, d.now⟩
        (if late then .late i else .waits i, { d with tbu := { d.tbu with sched := aput d.tbu.sched i e } })

/-- The waiting or held entries that satisfy `p`, ascending. -/
def Dev.entriesWhere (d : Dev) (p : SchedEntry → Bool) : List (Nat × SchedEntry) :=
  d.tbu.sched.filter (fun x => decide (x.2.state ≤ 2) && p x.2)

/-- Entries that satisfy `p` become held (R94, R109, R112); answers how many. -/
def Dev.holdEntries (d : Dev) (p : SchedEntry → Bool) : Nat × Dev :=
  let l := d.entriesWhere (fun e => decide (e.state = 1) && p e)
  (l.length, l.foldl (fun d x => d.setEntry x.1 (fun e => { e with state := 2, predicted := none })) d)

/-- An entry's record (Table 4-3). Of a free entry the spec gives `state` 0 only: the model's record holds its number and zeros, `predicted`
among them (DESIGN CHOICE, log entry 125). -/
def Dev.entryRecord (d : Dev) (i : Nat) : Bytes :=
  match aget d.tbu.sched i with
  | none => le 2 i ++ le 46 0
  | some e =>
    let p := match e.predicted with
      | some t => (d.tbu.wallAt t % (2 ^ 64 : Nat)).toNat
      | none => 2 ^ 64 - 1
    le 2 i ++ le 1 e.state ++ le 1 (b2n e.strict + 2 * b2n e.lowConf + 4 * b2n e.late) ++ le 2 e.owner ++ le 2 e.opcode ++
      le 4 e.tag ++ keyBytes e.key ++ le 8 p ++ le 12 0

/-- The status of a keyed command that did what it was asked: LATE where its key had passed (R42, R99). -/
def Dev.doneStatus (d : Dev) (oid : Nat) : Nat :=
  if d.tbu.sched.any (fun e => e.2.oid = oid && e.2.late) then St.late else St.done

/-- `data` of event 0xggF1 (Table 2-20). -/
def firingData (e : SchedEntry) : Bytes := le 2 e.opcode ++ le 2 e.owner ++ le 4 e.tag ++ le 1 e.key.kind

/-- The publication of a firing, where `event_on_done` asks for it (R103, R481). -/
def Dev.publishFiring (d : Dev) (i : Nat) (e : SchedEntry) (low : Bool) : Dev :=
  match d.findOpen e.oid with
  | some o => if flagEventOnDone o.packet.cmd.flags then d.event (e.opcode / 256 * 256 + 0xF1) i (firingData e) low else d
  | none => d

/-- The firing of entry `i`, whose key had passed when its command was checked: marked `low_conf` where it has to be, and published like every
other firing (DESIGN CHOICE, log entry 126). -/
def Dev.firesPassed (d : Dev) (oid i : Nat) : Dev :=
  match aget d.tbu.sched i with
  | none => d
  | some e =>
    let low := d.keyLowConf e.key
    let d1 := d.setEntry i (fun e => { e with predicted := some d.now, lowConf := low })
    (if low then d1.markLowConf oid else d1).publishFiring i e low

/-- A keyed command run by its key (R41, R42, R99, R104): at once for kind 0 and for a key that has passed, refused
where it is strict and has passed or where the schedule is full, or left waiting. -/
def Dev.keyed (d : Dev) (c : Call) (k : Key) (fire : Dev → Dev) (result : Bytes) : Dev × Verdict :=
  match d.keyState c k with
  | (.now, d1) => (fire d1, .accepted result)
  | (.late i, d1) => (fire (d1.firesPassed c.oid i), .accepted result)
  | (.tooLate, _) => (d, .final St.tooLate [])
  | (.full, _) => (d, .final St.busy [])
  | (.waits _, d1) => (d1, .accepted result)

end Sys2Proof.Machine
end

