-- ==== Sys2Proof/Machine/CmuPower.lean ====
section
/-! DEFINITION. The power loops of a control period (R288 to R297), the timing sets and edge lists (R298, R299), and
the conditions of Table 12-10. -/

namespace Sys2Proof.Machine

/-! ### Measurements (R287) -/

/-- A number of tenths, hundredths, …: `n / m`. -/
def unitsOf (n : Int) (m : Nat) : Frac := Frac.mk2 n m

/-- A DC-link voltage field as a coefficient word in V (R287). -/
def voltsOf (v : Nat) : Frac := asCoef (unitsOf v 10)
/-- Cell DC-link voltage in V. -/
def CellNode.volts (x : CellNode) : Frac := voltsOf x.vDc
/-- Secondary output voltage in V. -/
def CellNode.vout (x : CellNode) : Frac := asCoef (unitsOf x.vOut 100)
/-- DAB power p_j in W (Table 12-1). -/
def CellNode.power (x : CellNode) : Frac := Frac.mul x.vout (asCoef (unitsOf x.iDab 100))

/-- The number H of values in a half-cycle mean (R287). -/
def Dev.halfCycle (d : Dev) : Nat :=
  let f := d.regN R.tbuFreq
  let den := 2 * f * d.cmu.period * 25
  if den = 0 then 2048 else max 1 (min 2048 ((2 * 65536 * 10000000 + den) / (2 * den)))

/-- Mean of a list of fractions; 0 of none. -/
def meanOf (l : List Frac) : Frac :=
  if l.isEmpty then Frac.zero else Frac.div (l.foldl Frac.add Frac.zero) (Frac.ofInt l.length)

/-- Half-cycle mean v̄_j of a cell in V (R287). -/
def Dev.halfMean (d : Dev) (n : Nat) : Frac := meanOf (((d.cellNode n).hist.take d.halfCycle).map voltsOf)

/-- In-service mean v̄ (R287). -/
def Dev.serviceMean (d : Dev) : Frac := meanOf (d.inService.map d.halfMean)

/-- Mean of v_out over the cells in service. -/
def Dev.meanVout (d : Dev) : Frac := meanOf (d.inService.map (fun n => (d.cellNode n).vout))

/-- Tracked RMS amplitude V in volts (TBU.CAT_STAT `amplitude`, 10 V). -/
def Dev.catVolts (d : Dev) : Frac := Frac.ofInt (10 * d.fld F.tbuCatStat_amplitude)

/-- Codes to amperes or volts by a scale of 2^−16 per code. -/
def scaled (code : Int) (scale : Nat) : Frac := Frac.mk2 (code * scale) 65536

/-- Catenary current at S(k) in A. -/
def Dev.iCat (d : Dev) : Frac := scaled d.cmu.iCat (d.regN R.cmuIcatScale)
/-- LV-bus voltage at S(k) in V. -/
def Dev.vLv (d : Dev) : Frac := scaled d.cmu.vLv (d.regN R.cmuLvbScale)
/-- LV-stage power P_lv (R330). -/
def Dev.pLv (d : Dev) : Frac := Frac.mul d.vLv (scaled d.cmu.iLv (d.regN R.pwmLvpScale))

/-! ### Timing sets (R298) -/

/-- A timing-set word. -/
def Dev.tset (d : Dev) (n s : Nat) : Nat := d.regN (R.cmuTset n s)

/-- `ar_mode` and `dab_mode` of each set (Table 12-4). -/
def setModes (s : Nat) : Nat × Nat :=
  match s with
  | 0 | 1 | 5 => (1, 1) | 2 => (1, 0) | 3 | 4 => (1, 2) | _ => (0, 0)

/-- The angles of cell ordinal `i` of `n`: `car_ang` and `dab_ang` (R298). -/
def cellAngles (i n : Nat) : Nat × Nat :=
  if n = 0 then (0, 0) else ((2 * i * 65536 + 2 * n) / (4 * n) % 65536, (2 * i * 256 + n) / (2 * n) % 256)

/-- The word of a set for the cell of ordinal `i` of `n` (R298). -/
def tsetWord (s i n : Nat) : Nat :=
  let (c, b) := cellAngles i n
  let (a, m) := setModes s
  c + 65536 * b + 2 ^ 24 * a + 2 ^ 26 * m + 2 ^ 28

/-- One set written for every cell (R298). -/
def Dev.writeSet (d : Dev) (s : Nat) : Dev :=
  let l := d.inService
  (List.range 48).foldl (fun d n =>
    d.setRegN (R.cmuTset n s) (match l.idxOf? n with | some i => tsetWord s i l.length | none => 0)) d

/-- The set in force. -/
def Dev.setInForce (d : Dev) : Nat := d.fld F.cmuSstStat_set

/-- A set does not show the cells in service. -/
def Dev.setStale (d : Dev) (s : Nat) : Bool :=
  let l := d.inService
  (List.range 48).any (fun n => decide (d.tset n s / 2 ^ 28 % 2 = 1) ≠ l.contains n)

/-- The cells re-spread (R298, R306, R307, R317): every set but the one in force is written where it does not show the cells in service, and
a running set that does not is exchanged for its copy from the next period start. In stages 1 and 2 no running set is in use yet. -/
def Dev.respread (d : Dev) : Dev :=
  let f := d.setInForce
  let d1 := ((List.range 8).filter (fun s => s ≠ f && d.setStale s)).foldl (fun d s => d.writeSet s) d
  if f < 2 ∧ 3 ≤ d1.stage ∧ d1.cmu.nextSet = none ∧ d1.setStale f = true then { d1 with cmu := { d1.cmu with nextSet := some (1 - f) } } else d1

/-- The set that acts from the next period start. -/
def Dev.comingSet (d : Dev) : Nat := d.cmu.nextSet.getD d.setInForce

/-- The set in force changed at a period start, with event 0x0721; the set left is written if it does not show the cells in service
(R317). -/
def Dev.switchSet (d : Dev) (s : Nat) : Dev :=
  let d0 := { d with cmu := { d.cmu with nextSet := none } }
  let f := d.setInForce
  if f = s then d0
  else
    let d1 := (d0.setFld F.cmuSstStat_set s).event 0x0721 0 (le 1 s ++ le 1 d.inService.length)
    if d1.setStale f then d1.writeSet f else d1

/-! ### Cells leaving service -/

/-- A cell leaves service (R306, Table 12-12): its `svc` and the count of cells; the rest is re-spread in the next
lists. Cause as in event 0x0722. -/
def Dev.cellLeave (d : Dev) (n svc cause : Nat) : Dev :=
  ((d.setFld (F.cmuCellSvc_svc n) svc).countService).event 0x0722 n (le 1 cause)

/-- A cell leaves service without a command (R307, R313): source `cell_out` with it. -/
def Dev.cellOut (d : Dev) (n svc cause : Nat) : Dev := (d.cellLeave n svc cause).raise (160 + n)

/-- One condition of Table 12-10 that trips (bits 0 to 4 of CMU.PROT_STAT): it acts when it appears. -/
def Dev.protCondition (d : Dev) (i : Nat) (v : Bool) : Dev :=
  if v then (if d.present (248 + i) then d else (d.protTrip i).event 0x0723 0 (le 1 i)) else d.protGone i

/-- `vout_ov` (bit 5) and `overmod` (bit 6): latch, source and event, no trip. -/
def Dev.protLatch (d : Dev) (i : Nat) (v : Bool) : Dev :=
  if v then
    if d.present (248 + i) then d
    else ((d.setBitAt R.cmuProtStat i true).raiseLevel (248 + i)).event 0x0723 0 (le 1 i)
  else d.protGone i

/-- The SST is in stages 1 to 9. -/
def Dev.sstUp (d : Dev) : Bool := decide (1 ≤ d.stage) && decide (d.stage ≤ 9)

/-- The checks of a cell's measurement at the cut-off (R307): over `vdc_ov` or `t_trip` it is bypassed. -/
def Dev.checkCell (d : Dev) (n : Nat) : Dev :=
  let x := d.cellNode n
  let past := decide (d.fld F.cmuVdcLim_vdcOv < x.vDc)
  let hot := decide ((d.fld F.cmuTherm_tTrip : Int) < x.tHot)
  if d.sstUp && x.got && (past || hot) then (d.queueCellCmd n 0x03 0 none).cellOut n 1 (if past then 4 else 5) else d

/-- The protections of Table 12-10 that the cut-off finds. -/
def Dev.checkProtections (d : Dev) : Dev :=
  let d1 := d.inService.foldl Dev.checkCell d
  let few := decide (3 ≤ d1.stage) && decide (d1.stage ≤ 9) && decide (d1.inService.length < d1.fld F.cmuCellCfg_nMin)
  let d2 := d1.protCondition 2 few
  let ov := decide (1 ≤ d2.stage) && Frac.lt (unitsOf (d2.fld F.cmuVdcLim_vdcOv) 10) d2.serviceMean
  let d3 := d2.protCondition 0 ov
  let lim := unitsOf (d3.fld F.cmuVoutOv_voutOv) 10
  let v := d3.meanVout
  let hold := decide (1 ≤ d3.stage) && (Frac.lt lim v || (d3.cmu.voutHold && !Frac.lt v (Frac.mul lim (Frac.mk2 95 100))))
  ({ d3 with cmu := { d3.cmu with voutHold := hold } }).protLatch 5 hold

/-! ### Loops -/

/-- A power loop's lane: 0 slot 16, 1 slot 17, 3 + n cell balance, 51 + n DAB power, 99 intermediate bus, 100 LV bus. -/
def Dev.lane (d : Dev) (k : Nat) : PowerLane := tget (fun _ => {}) d.cmu.lanes k

/-- A lane replaced. -/
def Dev.setLane (d : Dev) (k : Nat) (x : PowerLane) : Dev :=
  { d with cmu := { d.cmu with lanes := tput (fun _ => {}) d.cmu.lanes k x } }

/-- A lane started (Table 12-3). -/
def Dev.startLane (d : Dev) (k : Nat) : Dev := d.setLane k { run := true, fresh := true }

/-- Every lane stopped. -/
def Dev.stopLanes (d : Dev) : Dev := { d with cmu := { d.cmu with lanes := [] } }

/-- The lane as it was published at the latest 0.40P (R194). -/
def Dev.shownLane (d : Dev) (k : Nat) : PowerLane := tget (fun _ => {}) d.cmu.shown k

/-- What the cluster counts of a lane whose flags were `was` and are `new` after an evaluation (R167, R170, Table 7-14). -/
def Dev.countLane (d : Dev) (was new : Nat) : Dev :=
  let d1 := if andNot (Nat.land new 3) (Nat.land was 3) ≠ 0 then d.bump R.lpcSatCount else d
  let d2 := if bit new 9 then d1.bump R.lpcFlushCount else d1
  if bit new 10 then d2.bump R.lpcLowbitsCount else d2

/-- A block with `ovf` on engine `e` (R167): counted, event 0x0404 with the element of lane 0 or 0xFFFF, source 295. -/
def Dev.reportOvf (d : Dev) (e first : Nat) : Dev := ((d.bump R.lpcOvfCount).event 0x0404 e (le 2 first)).raise 295

/-- One lane's evaluation (R174, R178, R179, R297): `allow` says that law 7 permits integration, `chosen` that it selected the lane. -/
def powerLane (umin umax rate : Frac) (stale allow chosen : Bool) (o : LaneOut) (x : PowerLane) : PowerLane :=
  if !x.run then x else
  let prev := if x.fresh then Frac.clamp umin umax o.u else x.out
  let (out, fl) := outputForm umin umax rate prev o.u
  let free := decide (fl = 0) && !stale && allow
  { x with i := extWord (clampI umin umax o.f (if free then o.i1 else o.i0)), out := asCoef out, eLast := asCoef o.err, fresh := false, f := asCoef o.f,
           uUnsat := asCoef o.u, stageExp := o.stage, bits := (o.bits :: x.bits).take 400,
           flags := fl + o.flags % 2048 / 256 * 256 + 4096 * b2n stale + 8192 * b2n (!chosen) + 16384 * b2n (!free) }

/-- The law of a power lane: error, feed-forward, gains, and the additive term d. -/
def powerLaw (err f kp ki der : Frac) : LaneLaw := { err := err, f := f, g := Frac.one, kp := kp, ki := ki, closed := true, flags := 0, target := Frac.zero, deriv := der }

/-- The integrator with which a power lane enters: its own, or of a fresh lane 0, or what makes it begin at its feed-forward where `f0`
(R297). -/
def PowerLane.load (x : PowerLane) (f0 : Bool) (o : LaneOut) : Frac :=
  if x.fresh then (if f0 then Frac.neg (Frac.sub o.base o.f) else Frac.zero) else extValue x.i

/-- A block of power lanes: each with its law, where it runs. -/
def powerBlock (minBits : Nat) (f0 : Bool) (lanes : List (Option LaneLaw × PowerLane)) : List (Option LaneOut) :=
  let outs := vendorBlock (lanes.map (fun l => if l.2.run then l.1 else none))
  finishBlock minBits (List.zipWith (fun (o : Option LaneOut) (l : Option LaneLaw × PowerLane) => o.map (fun o => (o, l.2.load f0 o))) outs lanes)

/-- One lane evaluated in a block of its own, with the integrator that it loads. -/
def oneLane (law : LaneLaw) (minBits : Nat) (i : Frac) : Option LaneOut :=
  ((finishBlock minBits ((vendorBlock [some law]).map (fun o => o.map (fun o => (o, i)))))[0]?).join

/-- The counts of the next period, where a PERIOD_SET takes effect at its start (R305). -/
def Dev.nextCounts (d : Dev) : Nat :=
  match d.cmu.nextPeriod with
  | some (_, frames, k) => if k = d.cmu.k + 1 then frames * 1000 else d.cmu.period * 1000
  | none => d.cmu.period * 1000

/-- The tick t_m in the middle of the period from S(k + 1) (R290). -/
def Dev.nextMid (d : Dev) : Nat := d.nextStart + d.nextCounts * tickCount / 2

/-- i* at tick `t` for a line current per volt `q` (R290). -/
def Dev.iRef (d : Dev) (q c6 : Frac) (t : Nat) : Frac :=
  let a := d.angleAt t
  Frac.mul (Frac.mul Config.sqrtTwo q) (Frac.add (Config.sinTurn a) (Frac.mul c6 (Config.cosTurn a)))

/-- Sign of a fraction. -/
def sgn (f : Frac) : Frac := if f.num < 0 then Frac.ofInt (-1) else if f.num = 0 then Frac.zero else Frac.one

/-- The candidates of Table 12-2. -/
def Dev.candidates (d : Dev) (pv : Frac) : List (Option Frac) :=
  let st := d.stage
  let plim := Frac.ofInt (1000 * d.fld F.cmuPlim_pLim)
  let hot := (d.inService.map (fun n => (d.cellNode n).tHot)).foldl max (-32768)
  let tl : Int := d.fld F.cmuTherm_tLim
  let tt : Int := d.fld F.cmuTherm_tTrip
  let ramp := if d.cmu.rHold then some Frac.zero else match d.cmu.rRamp with
    | some r => some (Frac.add r.start (Frac.mul (Frac.sub r.stop r.start) (Frac.mk2 r.done (max r.steps 1))))
    | none => none
  [ if 3 ≤ st ∧ st ≤ 8 then some pv else none, some plim, ramp,
    if tl < hot ∧ !d.inService.isEmpty then
      some (Frac.mul plim (Frac.clamp Frac.zero Frac.one (Frac.div (Frac.ofInt (tt - hot)) (Frac.ofInt (tt - tl)))))
    else none,
    some (Frac.mul (unitsOf (d.fld F.cmuPlim_iLim) 10) d.catVolts) ]

/-- The combiner (R178, R295): the lowest-numbered candidate within the tie margin of the lowest. -/
def combine (margin : Frac) (l : List (Option Frac)) : Nat × Frac :=
  let present := l.zipIdx.filterMap (fun x => x.1.map (fun v => (x.2, v)))
  match present with
  | [] => (0, Frac.zero)
  | a :: r =>
    let low := r.foldl (fun m x => Frac.min m x.2) a.2
    match present.find? (fun x => Frac.le x.2 (Frac.add low margin)) with
    | some x => x
    | none => a

/-- The storage allowance in force (R294). -/
def Dev.allowance (d : Dev) : Frac :=
  if Frac.le d.serviceMean (unitsOf (d.fld F.cmuVdcLim_vdcFloor) 10) then Frac.zero else d.coef 0x1004 5

/-- The lanes of a 48-lane slot evaluated in its three blocks: key base, and law of each cell in service. -/
def Dev.cellLanes (d : Dev) (base set : Nat) (stale : Nat → Bool) (law : Nat → LaneLaw) : List (Nat × PowerLane) :=
  let live := d.inService
  let minBits := d.fld F.lpcPrecCfg_minBits
  (List.range 3).flatMap (fun b =>
    let cells := (List.range 16).map (fun l => 16 * b + l)
    let outs := powerBlock minBits false (cells.map (fun n => (if live.contains n then some (law n) else none, d.lane (base + n))))
    (cells.zip outs).filterMap (fun x => x.2.map (fun o =>
      (base + x.1, powerLane (d.coef set 2) (d.coef set 3) (d.coef set 4) (stale x.1) true true o (d.lane (base + x.1))))))

/-- The block of a power lane: slots 16 and 17, three blocks each of slots 18 and 19, slot 20 (R289). -/
def powerBlockOf (k : Nat) : Nat := if k < 3 then k else if k < 51 then 3 + (k - 3) / 16 else if k < 99 then 6 + (k - 51) / 16 else 9

/-- The engine that runs a power lane (Table 7-5): 14 for slots 16 and 17, 15 for the others; the other of the two once its own has stopped
(R196). None runs it where both have stopped. -/
def Dev.powerEngine (d : Dev) (k : Nat) : Option Nat :=
  let own := if k < 3 then 14 else 15
  let gone := fun (e : Nat) => d.flag (F.lpcEngErr_stopped e) && !(decide (d.cmu.stopPeriod = some d.cmu.k) && d.cmu.stopEngines.contains e)
  if !gone own then some own else if !gone (29 - own) then some (29 - own) else none

/-- A power lane is late in this period (R185): no engine runs it, or its engine has stopped in the period. -/
def Dev.laneLate (d : Dev) (k : Nat) : Bool :=
  match d.powerEngine k with
  | some e => d.flag (F.lpcEngErr_stopped e)
  | none => true

/-- The lanes that this period's evaluation gives, stored where their engine has run them; `ovf`, `flush` and `low_bits` counted (R167,
R170). -/
def Dev.storeLanes (d : Dev) (lanes : List (Nat × PowerLane)) : Dev :=
  let kept := lanes.filter (fun x => x.2.run && !d.laneLate x.1)
  let d1 := kept.foldl (fun d x => (d.setLane x.1 x.2).countLane (d.lane x.1).flags x.2.flags) d
  (List.range 10).foldl (fun d1 b => match kept.find? (fun x => powerBlockOf x.1 = b && bit x.2.flags 8) with
    | some x => d1.reportOvf ((d.powerEngine x.1).getD 14) 0xFFFF
    | none => d1) d1

/-- The evaluation of the power loops (R289 to R295): the outputs of this period, and the lanes with their new state.
What another engine makes is taken from the outputs now in force. Where a lane is late, the outputs are not published (R185). -/
def Dev.evalPower (d : Dev) : Dev :=
  let old := d.cmu.outNow
  let live := d.inService
  let minBits := d.fld F.lpcPrecCfg_minBits
  let vbar := d.serviceMean
  let sumV := (live.map d.halfMean).foldl Frac.add Frac.zero
  let coast := decide ((setModes d.setInForce).2 = 2)
  let stale := fun n => !(d.cellNode n).got
  let anyStale := live.any stale
  let single := fun (k : Nat) (f0 : Bool) (law : LaneLaw) (step : LaneOut → PowerLane → PowerLane) =>
    match powerBlock minBits f0 [(some law, d.lane k)] with
    | [some o] => step o (d.lane k)
    | _ => d.lane k
  -- law 16
  let c := d.coef 0x1000
  let sk := d.cmu.start
  let tm := d.nextMid
  let q := quot old.psel d.catVolts
  let iAt := fun t => if coast then Frac.zero else d.iRef q (c 6) t
  let iTm := iAt tm
  let iSk := iAt sk
  let e16 := Frac.sub d.iCat iSk
  let dt := Frac.mk2 (d.periodTicks * 3) 16000000000
  let f16 := Frac.sub (Frac.mul (Frac.mul Config.sqrtTwo d.catVolts) (Config.sinTurn (d.angleAt tm)))
    (Frac.div (Frac.mul (c 5) (Frac.sub iTm iSk)) dt)
  let x16 := d.lane 0
  let (res, s0, s1) := if x16.fresh then Config.resonator (c 7) (d.regN R.tbuFreq) (d.cmu.period * 1000) Frac.zero Frac.zero e16
    else Config.resonator (c 7) (d.regN R.tbuFreq) (d.cmu.period * 1000) (extValue x16.s0) (extValue x16.s1) e16
  let vlim := Frac.mul (Frac.mk2 (d.fld F.cmuModCfg_mMax) 100) sumV
  let y16 := single 0 true (powerLaw e16 f16 (c 0) (c 1) res) (powerLane vlim.neg vlim (c 4) (bit d.cmu.stale 1) true true)
  let z16 := if x16.run then { y16 with s0 := extWord s0, s1 := extWord s1 } else x16
  -- law 17 and the combiner
  let g := d.coef 0x1001
  let sumP := (live.map (fun n => (d.cellNode n).power)).foldl Frac.add Frac.zero
  let e17 := Frac.sub d.cmu.vdcRef vbar
  let law17 := powerLaw e17 (Frac.mul (g 5) sumP) (g 0) (g 1) Frac.zero
  let try17 := single 1 false law17 (powerLane (g 2) (g 3) (g 4) anyStale true true)
  let cands := d.candidates try17.out
  let (sel, psel) := combine (d.coef 0x1006 5) cands
  let lowers := decide ((Frac.mul (g 1) e17).num < 0)
  let z17 := single 1 false law17 (powerLane (g 2) (g 3) (g 4) anyStale (sel = 0 || lowers) (sel = 0))
  -- law 18
  let b18 := d.cellLanes 3 0x1002 stale (fun n => powerLaw (Frac.sub vbar (d.halfMean n)) Frac.zero (d.coef 0x1002 0) (d.coef 0x1002 1) Frac.zero)
  let mean18 := meanOf (b18.map (fun x => x.2.out))
  let quiet := Frac.lt iTm.abs (d.coef 0x1002 5)
  let dm := b18.map (fun x => (x.1 - 3, if quiet then Frac.zero else Frac.sub x.2.out mean18))
  -- law 19
  let b19 := d.cellLanes 51 0x1003 stale (fun n =>
    let x := d.cellNode n
    let p := Frac.mul old.pdab (quot (d.halfMean n) sumV)
    powerLaw (Frac.sub p x.power) (quot (Frac.mul (d.coef 0x1003 5) p) (Frac.mul x.volts x.vout)) (d.coef 0x1003 0) (d.coef 0x1003 1) Frac.zero)
  let quarter := Frac.mk2 1 4
  let phi := b19.map (fun x => (x.1 - 51, Frac.clamp quarter.neg quarter x.2.out))
  -- law 20: both lanes form one block
  let vo := d.meanVout
  let lvRef := unitsOf (d.fld F.pwmLvref_ref) 100
  let l0 := powerLaw (Frac.sub d.cmu.voutRef vo) (Frac.mul (d.coef 0x1004 6) d.pLv) (d.coef 0x1004 0) (d.coef 0x1004 1) Frac.zero
  let l1 := powerLaw (Frac.sub lvRef d.vLv) (quot lvRef vo) (d.coef 0x1005 0) (d.coef 0x1005 1) Frac.zero
  let outs := powerBlock minBits false [(some l0, d.lane 99), (some l1, d.lane 100)]
  let z0 := match (outs[0]?).join with
    | some o => powerLane (d.coef 0x1004 2) (d.coef 0x1004 3) (d.coef 0x1004 4) anyStale true true o (d.lane 99)
    | none => d.lane 99
  let z1 := match (outs[1]?).join with
    | some o => powerLane (d.coef 0x1005 2) (d.coef 0x1005 3) (d.coef 0x1005 4) (anyStale || bit d.cmu.stale 2) true true o (d.lane 100)
    | none => d.lane 100
  let roof := Frac.add old.psel d.allowance
  let pdab0 := if z0.run then Frac.min z0.out roof else Frac.zero
  let pdab := if coast then Frac.min pdab0 d.allowance else pdab0
  let duty := if z1.run then Frac.clamp Frac.zero Frac.one z1.out else Frac.zero
  let lanes := (0, z16) :: (1, z17) :: b18 ++ b19 ++ [(99, z0), (100, z1)]
  let d1 := ({ d with cmu := { d.cmu with lanesWere := d.cmu.lanes } }).storeLanes lanes
  { d1 with cmu := { d1.cmu with evaluated := !lanes.any (fun x => x.2.run && d.laneLate x.1), next :=
    { psel := asCoef psel, sel := sel, cands := cands, vmod := z16.out, dm := dm, phi := phi, pdab := asCoef pdab,
      duty := asCoef duty } } }

/-- The cycles that the power loops take on an engine from 0.25P on (Table 7-5): the combiner runs where slot 17 does. -/
def Dev.powerCycles (d : Dev) (e : Nat) : Nat :=
  let cost := fun (slot : Nat) => d.fld (F.lpcSlotCost_cost slot)
  let on := fun (k n : Nat) => if d.powerEngine k = some e then n else 0
  on 0 (cost 16) + on 1 (cost 17 + cost 7) + on 3 (3 * cost 18) + on 51 (3 * cost 19) + on 99 (cost 20)

/-- Engine 14 or 15 stops (R185, R196): where its loops run in this period and have not ended, none of its lanes keeps what it was to
store. -/
def Dev.powerStop (d : Dev) (e : Nat) : Dev :=
  let here := if d.cmu.stopPeriod = some d.cmu.k then d.cmu.stopEngines else []
  let d1 := { d with cmu := { d.cmu with stopPeriod := some d.cmu.k, stopEngines := here ++ [e] } }
  let from_ := d.cmu.start + d.periodTicks / 4 / tickCount * tickCount
  if d.now < from_ ∨ from_ + d1.powerCycles e * tickNs ≤ d.now then d1
  else
    let mine := (d.cmu.lanes.map (fun x => x.1)).filter (fun k => d1.powerEngine k = some e)
    let d2 := mine.foldl (fun d2 k => d2.setLane k (tget (fun _ => {}) d.cmu.lanesWere k)) d1
    { d2 with cmu := { d2.cmu with evaluated := d2.cmu.evaluated && decide (mine = []) } }

/-! ### Edge lists (R299) -/

/-- The `toff` of an edge at a position of the period given as a fraction of it, ties upwards (R299). -/
def edgeAt (period : Nat) (pos : Frac) : Nat :=
  let fr := Frac.sub pos (Frac.ofInt pos.floor)
  (Frac.floor (Frac.add (Frac.mul (Frac.ofInt period) fr) (Frac.mk2 1 2))).toNat % period

/-- One edge at `toff` 0 for a leg that is held, where its level differs from that of its last edge. -/
def holdEdge (levels leg : Nat) (v : Bool) : List (Nat × Nat × Bool) :=
  if bit levels leg = v then [] else [(0, leg, v)]

/-- The rectifier edges of a cell (Table 12-5): leg 0 for m, leg 1 for −m. -/
def rectifierEdges (period tMin car levels leg : Nat) (m : Frac) : List (Nat × Nat × Bool) :=
  let up := Frac.div (Frac.add Frac.one m) (Frac.ofInt 2)
  let on := Frac.mul up (Frac.ofInt period)
  let off := Frac.sub (Frac.ofInt period) on
  let least := Frac.ofInt (20 * tMin)
  if Frac.lt on least || Frac.lt off least then holdEdge levels leg (Frac.lt off on)
  else
    let shift := Frac.mk2 car 65536
    let p0 := Frac.div (Frac.add Frac.one m) (Frac.ofInt 4)
    let p1 := Frac.div (Frac.sub (Frac.ofInt 3) m) (Frac.ofInt 4)
    [(edgeAt period (Frac.add p0 shift), leg, false), (edgeAt period (Frac.add p1 shift), leg, true)]

/-- The DAB edges of one leg (R299): `m` cycles in the period, offset in cycles. -/
def dabEdges (period m leg : Nat) (first : Bool) (offset : Frac) : List (Nat × Nat × Bool) :=
  (List.range m).flatMap (fun (c : Nat) =>
    let pos := fun (h : Frac) => Frac.div (Frac.add (Frac.add (Frac.ofInt c) h) offset) (Frac.ofInt m)
    [(edgeAt period (pos Frac.zero), leg, first), (edgeAt period (pos (Frac.mk2 1 2)), leg, !first)])

/-- An edge put behind those of the same or an earlier `toff`. -/
def insertEdge (e : Nat × Nat × Bool) : List (Nat × Nat × Bool) → List (Nat × Nat × Bool)
  | [] => [e]
  | x :: r => if e.1 < x.1 then e :: x :: r else x :: insertEdge e r

/-- Edges in ascending `toff` (R269). -/
def sortEdges (l : List (Nat × Nat × Bool)) : List (Nat × Nat × Bool) := l.foldl (fun a e => insertEdge e a) []

/-- The levels of a cell's legs after an edge list. -/
def levelsAfter (levels : Nat) (l : List (Nat × Nat × Bool)) : Nat := l.foldl (fun a e => setBit a e.2.1 e.2.2) levels

/-- The common modulation m_c (R299). -/
def Dev.mCommon (d : Dev) (o : PowerOut) : Frac :=
  quot o.vmod ((d.inService.map d.halfMean).foldl Frac.add Frac.zero)

/-- m_j of a cell (R299); 0 once the SST has tripped (R314). -/
def Dev.mCell (d : Dev) (o : PowerOut) (iTm : Frac) (n : Nat) : Frac :=
  if d.stage = 10 then Frac.zero else
  let dm := match o.dm.find? (fun x => x.1 = n) with | some x => x.2 | none => Frac.zero
  Frac.clamp (Frac.ofInt (-1)) Frac.one (Frac.add (d.mCommon o) (Frac.mul (sgn iTm) dm))

/-- The edge list of one cell for the next period under set `s` of a period of `period` counts (R299). -/
def Dev.cellEdges (d : Dev) (o : PowerOut) (iTm : Frac) (s period n : Nat) : List (Nat × Nat × Bool) :=
  let lev := tget (fun _ => 0) d.cmu.levels n
  let svc := d.fld (F.cmuCellSvc_svc n)
  if svc = 1 ∨ svc = 4 then (List.range 6).flatMap (fun g => holdEdge lev g false)
  else if svc ≠ 0 then []
  else
    let w := d.tset n s
    let tMin := d.fld F.cmuModCfg_tMin
    let md := max 1 (d.fld F.cmuModCfg_mDab)
    let car := w % 65536
    let dab := Frac.mk2 (w / 65536 % 256) 256
    let m := d.mCell o iTm n
    let phi := match o.phi.find? (fun x => x.1 = n) with | some x => x.2 | none => Frac.zero
    let ar := if w / 2 ^ 24 % 4 = 1 then rectifierEdges period tMin car lev 0 m ++ rectifierEdges period tMin car lev 1 m.neg
      else holdEdge lev 0 false ++ holdEdge lev 1 false
    let held := d.cmu.voutHold || decide (d.stage = 10) || decide (w / 2 ^ 26 % 4 = 0)
    let db := if held then [2, 3, 4, 5].flatMap (fun g => holdEdge lev g false)
      else dabEdges period md 2 true dab ++ dabEdges period md 3 false dab ++ dabEdges period md 4 true (Frac.add dab phi) ++
        dabEdges period md 5 false (Frac.add dab phi)
    sortEdges (ar ++ db)

/-- The signed word of a fraction in 2^−`b`, held to 16 bits. -/
def word16 (b : Nat) (f : Frac) : Nat :=
  pattern 16 (clampInt (-32768) 32767 (Frac.round (Frac.scale f b)))

/-- The edge lists for S(k + 1) built from the published outputs (R299), for the stages in which the SST modulates. The sets follow the
cells in service first, but in stages 0 and 10 (R306). -/
def Dev.buildEdges (d : Dev) : Dev :=
  let d0 := if d.stage ≠ 0 ∧ d.stage ≠ 10 then d.respread else d
  if d0.stage < 3 then { d0 with cmu := { d0.cmu with edges := [] } } else
  let o := d0.cmu.outNow
  let s := d0.comingSet
  let coast := decide ((setModes s).2 = 2)
  let tm := d0.nextMid
  let iTm := if coast then Frac.zero else d0.iRef (quot o.psel d0.catVolts) (d0.coef 0x1000 6) tm
  let l := d0.configuredCells.map (fun n => (n, d0.cellEdges o iTm s d0.nextCounts n))
  let d1 := l.foldl (fun d x =>
    let lev := levelsAfter (tget (fun _ => 0) d.cmu.levels x.1) x.2
    let d1 := { d with cmu := { d.cmu with levels := tput (fun _ => 0) d.cmu.levels x.1 lev } }
    let phi := match o.phi.find? (fun p => p.1 = x.1) with | some p => p.2 | none => Frac.zero
    (d1.setFld (F.cmuCellMod_m x.1) (word16 15 (d.mCell o iTm x.1))).setFld (F.cmuCellMod_phi x.1) (word16 16 phi)) d0
  { d1 with cmu := { d1.cmu with edges := l } }

/-- The value an absent candidate reads as. -/
def absentWord : Word := 0x7F7FFFFF#32

/-- The published outputs shown in the registers (Table 12-13). -/
def Dev.showPower (d : Dev) : Dev :=
  let o := d.cmu.outNow
  let d1 := (d.setReg R.cmuPsel (coefWord o.psel)).setFld F.cmuSstStat_sel o.sel
  let d2 := (List.range 5).foldl (fun d i =>
    d.setReg (R.cmuCand i) (match o.cands[i]? with | some (some v) => coefWord v | _ => absentWord)) d1
  let d3 := (d2.setReg R.cmuVdcMean (coefWord d2.serviceMean)).setReg R.cmuMcommon (coefWord (d2.mCommon o))
  (List.range 48).foldl (fun d n =>
    d.setFld (F.cmuCellVdc_v n) (clampInt 0 65535 (Frac.round (Frac.mul (d.halfMean n) (Frac.ofInt 10)))).toNat) d3

end Sys2Proof.Machine
end

