-- ==== Sys2Proof/Machine/Pwm.lean ====
section
/-! DEFINITION. The LV stage (chapter 13): leg commands, period boundaries, the gate pre-drivers and their latches. -/

namespace Sys2Proof.Machine

/-- A refusal without result. -/
def refuse (d : Dev) (st : Nat) : Dev × Verdict := (d, .final st [])

/-! ### Latches (R334 to R341) -/

/-- A leg is enabled: in pre-charge, running, draining or shadow. -/
def Dev.legEnabled (d : Dev) (l : Nat) : Bool :=
  let s := d.legState l
  s = 1 || s = 2 || s = 3 || s = 5

/-- GDP.LEG_LATCH [5:0] of a leg. -/
def Dev.latches (d : Dev) (l : Nat) : Nat := d.regN (R.gdpLegLatch l) % 64

/-- A leg leaves its state for 0 or 4, and the commands that wait for it settle. -/
def Dev.stopLeg (d : Dev) (l st : Nat) : Dev :=
  let d1 := ((d.setLegState l st).lvGroupChanged l).failEnables l
  checkDisables d1.pwm.disables d1

/-- A latch of a leg set, with event 0x0801 and the leg's fault source (R339). -/
def Dev.latchLeg (d : Dev) (l : Nat) (f : FieldRef) : Dev :=
  if d.flag f then d else
  let d1 := (d.setFlag f true).setFld F.gdpStat_legsLatched (setBit (d.fld F.gdpStat_legsLatched) l true)
  (d1.event 0x0801 l (le 2 (d1.regN (R.gdpLegLatch l) % 65536))).raiseLevel (256 + l)

/-- A comparator trip or the interlock: both outputs off, latch, state 4 (R334 to R336, R338). -/
def Dev.tripLeg (d : Dev) (l : Nat) (f : FieldRef) : Dev :=
  let d1 := d.setLeg l { d.leg l with holdHi := false, holdLo := false }
  (d1.stopLeg l 4).latchLeg l f

/-- The main comparator of a running leg is blanked at this instant: within `blank` of a turn-on command (R334), which the raw signal's last
change gave, or the one before it if its switch has turned on since. -/
def Dev.blanked (d : Dev) (l : Nat) : Bool :=
  let b := tickNs * d.fld (F.gdpLegProt_blank l)
  let near := fun (on : Nat) => decide (on ≤ d.now) && decide (d.now < on + b)
  let r := d.rawAt l d.now
  let dt := fun (v : Bool) => if v then d.fld (F.pwmLegDt_dtR l) else d.fld (F.pwmLegDt_dtF l)
  let before := r.prev + dt (!r.level)
  match d.legState l with
  | 1 => near ((d.leg l).chargeEnd - 10 * tickUs)
  | 2 | 3 => near (r.edge + dt r.level) || (decide (before ≤ r.edge) && near before)
  | _ => false

/-- TRIP_IN[i] is active: it stands at its active level (R337, Table 13-11). -/
def Dev.tripActive (d : Dev) (i : Nat) : Bool := bit d.pwm.tripPins i != d.flag (F.gdpTripCfg_actLow i)

/-- A cause of a leg's latch is present when DRV_EN rises (R341). -/
def Dev.causePresent (d : Dev) (l : Nat) : Bool :=
  d.flag (F.gdpLegLatch_cmpMain l) || d.flag (F.gdpLegLatch_cmpHard l) || !d.flag F.gdpStat_vgdOk ||
    (List.range 4).any (fun i => d.flag (F.gdpTripCfg_en i) && bit (d.fld (F.gdpTripCfg_mask i)) l && d.tripActive i)

/-- The latches of one leg at the rise of DRV_EN: cleared, or kept with `trip_present` and event 0x0805 (R341). -/
def Dev.clearLatch (d : Dev) (l : Nat) : Dev :=
  if d.latches l = 0 then d
  else if d.causePresent l then
    let d1 := d.setFlag (F.gdpLegLatch_tripPresent l) true
    d1.event 0x0805 l (le 2 (d1.regN (R.gdpLegLatch l) % 65536))
  else
    let d1 := d.setRegN (R.gdpLegLatch l) (andNot (d.regN (R.gdpLegLatch l)) 0x13F)
    let d2 := d1.setFld F.gdpStat_legsLatched (setBit (d1.fld F.gdpStat_legsLatched) l false)
    let d3 := if d2.legState l = 4 then
        let d3 := (d2.setLeg l { d2.leg l with holdHi := false, holdLo := false }).setLegState l 0
        checkDisables d3.pwm.disables d3
      else d2
    d3.clearLevel (256 + l)

/-! ### Enabling and disabling (R342, R343) -/

/-- The legs of the LV group after an enable share one mode and, in modes 0 and 1, one period (R328). -/
def Dev.groupAgrees (d : Dev) (m : Nat) : Bool :=
  let g := (List.range 8).filter (fun l => d.legLv l && (bit m l || d.legEnabled l))
  match g with
  | [] => true
  | a :: r => r.all (fun l => d.fld (F.pwmLegCfg_mode l) = d.fld (F.pwmLegCfg_mode a) &&
      (decide (2 ≤ d.fld (F.pwmLegCfg_mode a)) || d.fld (F.pwmPerStg_v l) = d.fld (F.pwmPerStg_v a)))

/-- The refusal of an enable of the legs of mask `m`; 0 where it may run (R331, R342,
R391). -/
def Dev.enableRefusal (d : Dev) (m : Nat) : Nat :=
  let ls := bitsOf m 8
  if d.flag F.fltState_psafe || !d.flag F.gdpStat_drvEn || ls.any (fun l => d.latches l ≠ 0 || d.legState l = 4) ||
      (ls.any d.legLv && d.fld F.pwmLvref_target = 0) then St.refused
  else if ls.any (fun l => d.legLv l && (decide (d.stage < 5) || decide (9 < d.stage))) || !d.groupAgrees m ||
      ls.any (fun l => d.legState l ≠ 0) then St.conflict
  else 0

/-- One leg into pre-charge: GATE_LO on for 10 µs (Table 13-2). -/
def Dev.prechargeLeg (d : Dev) (l : Nat) : Dev :=
  let d1 := (d.setLeg l { d.leg l with chargeEnd := d.now + 10 * tickUs, pendingAt := none, pendingLate := none }).setLegState l 1
  (d1.setBitAt R.pwmCommit l false).setFld F.pwmStat_drained (setBit (d1.fld F.pwmStat_drained) l false)

/-- The legs of a mask into pre-charge. -/
def Dev.enableLegs (d : Dev) (m : Nat) : Dev := (bitsOf m 8).foldl Dev.prechargeLeg d

/-- The legs of a mask disabled (R343). -/
def Dev.disableLegs (d : Dev) (m : Nat) : Dev :=
  let d1 := (bitsOf m 8).foldl Dev.disableLeg d
  checkDisables d1.pwm.disables d1

/-- The staged pair of a leg with `src` 1, or the present d on a leg with `src` 0, made active at its first period
start (R342, Table 13-4). -/
def Dev.firstPair (d : Dev) (l : Nat) : Dev :=
  let d1 := if d.legLv l then d.stageDuty (coefValue (d.reg R.pwmLvD)) l else d
  let d2 := (d1.setFld (F.pwmPerAct_v l) (d1.fld (F.pwmPerStg_v l))).setFld (F.pwmDutyAct_v l) (d1.fld (F.pwmDutyStg_v l))
  d2.setLeg l { d2.leg l with perNew := false, cmpNew := false, pendingAt := none, rawWas := ⟨false, d2.now - 10 * tickUs, d2.now - 10 * tickUs⟩ }

/-- A leg enters state 2 with its first period (R328, R342); no pulse of it stands yet, and its delay lines take their whole trim. -/
def Dev.startLegRun (d : Dev) (l : Nat) : Dev :=
  let d0 := d.firstPair l
  let d1 := d0.setLeg l { d0.leg l with trim := Config.delayTrim (d0.bank.body 5 0) l d0.ths.comp.lines }
  if !d.legLv l then (d1.setLegState l 2).beginPeriod l d.now
  else
    let strobe := d.strobeFrom d.now
    let fresh := d.lvGroup.all (fun g => decide (d.now ≤ (d.leg g).start))
    let d2 := (d1.setLegState l 2).beginPeriod l (if fresh then strobe else d.now)
    if fresh then
      let g := d2.lvGroup
      g.zipIdx.foldl (fun d x =>
        let t := strobe + groupOffset x.2 (d.legPeriod x.1) g.length
        (d.setFld (F.pwmLegStat_ordinal x.1) x.2).setLeg x.1 { d.leg x.1 with start := t, rawFrom := t }) d2
    else d2.lvGroupChanged l

/-- Clearing `en` in PWM.CTRL (R343). -/
def Dev.pwmOff (d : Dev) : Dev :=
  let d1 := (d.setFlag F.pwmCtrl_en false).setFlag F.cpxReady1_pwm false
  let d2 := d1.disableLegs 255
  if (List.range 8).all (fun l => d2.legState l = 0) then d2.setFld F.pwmStat_drained 255 else d2

/-- Setting `en` in PWM.CTRL: `pwm` follows, if what it needs is there (Table 3-4). -/
def Dev.pwmOn (d : Dev) : Dev :=
  (d.setFlag F.pwmCtrl_en true).setFlag F.cpxReady1_pwm (d.flag F.pwmStat_hrLock && d.flag F.cpxReady1_cal && !d.present 415)

/-! ### Commands of group 0x08 -/

/-- LEG_CONFIG's values lie within Table 13-3 and R320. -/
def legConfigOk (p : Bytes) : Bool :=
  let lf := rd p 1 1
  let mode := lf % 4
  let within := fun (o n lo hi : Nat) => decide (lo ≤ rd p o n) && decide (rd p o n ≤ hi)
  let fixd := decide (2 ≤ mode)
  decide (rd p 0 1 ≤ 7) && decide (lf < 128) && !(bit lf 5 && bit lf 6) && within 2 2 16 4095 && within 4 2 16 4095 &&
    within 6 2 16 4095 && within 8 2 50 1000 && within 10 1 10 250 && within 11 1 0 6 && within 12 1 1 255 &&
    rd p 13 1 = 0 && within 14 2 400 16000 && decide (rd p 6 2 ≤ rd p 14 2) &&
    (if fixd then rd p 16 4 = 0 && within 20 4 400 (8 * rd p 26 2 - 1) && !bit lf 2 && !bit lf 3
     else within 16 4 16000 400000 && rd p 20 4 = 0) &&
    within 24 2 2000 50000 && within 26 2 (rd p 24 2) 50000 && rd p 28 4 = 0

/-- LEG_CONFIG (R345). -/
def bodyLegConfig (d : Dev) (c : Call) : Dev × Verdict :=
  let p := c.packet.cmd.payload
  let l := rd p 0 1
  let lf := rd p 1 1
  if !legConfigOk p then refuse d St.badParam
  else if d.legState l ≠ 0 then refuse d St.conflict
  else
    let d1 := ((d.setRegN (R.pwmLegCfg l) (lf % 128 + 256 * rd p 12 1)).setRegN (R.pwmLegDt l)
      (rd p 2 2 + 65536 * rd p 4 2)).setRegN (R.pwmLegMp l) (rd p 6 2 + 65536 * rd p 14 2)
    let d2 := (d1.setRegN (R.pwmLegLim l) (rd p 24 2 + 65536 * rd p 26 2)).setRegN (R.pwmLegFix l) (rd p 20 4)
    let d3 := d2.setRegN (R.gdpLegProt l) (rd p 10 1 + 256 * rd p 11 1 + 65536 * rd p 8 2)
    if lf % 4 < 2 then
      let x := d3.leg l
      ((d3.setFld (F.pwmPerStg_v l) (rd p 16 4)).setLeg l { x with perNew := true, perAt := x.commits }, .final St.done [])
    else (d3, .final St.done [])

/-- LEG_ENABLE (R342, R343). -/
def bodyLegEnable (d : Dev) (c : Call) : Dev × Verdict :=
  let p := c.packet.cmd.payload
  let m := rd p 0 1
  let op := rd p 1 1
  if 1 < op ∨ rd p 2 2 ≠ 0 then refuse d St.badParam
  else if op = 1 then
    let r := d.enableRefusal m
    if r ≠ 0 then refuse d r
    else
      let d1 := d.enableLegs m
      let d2 := { d1 with pwm := { d1.pwm with enables := d1.pwm.enables ++ [(c.oid, m)] } }
      (checkEnables [(c.oid, m)] d2, .accepted [])
  else
    let d1 := { d with pwm := { d.pwm with disables := d.pwm.disables ++ [(c.oid, m)] } }
    (d1.disableLegs m, .accepted [])

/-- LV_REFERENCE (R331). -/
def bodyLvReference (d : Dev) (c : Call) : Dev × Verdict :=
  let p := c.packet.cmd.payload
  let v := rd p 0 2
  let ms := rd p 2 2
  if v < 3600 ∨ 16000 < v ∨ ms = 0 ∨ 5000 < ms ∨ rd p 4 4 ≠ 0 then refuse d St.badParam
  else
    let d1 := d.setFld F.pwmLvref_target v
    let d2 := { d1 with pwm := { d1.pwm with rampMs := ms } }
    let run := (tget (fun _ => ({} : PowerLane)) d.cmu.lanes 100).run
    let steps := max 1 ((ms * 400 + d.cmu.period - 1) / d.cmu.period)
    let ramp : Ramp := ⟨Frac.ofInt (d.fld F.pwmLvref_ref), Frac.ofInt v, steps, 0⟩
    (if run then { d2 with cmu := { d2.cmu with lvRamp := some ramp } } else d2, .final St.done [])

/-- LEG_QUERY (R345). -/
def bodyLegQuery (d : Dev) (c : Call) : Dev × Verdict :=
  let p := c.packet.cmd.payload
  let l := rd p 0 1
  if 7 < l ∨ rd p 1 3 ≠ 0 then refuse d St.badParam
  else
    (d, .final St.done (le 1 l ++ le 1 (d.legState l) ++ le 2 (d.regN (R.gdpLegLatch l)) ++ le 4 (d.fld (F.pwmPerAct_v l)) ++
      le 4 (d.fld (F.pwmDutyAct_v l)) ++ le 4 (d.regN (R.pwmLegFlags l)) ++ le 4 ((d.leg l).commits % 65536) ++
      le 4 (if d.legLv l then d.regN R.pwmLvD else 0) ++ le 8 0))

/-! ### Rows -/

/-- A leg number of this block. -/
def okLeg (l : Nat) : Bool := decide (l < 8)

/-- PWM_DISABLE (R343). -/
def execPwmDisable (s : State) : Host.Outcome State Fault Refusal := commit s s.dev.pwmOff

/-- PWM_ENABLE (R343). -/
def execPwmEnable (s : State) : Host.Outcome State Fault Refusal := commit s s.dev.pwmOn

/-- PWM_COMMIT (R325): a write to PWM.COMMIT. -/
def execPwmCommit (v : Word) (s : State) : Host.Outcome State Fault Refusal :=
  commit s (s.dev.direct (fun d => (bitsOf v.toNat 8).foldl (fun d l => if d.legLv l then d else d.registerCommit l) d))

/-- A direct write to a staging register (R326, R327). -/
def Dev.stageWrite (d : Dev) (l : Nat) (per : Bool) (v : Nat) : Dev :=
  if d.legLv l then d.legFlag (F.pwmLegFlags_srcErr l)
  else
    let x := d.leg l
    if per then (d.setFld (F.pwmPerStg_v l) v).setLeg l { x with perNew := true, perAt := x.commits }
    else (d.setFld (F.pwmDutyStg_v l) v).setLeg l { x with cmpNew := true, cmpAt := x.commits }

/-- PWM_STAGE_WRITE (R326). -/
def execPwmStageWrite (off : Nat) (v : Word) (s : State) : Host.Outcome State Fault Refusal :=
  match (List.range 8).find? (fun l => off = R.pwmPerStg l || off = R.pwmDutyStg l) with
  | some l => commit s (s.dev.direct (fun d => d.stageWrite l (off = R.pwmPerStg l) (v.toNat % 2 ^ 19)))
  | none => .fault (.noSuchInstance "staging register")

/-- The boundary that a leg reaches next: the mid-period one first where `upd` is 1 (R324), and the tick it falls on. -/
def Dev.nextBoundary (d : Dev) (l : Nat) : Bool × Nat :=
  let x := d.leg l
  if d.fld (F.pwmLegCfg_upd l) = 1 ∧ !x.half then (true, x.start + d.legPeriod l / 2) else (false, d.periodEnd l)

/-- The delay-line trim that the DELAY record gives for the temperature of the delay lines (R441). -/
def Dev.delayTrim (d : Dev) (l : Nat) : Int := Config.delayTrim (d.bank.body 5 0) l d.ths.comp.lines

/-- The delay-line correction of a leg at a period end: by at most 1 tick (R441). -/
def Dev.stepTrim (d : Dev) (l : Nat) : Dev :=
  let x := d.leg l
  d.setLeg l { x with trim := x.trim + clampInt (-1) 1 (d.delayTrim l - x.trim) }

/-- PWM_BOUNDARY (R324, R441). -/
def execPwmBoundary (leg : Nat) (s : State) : Host.Outcome State Fault Refusal :=
  commitIf (okLeg leg) "leg" s (
    let d := s.dev
    match d.legState leg with
    | 2 | 3 | 5 =>
      let (mid, t) := d.nextBoundary leg
      if mid then (d.advance t).legMid leg t else ((d.advance t).stepTrim leg).legPeriodEnd leg t
    | _ => d)

/-- REFRESH_PULSE (R323). -/
def execRefreshPulse (leg : Nat) (s : State) : Host.Outcome State Fault Refusal :=
  commitIf (okLeg leg) "leg" s (
    let d := s.dev
    let x := d.leg leg
    let run := decide (d.legState leg = 2) || decide (d.legState leg = 3) || decide (d.legState leg = 5)
    if run && !x.refreshed && decide (d.legPeriod leg ≤ x.high) &&
        decide (d.fld (F.pwmLegCfg_bstN leg) ≤ d.fld (F.pwmLegStat_noLo leg) + 1) then
      (d.advance (d.periodEnd leg - d.refreshLen leg)).refreshPulse leg
    else d)

/-- LEG_PRECHARGE_END (R342). -/
def execLegPrechargeEnd (leg : Nat) (s : State) : Host.Outcome State Fault Refusal :=
  commitIf (okLeg leg) "leg" s (
    let d := s.dev
    if d.legState leg = 1 then
      let d1 := (d.advance (d.leg leg).chargeEnd).startLegRun leg
      checkEnables d1.pwm.enables d1
    else d)

/-- PWM_TRIGGER_PULSE (R329): `b` is TRG_B. -/
def execPwmTriggerPulse (leg : Nat) (b : Bool) (s : State) : Host.Outcome State Fault Refusal :=
  commitIf (okLeg leg) "leg" s (
    let d := s.dev
    let x := d.leg leg
    match d.legState leg, (if b then x.trgB else x.trgA) with
    | 2, some p =>
      if p < d.legPeriod leg then
        let d1 := d.advance (x.start + p)
        { d1 with pwm := { d1.pwm with lineAt := tput (fun _ => 0) d1.pwm.lineAt (2 * leg + b2n b) d1.now } }
      else d
    | _, _ => d)

/-- MAIN_COMPARATOR_TRIP (R334): while it is blanked the comparator's output is ignored. -/
def execMainComparatorTrip (leg : Nat) (s : State) : Host.Outcome State Fault Refusal :=
  commitIf (okLeg leg) "leg" s (
    let d := s.dev.setFlag (F.gdpLegLatch_cmpMain leg) true
    if d.blanked leg then d else (d.bumpSat (F.gdpLegCount_crossings leg)).tripLeg leg (F.gdpLegLatch_oc leg))

/-- HARD_COMPARATOR_TRIP (R335). -/
def execHardComparatorTrip (leg : Nat) (s : State) : Host.Outcome State Fault Refusal :=
  commitIf (okLeg leg) "leg" s ((s.dev.setFlag (F.gdpLegLatch_cmpHard leg) true).tripLeg leg (F.gdpLegLatch_hardOc leg))

/-- SHOOT_THROUGH_BLOCK (R336). -/
def execShootThroughBlock (leg : Nat) (s : State) : Host.Outcome State Fault Refusal :=
  commitIf (okLeg leg) "leg" s (s.dev.tripLeg leg (F.gdpLegLatch_shootBlock leg))

/-- One leg forced by a TRIP_IN (R337, R338): both off where a comparator or the interlock has latched, and at its safe
levels otherwise. -/
def Dev.tripInLeg (d : Dev) (l : Nat) : Dev :=
  let d1 := if Nat.land (d.latches l) 7 ≠ 0 then d else d.holdSafe l
  (d1.stopLeg l 4).latchLeg l (F.gdpLegLatch_tripIn l)

/-- TRIP_IN[i] is enabled and active: it forces the legs of its mask (R337). -/
def Dev.tripForces (d : Dev) (i : Nat) : Bool := d.flag (F.gdpTripCfg_en i) && d.tripActive i

/-- What follows a change of TRIP_IN[i] or of its configuration; `was` says that it forced its legs before. An input that begins to
force them sets `seen`, raises its source and latches each leg of its mask (R337, R339). -/
def Dev.followTrip (d : Dev) (i : Nat) (was : Bool) : Dev :=
  if !d.tripForces i then d.clearLevel (264 + i)
  else if was then d
  else
    let m := d.fld (F.gdpTripCfg_mask i)
    let d2 := (d.setFld F.gdpTripStat_seen (setBit (d.fld F.gdpTripStat_seen) i true)).event 0x0804 i (le 1 m)
    (bitsOf m 8).foldl Dev.tripInLeg (d2.raiseLevel (264 + i))

/-- TRIP_IN_ASSERT (R337): input `i` has stood at `level` for its filter time. -/
def execTripInAssert (i : Nat) (level : Bool) (s : State) : Host.Outcome State Fault Refusal :=
  commitIf (decide (i < 4)) "trip input" s (
    let d := s.dev
    let d1 := { d with pwm := { d.pwm with tripPins := setBit d.pwm.tripPins i level } }
    d1.followTrip i (d.tripForces i))

/-- DRV_EN_FALL (R340). -/
def execDrvEnFall (s : State) : Host.Outcome State Fault Refusal :=
  commit s (
    let d := s.dev
    if !d.flag F.gdpStat_drvEn then d else
    let on := (List.range 8).filter d.legEnabled
    let d1 := ({ d with pwm := { d.pwm with drvLowAt := d.now } }.setFlag F.gdpStat_drvEn false).event 0x0806 0 (le 1 0)
    let d2 := on.foldl (fun d l =>
      ((d.setLeg l { d.leg l with holdHi := false, holdLo := false }).stopLeg l 0).latchLeg l (F.gdpLegLatch_drvEnDrop l)) d1
    if on.isEmpty then d2 else d2.raise 268)

/-- DRV_EN_RISE (R341): `main` and `hard` are the legs whose comparators are active now. -/
def execDrvEnRise (main hard : Nat) (s : State) : Host.Outcome State Fault Refusal :=
  commit s (
    let d := s.dev
    if d.flag F.gdpStat_drvEn then d else
    let d1 := (List.range 8).foldl (fun d l => (d.setFlag (F.gdpLegLatch_cmpMain l) (bit main l)).setFlag
      (F.gdpLegLatch_cmpHard l) (bit hard l)) d
    let d2 := (d1.setFlag F.gdpStat_drvEn true).event 0x0806 0 (le 1 1)
    if d.now < d.pwm.drvLowAt + 10 * tickUs then d2 else (List.range 8).foldl Dev.clearLatch d2)

/-- VGD_UNDERVOLTAGE (R333). -/
def execVgdUndervoltage (s : State) : Host.Outcome State Fault Refusal :=
  commit s (
    let d := s.dev
    let on := (List.range 8).filter d.legEnabled
    on.foldl (fun d l => d.tripLeg l (F.gdpLegLatch_vgdUv l)) (d.setFlag F.gdpStat_vgdOk false))

/-- BOOTSTRAP_UNDERVOLTAGE (R333): `low` says whether VBST − VSW fell below 8.0 V or rose above 9.0 V. -/
def execBootstrapUndervoltage (leg : Nat) (low : Bool) (s : State) : Host.Outcome State Fault Refusal :=
  commitIf (okLeg leg) "leg" s (
    let d := s.dev
    if d.flag (F.gdpLegLatch_bstUv leg) = low then d
    else
      let d1 := d.setFlag (F.gdpLegLatch_bstUv leg) low
      if low then d1.bumpSat (F.gdpLegCount_bstUv leg) else d1.setLeg leg { d1.leg leg with bstFrom := d1.now })

end Sys2Proof.Machine
end

