-- ==== Sys2Proof/Machine/Cmu.lean ====
section
/-! DEFINITION. Operation of the SST (chapter 12): the control period, start, stop, bypass, neutral sections, and
BRK_TRIP. -/

namespace Sys2Proof.Machine

/-- Equal steps of a ramp of `ms` milliseconds (R296). -/
def Dev.rampSteps (d : Dev) (ms : Nat) : Nat := max 1 ((ms * 400 + d.cmu.period - 1) / d.cmu.period)

/-- The value of a ramp. -/
def Ramp.value (r : Ramp) : Frac :=
  Frac.add r.start (Frac.mul (Frac.sub r.stop r.start) (Frac.mk2 r.done (max r.steps 1)))

/-- A ramp one step on; none once it has reached its end. -/
def Ramp.step (r : Ramp) : Option Ramp := if r.done + 1 < r.steps then some { r with done := r.done + 1 } else none

/-- `ramping` of SST_STAT. -/
def Dev.showRamping (d : Dev) : Dev :=
  d.setFlag F.cmuSstStat_ramping (d.cmu.rRamp.isSome || d.cmu.vdcRamp.isSome || d.cmu.voutRamp.isSome || d.cmu.lvRamp.isSome)

/-- Two values within 2 % of the first (R302). -/
def within2 (ref v : Frac) : Bool := Frac.le (Frac.sub ref v).abs (Frac.mul ref.abs (Frac.mk2 2 100))

/-- V_pass (R301). -/
def Dev.vPass (d : Dev) : Frac :=
  quot (Frac.mul Config.sqrtTwo d.catVolts) (Frac.ofInt d.inService.length)

/-! ### Start and stop -/

/-- The service state of a cell at a start (R301). -/
def Dev.startSvc (d : Dev) (n : Nat) : Nat :=
  let st := d.fld (F.clnCellStat_cstat n)
  if d.flag (F.clnCellStat_absent n) then 3 else if d.flag (F.clnCellStat_lost n) then 4
  else if bit st 1 || bit st 2 then 2 else 0

/-- The refusal of a start (R301); 0 where it may run. -/
def Dev.startRefusal (d : Dev) (p : Bytes) (svc : Nat) : Nat :=
  let within := fun (o n lo hi : Nat) => decide (lo ≤ rd p o n) && decide (rd p o n ≤ hi)
  let ov := d.fld F.cmuVdcLim_vdcOv
  if !(within 2 2 400 1900 && within 4 2 100 5000 && within 6 2 100 5000 && within 8 1 50 95 && within 10 2 10 2000 &&
      within 12 2 10 2000) || rd p 14 8 ≠ 0 || rd p 22 2 ≠ 0 || (ov ≠ 0 && decide (ov ≤ rd p 0 2)) then St.badParam
  else if d.stage ≠ 0 ∨ d.cmu.startCmd.isSome then St.conflict
  else if !d.flag F.lpcPowerCfg_reserve || (List.range 7).any (fun i => !d.setFilled (0x1000 + i)) ||
      d.regN R.cmuProtStat ≠ 0 || d.flag F.tbuCatStat_lost || d.flag F.tbuCatStat_outOfRange ||
      decide (svc < d.fld F.cmuCellCfg_nMin) || ov = 0 || d.fld F.cmuPlim_pLim = 0 || d.fld F.cmuPlim_iLim = 0 ||
      d.fld F.cmuIcatCfg_icatOc = 0 || (rd p 9 1 ≠ 0 && !d.flag F.gdpStat_drvEn) || d.flag F.fltState_psafe then St.refused
  else 0

/-- SST_START (R301): the cells in service are found anew and the timing sets written; the start begins at the next
period start. -/
def bodySstStart (d : Dev) (c : Call) : Dev × Verdict :=
  let p := c.packet.cmd.payload
  let d1 := (d.configuredCells.foldl (fun d n => d.setFld (F.cmuCellSvc_svc n) (d.startSvc n)) d).countService
  let r := d.startRefusal p d1.inService.length
  if r ≠ 0 then refuse d r
  else
    let d2 := (List.range 8).foldl (fun d s => d.writeSet s) d1
    let q : StartParams := ⟨rd p 0 2, rd p 2 2, rd p 4 2, rd p 6 2, rd p 8 1, rd p 9 1, rd p 10 2, rd p 12 2⟩
    ({ d2 with cmu := { d2.cmu with startCmd := some (c.oid, q), startAt := d.now, params := q, rHold := false,
                                    rRamp := none, coasts := [], nextSet := none, levels := [] } }, .accepted [])

/-- SST_STOP (R304, R317). -/
def bodySstStop (d : Dev) (c : Call) : Dev × Verdict :=
  let p := c.packet.cmd.payload
  let ms := rd p 0 2
  let st := d.stage
  if 5000 < ms ∨ rd p 2 2 ≠ 0 then refuse d St.badParam
  else if st = 0 ∨ 9 ≤ st then refuse d St.conflict
  else if st ≤ 5 then ((d.failStart 4).finish c.oid St.done [], .accepted [])
  else
    let d1 := d.setStage 9
    let hold := decide (st ≠ 6) || decide (ms = 0)
    let ramp := if hold then none else some (⟨d.cmu.outNow.psel, Frac.zero, d.rampSteps ms, 0⟩ : Ramp)
    (({ d1 with cmu := { d1.cmu with stopOid := some c.oid, rRamp := ramp, rHold := hold, coasts := [],
                                     coastFrom := none } }).showRamping, .accepted [])

/-- PERIOD_SET (R305). -/
def bodyPeriodSet (d : Dev) (c : Call) : Dev × Verdict :=
  let p := c.packet.cmd.payload
  let f := rd p 0 1
  if f < 10 ∨ 80 < f ∨ rd p 1 3 ≠ 0 then refuse d St.badParam
  else if (d.stage ≠ 0 ∧ d.stage ≠ 6) ∨ d.cmu.nextPeriod.isSome then refuse d St.conflict
  else
    let k := if d.now ≤ d.periodInstant 40 then d.cmu.k + 1 else d.cmu.k + 2
    ({ d with cmu := { d.cmu with nextPeriod := some (c.oid, f, k) } }, .accepted [])

/-- The end of a stop (R304): every cell in service reports `blocked`, or is lost. -/
def Dev.checkStopped (d : Dev) : Dev :=
  match d.cmu.stopOid, d.cmu.blockDue with
  | some o, some k =>
    if d.stage = 9 ∧ k ≤ d.cmu.k ∧ d.inService.all (fun n => bit (d.fld (F.clnCellStat_cstat n)) 0 ||
        d.flag (F.clnCellStat_lost n)) then
      let d1 := { d with cmu := { d.cmu with stopOid := none, blockDue := none, rHold := false, neutralTrigger := false } }
      (d1.setStage 0).finish o St.done []
    else d
  | _, _ => d

/-! ### Bypass -/

/-- The key of CELL_BYPASS has fired (R306): the bypass acts at S(k + 1), or at S(k + 2) after 0.30P. A cell that has
bypassed itself completes it at once (R317). -/
def Dev.fireBypass (d : Dev) (oid cell : Nat) : Dev :=
  if d.fld (F.cmuCellSvc_svc cell) = 2 then d.finish oid (d.doneStatus oid) (le 1 d.setInForce)
  else
    let k := if d.now ≤ d.periodInstant 30 then d.cmu.k + 1 else d.cmu.k + 2
    { d with cmu := { d.cmu with bypasses := d.cmu.bypasses ++ [⟨oid, cell, k⟩] } }

/-- CELL_BYPASS (R306). -/
def bodyCellBypass (d : Dev) (c : Call) : Dev × Verdict :=
  let p := c.packet.cmd.payload
  let n := rd p 0 1
  if 47 < n ∨ rd p 1 7 ≠ 0 then refuse d St.badParam
  else d.keyed c (keyAt p 8) (fun d => d.fireBypass c.oid n) []

/-- A CELL_BYPASS that the cell has refused or not answered (R306): REFUSED, with source `cell_out`. -/
def Dev.bypassFails (d : Dev) (n oid : Nat) : Dev := (d.raise (160 + n)).finish oid St.refused []

/-- The BYPASS commands that act at S(k + 1), sent in this command window (R306). -/
def Dev.sendBypasses (d : Dev) : Dev :=
  let tAct := d.nextStart / tickCount
  (d.cmu.bypasses.filter (fun b => b.period = d.cmu.k + 1)).foldl (fun d b =>
    if (d.cellPlace b.cell).isSome then d.sendCellCmd b.cell ⟨0x03, tAct, some b.oid⟩ else d.bypassFails b.cell b.oid) d

/-- The cells whose bypass acts at S(k + 1) leave service in the lists built for it (R306). -/
def Dev.leaveBypassed (d : Dev) : Dev :=
  let l := d.cmu.bypasses.filter (fun b => decide (b.period ≤ d.cmu.k + 1))
  let d1 := l.foldl (fun d b => if d.fld (F.cmuCellSvc_svc b.cell) = 0 then d.cellLeave b.cell 1 1 else d) d
  { d1 with cmu := { d1.cmu with bypasses := d1.cmu.bypasses.filter (fun b => decide (d1.cmu.k + 1 < b.period)) } }

/-! ### Neutral sections -/

/-- The ramp-down ended, or cut to 0 (R309, R317): r holds at 0, and set 3 or 4 follows at the next start. -/
def Dev.holdRamp (d : Dev) (s : Nat) : Dev :=
  ({ d with cmu := { d.cmu with rRamp := none, rHold := true, nextSet := some s } }).showRamping

/-- The key of NEUTRAL_SECTION has fired (R309). -/
def Dev.fireNeutral (d : Dev) (oid : Nat) (k : Key) (rampMs len : Nat) : Dev :=
  let rising := match d.train k.train with | some x => decide (0 ≤ x.speed) | none => true
  let co : Coast := ⟨k.kind, k.train, k.whereMm + (len : Int), rising, d.now + len * tickMs, rampMs⟩
  match d.stage with
  | 6 =>
    let d1 := d.setStage 7
    let ramp : Ramp := ⟨d.cmu.outNow.psel, Frac.zero, d.rampSteps rampMs, 0⟩
    (({ d1 with cmu := { d1.cmu with coasts := [co], neutralTrigger := true, rRamp := some ramp, rHold := false } }).showRamping).finish oid
      (d.doneStatus oid) []
  | 7 | 8 => ({ d with cmu := { d.cmu with coasts := d.cmu.coasts ++ [co] } }).finish oid (d.doneStatus oid) []
  | _ => d.finish oid St.refused []

/-- NEUTRAL_SECTION (R309). -/
def bodyNeutralSection (d : Dev) (c : Call) : Dev × Verdict :=
  let p := c.packet.cmd.payload
  let k := keyAt p 8
  let ms := rd p 2 2
  if rd p 0 1 ≠ (if k.kind = 2 then k.train else 0) ∨ rd p 1 1 ≠ 0 ∨ ms = 0 ∨ 1000 < ms then refuse d St.badParam
  else d.keyed c k (fun d => d.fireNeutral c.oid k ms (rd p 4 4)) []

/-- One coast has ended (R310). -/
def Dev.coastOver (d : Dev) (x : Coast) : Bool :=
  if x.kind = 2 then
    match d.train x.train with
    | none => true
    | some t => d.confidence t = 0 || (if x.rising then decide (x.endPos ≤ t.at d.wall) else decide (t.at d.wall ≤ x.endPos))
  else decide (x.endAt ≤ d.now)

/-- The end of a coast at a period start (R310, R311): set 0, ramp-up, stage 6. -/
def Dev.coastEnd (d : Dev) : Dev :=
  let st := d.stage
  let inCoast := (st = 7 && d.setInForce = 3) || (st = 8 && d.setInForce = 4)
  if inCoast && d.cmu.coasts.all d.coastOver && d.flag F.tbuCatStat_locked && !d.flag F.tbuCatStat_lost then
    let ms := match d.cmu.coasts.getLast? with | some x => x.rampMs | none => 10 * d.fld F.cmuCoast_rtRamp
    let d1 := (d.switchSet 0).setStage 6
    let up : Ramp := ⟨Frac.zero, Frac.ofInt (1000 * d.fld F.cmuPlim_pLim), d.rampSteps ms, 0⟩
    { d1 with cmu := { d1.cmu with coasts := [], coastFrom := none, rHold := false, rRamp := some up } }
  else d

/-- Catenary loss as the SST takes it (R303, R311, R317): a start fails, stage 6 becomes 8, and a ramp-down in stage 7
ends at once. -/
def Dev.sstCatLost (d : Dev) : Dev :=
  match d.stage with
  | 1 | 2 | 3 | 4 | 5 => d.failStart 2
  | 6 => (d.setStage 8).holdRamp 4
  | 7 => if d.cmu.rRamp.isSome then d.holdRamp 3 else d
  | _ => d

/-! ### The period -/

/-- The ramps one step on (R296). -/
def Dev.stepRamps (d : Dev) : Dev :=
  let c := d.cmu
  let vdc := match c.vdcRamp with
    | some r => (match r.step with | some q => (q.value, some q) | none => (r.stop, none))
    | none => (c.vdcRef, none)
  let vout := match c.voutRamp with
    | some r => (match r.step with | some q => (q.value, some q) | none => (r.stop, none))
    | none => (c.voutRef, none)
  let d1 := { d with cmu := { c with vdcRef := vdc.1, vdcRamp := vdc.2, voutRef := vout.1, voutRamp := vout.2 } }
  let d2 := match c.lvRamp with
    | some r =>
      let v := match r.step with | some q => q.value | none => r.stop
      { (d1.setFld F.pwmLvref_ref (clampInt 0 65535 v.round).toNat) with cmu := { d1.cmu with lvRamp := r.step } }
    | none => d1
  let d3 := match c.rRamp with
    | some r => (match r.step with
      | some q => { d2 with cmu := { d2.cmu with rRamp := some q } }
      | none => if r.stop.num = 0 then
          (if d2.stage = 7 then d2.holdRamp 3 else { d2 with cmu := { d2.cmu with rRamp := none, rHold := true } })
        else { d2 with cmu := { d2.cmu with rRamp := none, neutralTrigger := false } })
    | none => d2
  d3.showRamping

/-- A reference ramp from a measured value (R296). -/
def Dev.refRamp (d : Dev) (start stop : Frac) (ms : Nat) : Ramp := ⟨start, stop, d.rampSteps ms, 0⟩

/-- Entry to stage 3 (Table 12-7, Table 12-3). -/
def Dev.enterBoost (d : Dev) : Dev :=
  let d1 := (d.setStage 3).switchSet 2
  let q := d.cmu.params
  let live := d.inService
  let d2 := ((d1.startLane 0).startLane 1)
  let d3 := live.foldl (fun d n => d.startLane (3 + n)) d2
  let r := d.refRamp d.serviceMean (unitsOf q.vdcRef 10) q.rampMs
  ({ d3 with cmu := { d3.cmu with vdcRef := r.start, vdcRamp := some r } }).showRamping

/-- Entry to stage 4. -/
def Dev.enterDab (d : Dev) : Dev :=
  let d1 := (d.setStage 4).switchSet 5
  let q := d.cmu.params
  let d2 := (d.inService.foldl (fun d n => d.startLane (51 + n)) d1).startLane 99
  let r := d.refRamp d.meanVout (unitsOf q.voutRef 10) q.dabRampMs
  ({ d2 with cmu := { d2.cmu with voutRef := r.start, voutRamp := some r } }).showRamping

/-- Entry to stage 5: the legs of the start are enabled as under LEG_ENABLE; where that would be refused they stay
disabled (R331). -/
def Dev.enterLv (d : Dev) : Dev :=
  let d1 := (d.setStage 5).startLane 100
  let m := d.cmu.params.legMask
  let d2 := if d1.enableRefusal m = 0 then d1.enableLegs m else d1
  let from_ := Frac.mul d.vLv (Frac.ofInt 100)
  let r := d.refRamp from_ (Frac.ofInt (d.fld F.pwmLvref_target)) d.pwm.rampMs
  (({ d2 with cmu := { d2.cmu with lvRamp := some r } }).setFld F.pwmLvref_ref (clampInt 0 65535 from_.round).toNat).showRamping

/-- One more period in which a stage's exit condition holds; entered the next stage after 20 in a row (Table 12-7). -/
def Dev.countWithin (d : Dev) (ok : Bool) (go : Dev → Dev) : Dev :=
  if !ok then { d with cmu := { d.cmu with within := 0 } }
  else if 20 ≤ d.cmu.within + 1 then go d
  else { d with cmu := { d.cmu with within := d.cmu.within + 1 } }

/-- The stage logic of a period start (R302, R304, R310). Stage 2 is left at the start for which its commands were sent
(`within`, set in the command window). -/
def Dev.stageLogic (d : Dev) : Dev :=
  let q := d.cmu.params
  let v := d.serviceMean
  match d.stage with
  | 0 => (match d.cmu.startCmd with
    | some _ => let d1 := d.setStage 1
                queueAll 0x04 0 d1.inService d1
    | none => d)
  | 1 => if Frac.le (Frac.mul d.vPass (Frac.mk2 1 10)) v then d.setStage 2 else d
  | 2 => if d.cmu.within = 1 then d.enterBoost else d
  | 3 => d.countWithin (within2 (unitsOf q.vdcRef 10) v) Dev.enterDab
  | 4 => d.countWithin (within2 (unitsOf q.voutRef 10) d.meanVout) Dev.enterLv
  | 5 => d.countWithin (within2 (unitsOf (d.fld F.pwmLvref_target) 100) d.vLv) (fun d =>
      let d1 := (d.setStage 6).switchSet 0
      match d1.cmu.startCmd with
      | some (o, _) => ({ d1 with cmu := { d1.cmu with startCmd := none } }).finish o St.done []
      | none => d1)
  | 7 | 8 => d.coastEnd
  | 9 => (match d.cmu.blockDue with
    | some k => if k = d.cmu.k then (d.forceDisableWhere (fun l => d.legLv l)).checkStopped else d
    | none => d)
  | 10 => d.leaveTrip
  | _ => d

/-- A break of a ring or twin chain, found from the sides and positions heard in the period that ends (Table 11-5). -/
def Dev.checkBreak (d : Dev) (c : Nat) : Dev :=
  let n := d.fld (F.clnChainCfg_nCells c)
  let w := d.fld (F.clnChainCfg_wiring c)
  let node := fun p => d.cellNode (d.fld (F.clnChainCfg_base c) + p)
  let heardA := (List.range n).filter (fun p => (node p).sideA)
  let heard := (List.range n).filter (fun p => (node p).got)
  let (broken, pos) : Bool × Nat := match w with
    | 1 => (heard.any (fun p => (node p).sideA != (node p).sideB), heardA.foldl max 0)
    | 2 => if d.fromB c c then (!heard.isEmpty && decide (0 < heard.foldl min 15), heard.foldl min 15 - 1)
           else (!heard.isEmpty && decide (heard.foldl max 0 + 1 < n), heard.foldl max 0)
    | _ => (false, 0)
  if broken then
    if d.flag (F.clnChainStat_broken c) then d
    else
      let d1 := ((d.setFlag (F.clnChainStat_broken c) true).setFld (F.clnChainStat_brkPos c) pos).setFlag (F.clnChainErr_broken c) true
      (d1.event 0x0711 c (le 1 pos)).raiseLevel (216 + c)
  else if heard.isEmpty then d
  else (d.setFlag (F.clnChainStat_broken c) false).clearLevel (216 + c)

/-- The MEAS records of the period that ends, counted for one enabled chain (R273, R282): of each cell, and in state 4 of the chain. -/
def Dev.closePeriod (d : Dev) (c : Nat) : Dev :=
  let cells := d.chainCells c
  let up := (cells.filter (fun n => (d.cellNode n).got)).length
  let d1 := if d.fld (F.clnChainStat_state c) = 4 then
      let d1 := (d.setFld (F.clnChainStat_cellsUp c) up).checkBreak c
      d1.setChain c { d1.chain c with silent := if up = 0 then (d1.chain c).silent + 1 else 0 }
    else d
  cells.foldl (fun d n =>
    let x := d.cellNode n
    d.setCellNode n { x with missed := if x.got then 0 else x.missed + 1, got := false, sideA := false, sideB := false }) d1

/-- PERIOD_START (R23): S(k + 1). -/
def Dev.periodStart (d : Dev) : Dev :=
  let due := if d.cmu.k = 0 then d.strobeFrom d.now else d.nextStart
  let t := if d.now ≤ due then due else d.strobeFrom d.now
  let d0 := d.advance t
  let on := (List.range 8).filter (fun c => d0.bitAt R.clnChainEn c)
  let d1 := if d.cmu.k = 0 then d0 else on.foldl Dev.closePeriod d0
  let dl := d1.cmu.limDue.foldl (fun d e => d.setReg e.1 e.2) d1
  let d2 := { dl with cmu := { dl.cmu with start := t, k := dl.cmu.k + 1, limDue := [] } }
  let d3 := match d2.cmu.nextPeriod with
    | some (o, f, k) => if k = d2.cmu.k then
        ({ d2 with cmu := { d2.cmu with period := f, nextPeriod := none } }).finish o St.done (le 8 d2.frame)
      else d2
    | none => d2
  let d4 := match d3.cmu.nextSet with | some s => d3.switchSet s | none => d3
  let coasting := (d4.stage = 7 && d4.setInForce = 3) || (d4.stage = 8 && d4.setInForce = 4)
  let d5 := { d4 with cmu := { d4.cmu with coastFrom := if coasting then some (d4.cmu.coastFrom.getD t) else none } }
  let d6 := if d5.cmu.legsOff then { d5 with cmu := { d5.cmu with legsOff := false } }.forceDisableWhere (fun l => d5.legLv l) else d5
  d6.stepRamps.stageLogic

/-- PERIOD_START (R23). -/
def execPeriodStart (s : State) : Host.Outcome State Fault Refusal := commit s s.dev.periodStart

/-- The measurements of the period entered in the half-cycle means (R24, R287): a cell without a record keeps its last. -/
def Dev.takeMeasurements (d : Dev) : Dev :=
  d.configuredCells.foldl (fun d n =>
    let x := d.cellNode n
    if x.got || !x.hist.isEmpty then d.setCellNode n { x with hist := (x.vDc :: x.hist).take 2048 } else d) d

/-- MEASUREMENT_CUTOFF (R24): 0.25P. -/
def execMeasurementCutoff (s : State) : Host.Outcome State Fault Refusal :=
  commit s (
    let d := s.dev
    let d1 := (d.advance (d.periodInstant 25)).takeMeasurements
    let d2 := (d1.setReg R.pwmPlv (coefWord d1.pLv)).checkProtections
    if d2.flag F.lpcPowerCfg_reserve then d2.evalPower else d2)

/-- The outputs of the period published, or those of the last republished with `power_late` (R184, R185). -/
def Dev.publishPower (d : Dev) : Dev :=
  if d.cmu.evaluated then
    { d with cmu := { d.cmu with outNow := d.cmu.next, shown := d.cmu.lanes, lateStreak := 0 } }.protCondition 3 false
  else
    let n := d.cmu.lateStreak + 1
    let d1 := ({ d with cmu := { d.cmu with lateStreak := n } }.bump R.lpcPowerLate).event 0x0403 0
      (le 8 ((((d.cmu.start / tickCount : Nat) : Int) + d.twn.offset).toNat / 1000))
    (d1.raise 255).protCondition 3 (decide (3 ≤ n))

/-- POWER_PUBLISH (R184): 0.40P. The edge lists of the next period follow (R299). -/
def execPowerPublish (s : State) : Host.Outcome State Fault Refusal :=
  commit s (
    let d := s.dev
    let d1 := d.advance (d.periodInstant 40)
    let d2 := if d1.flag F.lpcPowerCfg_reserve then d1.publishPower else d1
    let d3 := d2.leaveBypassed
    let mc := d3.mCommon d3.cmu.outNow
    let past := decide (3 ≤ d3.stage) && decide (d3.stage ≤ 9) && Frac.le (Frac.mk2 (d3.fld F.cmuModCfg_mMax) 100) mc.abs
    let n := if past then d3.cmu.overStreak + 1 else 0
    ({ d3 with cmu := { d3.cmu with overStreak := n } }.protLatch 6 (decide (20 ≤ n))).buildEdges.showPower)

/-- DUTY_WRITE (R327): 0.50P. -/
def execDutyWrite (s : State) : Host.Outcome State Fault Refusal :=
  commit s (
    let d := s.dev
    let d1 := d.advance (d.periodInstant 50)
    if (d1.lane 100).run then
      let f := d1.cmu.outNow.duty
      let legs := (List.range 8).filter (fun l => d1.legLv l && (d1.legState l = 2 || d1.legState l = 5))
      legs.foldl (fun d l => d.stageDuty f l) (d1.setReg R.pwmLvD (coefWord f))
    else d1)

/-! ### Limits and BRK_TRIP -/

/-- The tick at which a start fails by a limit of its stage or by the 10 s of R302. -/
def Dev.startLimit (d : Dev) : Nat :=
  let ten := d.cmu.startAt + 10 * tickS
  match d.stage with
  | 1 => min ten (d.cmu.stageAt + d.cmu.params.pcWait * tickMs)
  | 2 => min ten (d.cmu.stageAt + d.cmu.params.pcTmax * tickMs)
  | _ => ten

/-- SST_START_TIMEOUT (R303). -/
def execSstStartTimeout (s : State) : Host.Outcome State Fault Refusal :=
  commit s (
    let d := s.dev
    if d.cmu.startCmd.isSome then (d.advance d.startLimit).failStart 1 else d)

/-- COAST_EXPIRY (R312). -/
def execCoastExpiry (s : State) : Host.Outcome State Fault Refusal :=
  commit s (
    let d := s.dev
    match d.cmu.coastFrom with
    | some t => ((d.advance (t + d.fld F.cmuCoast_coastMax * 100 * tickMs)).protCondition 4 true).protGone 4
    | none => d)

/-- The latch behind BRK_TRIP is clear (R315): a latch of CMU.PROT_STAT, or device safe for a class 5 reaction. -/
def Dev.brkLatchClear (d : Dev) : Bool :=
  match d.cmu.brkSource with
  | some i => if i < 7 then !bit (d.regN R.cmuProtStat) i else if i = 8 then !d.stickyOfClass [5] else true
  | none => true

/-- BRK_TRIP_RELEASE (R315). -/
def execBrkTripRelease (s : State) : Host.Outcome State Fault Refusal :=
  commit s (
    let d := s.dev
    if d.flag F.cmuProtStat_brk && d.brkLatchClear then
      let d1 := d.advance (d.cmu.brkAt + d.fld F.cmuBrkCfg_brkMin * tickMs)
      ({ d1 with cmu := { d1.cmu with brkSource := none } }.setFlag F.cmuProtStat_brk false).event 0x0724 0 (le 1 0)
    else d)

/-- PERIOD_WATCHDOG (R315). -/
def execPeriodWatchdog (s : State) : Host.Outcome State Fault Refusal :=
  commit s (
    let d := s.dev
    if d.sstUp then (d.advance (d.cmu.start + 4 * d.periodTicks)).assertBrk 9 else d)

/-! ### Query -/

/-- SST_QUERY (R317). -/
def bodySstQuery (d : Dev) (_ : Call) : Dev × Verdict :=
  let cell := fun n => le 2 (d.fld (F.clnCellStat_cstat n)) ++ le 1 (d.fld (F.cmuCellSvc_svc n)) ++ le 1 0 ++
    le 2 (d.fld (F.cmuCellMod_m n)) ++ le 2 (d.fld (F.cmuCellMod_phi n))
  (d, .final St.done (le 1 d.stage ++ le 1 d.setInForce ++ le 1 (d.fld F.cmuSstStat_nSvc) ++ le 1 (d.fld F.cmuSstStat_sel) ++
    le 4 (d.regN R.cmuPsel) ++ (List.range 5).flatMap (fun i => le 4 (d.regN (R.cmuCand i))) ++ le 4 (d.regN R.cmuVdcMean) ++
    (List.range 48).flatMap cell))

end Sys2Proof.Machine
end

