-- ==== Sys2Proof/Machine/Keys.lean ====
section
/-! DEFINITION. Keys and the schedule (R90, R95, R98 to R104): firing, closing and re-checking entries, and a train's confidence level. -/

namespace Sys2Proof.Machine

/-! ### Firing and closing entries -/

/-- The command of an entry given its final reply, its work not done (R42, R100, R104). -/
def Dev.closeKeyed (d : Dev) (oid status : Nat) : Dev :=
  match d.findMove oid with
  | some m => d.withdrawMove m status
  | none => d.finish oid status []

/-- The payload of a keyed command: its own, or the one that the peer's mirror gave (R428). -/
def Dev.keyedPayload (d : Dev) (oid : Nat) : Bytes :=
  match d.findOpen oid with
  | some o => o.packet.cmd.payload
  | none => (aget d.twn.payloads oid).getD []

/-- A keyed command handed to its function (R103): a move of group 0x02, a bypass (R306), a neutral section (R309). -/
def Dev.runKeyed (d : Dev) (e : SchedEntry) : Dev :=
  let p := d.keyedPayload e.oid
  if e.opcode = 0x0704 then d.fireBypass e.oid (rd p 0 1)
  else if e.opcode = 0x0705 then d.fireNeutral e.oid e.key (rd p 2 2) (rd p 4 4)
  else d.fireMove e.oid

/-- Entry `i` fires now (R98, R101, R103): late where its mark has been passed over, in which case a strict command is
not run and completes with TOO_LATE (R90, R95, R99, R101). The entries that a standby holds are its peer's: they do not fire there. -/
def Dev.fireEntry (d : Dev) (i : Nat) (late : Bool) : Dev :=
  match aget d.tbu.sched i with
  | none => d
  | some e =>
    if d.standby ∨ e.state = 3 then d
    else if late && e.strict then d.closeKeyed e.oid St.tooLate
    else
      let low := d.keyLowConf e.key
      let d1 := d.setEntry i (fun e => { e with state := 3, predicted := some d.now, lowConf := low, late := e.late || late })
      let d2 := if low then d1.markLowConf e.oid else d1
      let d3 := match d2.findMove e.oid with
        | some m => d2.setMove { m with late := m.late || late }
        | none => d2
      (d3.publishFiring i e low).runKeyed e

/-- The waiting and held entries that satisfy `p`, in the order of R103. -/
def Dev.entriesInOrder (d : Dev) (p : SchedEntry → Bool) : List Nat :=
  let l := d.entriesWhere p
  (List.range 3).flatMap (fun r => (l.filter (fun x => groupRank (x.2.opcode / 256) = r)).map (fun x => x.1))

/-- An entry with its instant put behind those of the list that come at or before it. -/
def insertDue (x : Nat × Nat) : List (Nat × Nat) → List (Nat × Nat)
  | [] => [x]
  | y :: r => if x.1 < y.1 then x :: y :: r else y :: insertDue x r

/-- The waiting entries that satisfy `p` and whose predicted instant the timebase count has reached: in the order of their instants, and of
R103 at one instant. -/
def Dev.dueEntries (d : Dev) (p : SchedEntry → Bool) : List Nat :=
  let at_ := fun (i : Nat) => match aget d.tbu.sched i with | some e => e.predicted.getD 0 | none => 0
  let l := d.entriesInOrder (fun e => e.state = 1 && p e && (match e.predicted with | some t => decide (t ≤ d.now) | none => false))
  (l.foldl (fun acc i => insertDue (at_ i, i) acc) []).map (fun x => x.2)

/-- The entries that are due fire: a predicted instant that the timebase count has reached is final, whatever is processed next (R102, R103,
R111). -/
def Dev.fireDue (d : Dev) (p : SchedEntry → Bool) : Dev := (d.dueEntries p).foldl (fun d i => d.fireEntry i false) d

/-- Every entry that is due fires (R102). -/
def Dev.fireAllDue (d : Dev) : Dev := d.fireDue (fun _ => true)

/-! ### Re-checking after a change -/

/-- One entry of a train checked under R99 and predicted anew: fired late where its mark has been passed. -/
def Dev.recheckEntry (d : Dev) (i : Nat) : Dev :=
  match aget d.tbu.sched i with
  | none => d
  | some e =>
    if d.keyHeld e.key then d.setEntry i (fun e => { e with state := 2, predicted := none })
    else if d.passed e.key then d.fireEntry i true
    else d.setEntry i (fun x => { x with state := 1, predicted := d.predict e.key d.now })

/-- Every waiting or held mark of a train checked anew, and the calendar with them (R92, R95, R97, R99, R158). -/
def Dev.recheckTrain (d : Dev) (t : Nat) : Dev :=
  ((d.entriesInOrder (fun e => e.key.kind = 2 && e.key.train = t)).foldl Dev.recheckEntry d).recheckCalendar

/-- The predicted instants of the waiting entries that satisfy `p` computed anew. -/
def Dev.repredict (d : Dev) (p : SchedEntry → Bool) : Dev :=
  ((d.entriesInOrder (fun e => e.state = 1 && p e)).foldl (fun d i => match aget d.tbu.sched i with
    | some e => d.setEntry i (fun x => { x with predicted := d.predict e.key e.angleFrom })
    | none => d) d).recheckCalendar

/-! ### Trains -/

/-- A train changed. -/
def Dev.setTrain (d : Dev) (t : Nat) (x : Train) : Dev := { d with tbu := { d.tbu with trains := aput d.tbu.trains t x } }

/-- Marks of a train that are held, or become held with it. -/
def Dev.trainMarks (d : Dev) (t : Nat) (p : SchedEntry → Bool) : List (Nat × SchedEntry) :=
  d.entriesWhere (fun e => e.key.kind = 2 && e.key.train = t && p e)

/-- A train's confidence level brought up to date (R94, R95): falls to 1 and to 0 are published, and at level 0 its
waiting marks are held, which raises source 306. -/
def Dev.updateLevel (d : Dev) (t : Nat) : Dev :=
  match d.train t with
  | none => d
  | some x =>
    let c := d.confidence x
    let d1 := d.setTrain t { x with level := c }
    if c = 1 ∧ 1 < x.level then d1.event 0x0601 t (le 4 (min (d.age x / 1000000).toNat 0xFFFFFFFF))
    else if c = 0 ∧ 0 < x.level then
      let (n, d2) := d1.holdEntries (fun e => e.key.kind = 2 && e.key.train = t)
      let d3 := d2.event 0x0602 t (le 4 n)
      if n = 0 then d3 else (d3.raise 306).recheckCalendar
    else d1

/-- Every train's level brought up to date, after a change of `ptp` or of wall time (R94). -/
def Dev.updateLevels (d : Dev) : Dev := d.tbu.trains.foldl (fun d x => d.updateLevel x.1) d

end Sys2Proof.Machine
end

