-- ==== Sys2Proof/Machine/Tbu.lean ====
section
/-! DEFINITION. The timebase unit's commands and events (chapter 04): wall time (R87 to R90), trains and wheel sensors
(R91 to R100), marks (R98 to R104), the catenary angle (R105 to R112, R486). -/

namespace Sys2Proof.Machine

/-! ### Wall time -/

/-- A change of the mapping from counts to TAI by `corr` ns: at once where it is a step, slewed at 50 ppm otherwise; `rate` is the rate correction
from here on (R88, R89). -/
def Dev.rebaseWall (d : Dev) (corr rate : Int) (step : Bool) : Dev :=
  { d with tbu := { d.tbu with wallBase := d.tbu.wallHalf d.count + (if step then 2 * corr else 0), wallRef := d.count,
                               wallRate := rate, slewLeft := if step then 0 else 2 * corr } }

/-- A number saturated to 32 bits, signed. -/
def sat32 (i : Int) : Nat := pattern 32 (clampInt (-2147483648) 2147483647 i)

/-- What is due before a step of wall time fires as predicted (R102); of kind 1 only what was due in an earlier frame, since a step is applied
before the entries of kind 1 of its frame (R111). -/
def Dev.beforeStep (d : Dev) : Dev :=
  let strobe := d.nextStrobe d.now - tickFrame
  d.fireDue (fun e => decide (e.key.kind ≠ 1) || (match e.predicted with | some t => decide (t < strobe) | none => false))

/-- After a step the trains' levels are brought up to date (R94, R95), entries of kind 1 whose instant a step forward has passed over fire late,
and every other prediction that rests on wall time is made anew (R90). -/
def Dev.afterStep (d : Dev) : Dev :=
  let d0 := d.updateLevels
  let past := d0.entriesInOrder (fun e => e.key.kind = 1 && d0.passed e.key)
  let d1 := past.foldl (fun d i => d.fireEntry i true) d0
  let d2 := d1.repredict (fun e => decide (e.key.kind ≠ 2))
  d2.tbu.trains.foldl (fun d x => d.recheckTrain x.1) d2

/-- A step of wall time (R88, R90): counted, event 0x0607. -/
def Dev.stepWall (d : Dev) (corr rate : Int) : Dev :=
  (((d.beforeStep.rebaseWall corr rate true).bumpSat F.tbuPtpStat_steps).event 0x0607 0 (le 4 (sat32 corr))).afterStep

/-- Wall time slewed towards its master (R88). -/
def Dev.slewWall (d : Dev) (corr rate : Int) : Dev := (d.fireAllDue.rebaseWall corr rate false).repredict (fun _ => true)

/-- `ptp` sets (R88). -/
def Dev.setPtp (d : Dev) : Dev :=
  ((((d.setFlag F.cpxReady1_ptp true).setFld F.tbuPtpStat_pstate 1).clearLevel 303)).updateLevels

/-- `a` comes before `b` in the dataset comparison. -/
def rankBefore : List Nat → List Nat → Bool
  | [], _ => false
  | _ :: _, [] => false
  | x :: a, y :: b => decide (x < y) || (decide (x = y) && rankBefore a b)

/-- The master selected among those that announce themselves: the best of those on the PTP timescale (R87). -/
def bestMaster (l : List PtpMaster) : Option PtpMaster :=
  (l.filter (fun m => m.ptpScale)).foldl (fun b m => match b with
    | none => some m
    | some x => if rankBefore m.rank x.rank then some m else some x) none

/-- A Sync that the slave uses (R87): it runs with the management port up; version 2 on the transport and in the domain of TBU.PTP_CTRL, with the
delay request-response mechanism, one-step or two-step, at an interval of 2^−4 s to 2 s, from the master selected. -/
def Dev.syncUsable (d : Dev) (m : SyncMsg) : Bool :=
  d.flag F.tbuPtpCtrl_en && d.flag F.cpxReady1_mgmt && decide (m.version = 2) && (m.l2 == d.flag F.tbuPtpCtrl_l2) &&
    decide (m.domain = d.fld F.tbuPtpCtrl_domain) && !m.peerDelay && decide (-4 ≤ m.interval) && decide (m.interval ≤ 1) &&
    (match bestMaster m.masters with | some b => decide (b.identity = m.sender) | none => false)

/-- The rate correction that the slave forms with a Sync (R89): the spec states none, so it is a free value, within the 50 ppm of REFCLK's
range (Table 20-2). -/
def Dev.drawRate (d : Dev) : Int × Dev :=
  let (n, d1) := d.fresh 100001
  ((n : Int) - 50000, d1)

/-- One usable Sync (R88, R89): `offset` is wall time less the master's, in ns. While a unit is the standby of a pair, its
wall time follows the active unit's and not its own slave, which keeps running (R413). -/
def Dev.ptpSync (d : Dev) (offset : Int) : Dev :=
  let follows := d.standby && d.flag F.twnStat_paired
  let (rate, d0) := d.drawRate
  let step := fun (d : Dev) => if follows then d else d.stepWall (-offset) rate
  let slew := fun (d : Dev) => if follows then d else d.slewWall (-offset) rate
  let d1 := { d0.setRegN R.tbuPtpOffset (sat32 offset) with tbu := { d0.tbu with lastSync := some d.now, holdoverFrom := none } }
  let d2 := if d1.fld F.tbuPtpStat_pstate = 2 then d1.setFld F.tbuPtpStat_pstate 1 else d1
  if d.flag F.cpxReady1_ptp then (if 10000 < offset.natAbs then step d2 else (slew d2).updateLevels)
  else if 1000 < offset.natAbs then step { d2 with tbu := { d2.tbu with goodSyncs := 0 } }
  else
    let n := if offset.natAbs ≤ 100 then d.tbu.goodSyncs + 1 else 0
    let d3 := slew { d2 with tbu := { d2.tbu with goodSyncs := n } }
    if 16 ≤ n then d3.setPtp else d3

/-- PTP_SYNC (R87, R88): a Sync that the slave cannot use changes nothing. -/
def execPtpSync (m : SyncMsg) (s : State) : Host.Outcome State Fault Refusal :=
  commit s (if s.dev.syncUsable m then s.dev.ptpSync m.offset else s.dev)

/-- PTP_HOLDOVER_ENTER (R89): 4 s after the last usable Sync. -/
def execPtpHoldoverEnter (s : State) : Host.Outcome State Fault Refusal :=
  commit s (
    let d := s.dev
    if d.flag F.cpxReady1_ptp && decide (d.fld F.tbuPtpStat_pstate ≠ 2) then
      let t := (d.tbu.lastSync.getD d.now) + 4 * tickS
      let d1 := (d.advance t).setFld F.tbuPtpStat_pstate 2
      ({ d1 with tbu := { d1.tbu with holdoverFrom := some d1.now } }).event 0x0608 0 []
    else d)

/-- PTP_HOLDOVER_EXPIRY (R89): `ptp` clears. -/
def execPtpHoldoverExpiry (s : State) : Host.Outcome State Fault Refusal :=
  commit s (
    let d := s.dev
    match d.tbu.holdoverFrom with
    | some t =>
      let d1 := (d.advance (t + d.fld F.tbuPtpCtrl_holdover * tickS)).setFlag F.cpxReady1_ptp false
      let d2 := { d1.setFld F.tbuPtpStat_pstate 3 with tbu := { d1.tbu with holdoverFrom := none, goodSyncs := 0 } }
      ((d2.event 0x0609 0 []).raiseLevel 303).updateLevels
    | none => d)

/-! ### Trains -/

/-- The entries of a train that satisfy `p` closed; answers how many. -/
def Dev.closeMarks (d : Dev) (t status : Nat) (p : SchedEntry → Bool) : Nat × Dev :=
  let l := d.trainMarks t p
  (l.length, l.foldl (fun d x => d.closeKeyed x.2.oid status) d)

/-- TRAIN_REPORT (R92, R93, R95, R99, R100). While `ptp` is 0 the instant is that of the command's arrival, also where it has waited behind a fence;
marks that are due at the same count fire first (R102, R111). -/
def bodyTrainReport (d : Dev) (c : Call) : Dev × Verdict :=
  let p := c.packet.cmd.payload
  let t := rd p 0 1
  let v := signed 32 (rd p 8 4)
  let ptp := d.flag F.cpxReady1_ptp
  let at_ : Int := if ptp then (rd p 16 8 : Nat) else c.arrived.getD d.wall
  if 63 < t ∨ rd p 1 1 ≠ 0 ∨ rd p 12 4 ≠ 0 ∨ 150000 < v.natAbs ∨ (ptp ∧ d.wall + 10000000 < at_) then refuse d St.badParam
  else
    let pos := signed 32 (rd p 4 4)
    let track := rd p 2 2
    let done := fun (d : Dev) (sup : Nat) =>
      (d, Verdict.final St.done (le 1 (match d.train t with | some x => d.confidence x | none => 0) ++ le 1 sup))
    let d := d.fireAllDue
    match d.train t with
    | some x =>
      if at_ ≤ x.tLast then done d 1
      else
        let keep := decide (x.track = track) && decide (at_ < x.tRef)
        let x1 : Train := if keep then { x with speed := v, tLast := at_ }
          else { x with track := track, pRef := pos, tRef := at_, speed := v, tLast := at_ }
        let d1 := d.setTrain t x1
        let d2 := if x.track = track then d1 else
          let (n, d2) := d1.closeMarks t St.conflict (fun e => e.key.track = x.track)
          d2.event 0x0606 t (le 4 n)
        let lvl := d2.confidence x1
        let d3 := if x.level < lvl then
            (d2.setTrain t { x1 with level := lvl }).event 0x0603 t
              (le 4 ((d2.trainMarks t (fun e => e.state = 2)).length))
          else d2.updateLevel t
        done (d3.recheckTrain t) 0
    | none =>
      let x : Train := ⟨track, pos, at_, v, at_, 0⟩
      let d1 := d.setTrain t { x with level := d.confidence x }
      done (d1.recheckTrain t) 0

/-- TRAIN_DROP (R104). -/
def bodyTrainDrop (d : Dev) (c : Call) : Dev × Verdict :=
  let p := c.packet.cmd.payload
  let t := rd p 0 1
  if 63 < t ∨ rd p 1 3 ≠ 0 then refuse d St.badParam
  else
    let (n, d1) := d.fireAllDue.closeMarks t St.refused (fun _ => true)
    ({ d1 with tbu := { d1.tbu with trains := adel d1.tbu.trains t } }, .final St.done (le 4 n))

/-- A wheel-sensor input. -/
def Dev.wheel (d : Dev) (i : Nat) : WheelSensor := tget (fun _ => {}) d.tbu.wheels i
/-- A wheel-sensor input replaced. -/
def Dev.setWheel (d : Dev) (i : Nat) (x : WheelSensor) : Dev :=
  { d with tbu := { d.tbu with wheels := tput (fun _ => {}) d.tbu.wheels i x } }

/-- WSENSE_CONFIG (Table 4-2, R96). -/
def bodyWsenseConfig (d : Dev) (c : Call) : Dev × Verdict :=
  let p := c.packet.cmd.payload
  let ok := fun (v lo hi : Nat) => decide (lo ≤ v) && decide (v ≤ hi)
  if 7 < rd p 0 1 ∨ 4 ≤ rd p 1 1 ∨ !(ok (rd p 8 2) 1 1000 && ok (rd p 10 2) 100 10000 && ok (rd p 12 4) 100 100000) then
    refuse d St.badParam
  else
    (d.setWheel (rd p 0 1) { en := bit (rd p 1 1) 0, falling := bit (rd p 1 1) 1, track := rd p 2 2,
                             position := signed 32 (rd p 4 4), debounce := rd p 8 2, quiet := rd p 10 2,
                             window := rd p 12 4, quietFrom := d.now }, .final St.done [])

/-- The tracked trains on a track with their distance from a position at wall time `t`, nearest first. -/
def Dev.nearest (d : Dev) (track : Nat) (pos t : Int) : List (Nat × Nat) :=
  let l := (d.tbu.trains.filter (fun x => x.2.track = track)).map (fun x => ((x.2.at t - pos).natAbs, x.1))
  l.foldl (fun acc x => acc.filter (fun y => decide (y.1 ≤ x.1)) ++ x :: acc.filter (fun y => decide (x.1 < y.1))) []

/-- A pulse on input `i` (R96, R97): its instant is that of the edge, which lies the debounce time back, on the timebase count; its TAI instant is
the wall time of that count. -/
def Dev.wheelPulse (d : Dev) (i : Nat) : Dev :=
  let w := d.wheel i
  if !w.en then d else
  let at_ := (d.now - w.debounce * tickUs) / tickCount * tickCount
  let wall := d.tbu.wallAt at_
  let quiet := decide (w.quietFrom + w.quiet * tickMs ≤ at_)
  let d1 := (d.setWheel i { w with quietFrom := max w.quietFrom at_ }).fireAllDue
  if !quiet then d1 else
  let lost := fun (n : Nat) => (d1.bumpSat (F.tbuWsCount_unattributed i)).event 0x0605 i (le 4 (min n 0xFFFFFFFF))
  match d1.nearest w.track w.position wall with
  | [] => lost 0xFFFFFFFF
  | (n, t) :: r =>
    if decide (w.window < n) || (match r with | (m, _) :: _ => decide (m = n) | [] => false) then lost n
    else match d1.train t with
      | none => d1
      | some x =>
        let err := w.position - x.at wall
        let d2 := (d1.bumpSat (F.tbuWsCount_attributed i)).event 0x0604 i (le 4 (sat32 err))
        (if wall < x.tRef then d2 else d2.setTrain t { x with pRef := w.position, tRef := wall }).recheckTrain t

/-- WHEEL_PULSE (R96, R97). -/
def execWheelPulse (i : Nat) (s : State) : Host.Outcome State Fault Refusal :=
  commitIf (decide (i < 8)) "WSENSE" s (s.dev.wheelPulse i)

/-- TRAIN_CONFIDENCE_FALL (R94, R95): the instant at which the age passes 2 s or 10 s. -/
def execTrainConfidenceFall (t : Nat) (s : State) : Host.Outcome State Fault Refusal :=
  commitIf (decide (t < 64)) "train" s (
    let d := s.dev
    match d.train t with
    | some x =>
      if x.level = 0 then d
      else ((d.advance (d.tickOfTai (x.tLast + (if x.level = 1 then 10000000001 else 2000000001))).toNat).fireAllDue).updateLevel t
    | none => d)

/-! ### Marks -/

/-- An entry of the kinds that `p` names fires at its predicted instant, and with it every entry that is due by then, in the order of R103
(R98, R101, R102). -/
def Dev.markFires (d : Dev) (i : Nat) (p : Nat → Bool) : Dev :=
  match aget d.tbu.sched i with
  | some e => (match e.state, e.predicted with
    | 1, some t => if p e.key.kind then (d.advance t).fireAllDue else d
    | _, _ => d)
  | none => d

/-- MARK_FIRE (R98, R103). -/
def execMarkFire (entry : Nat) (s : State) : Host.Outcome State Fault Refusal :=
  commitIf (decide (entry < 4096)) "schedule entry" s (s.dev.markFires entry (fun k => k = 1 || k = 2))

/-- ANGLE_MARK_FIRE (R101, R103). -/
def execAngleMarkFire (entry : Nat) (s : State) : Host.Outcome State Fault Refusal :=
  commitIf (decide (entry < 4096)) "schedule entry" s (s.dev.markFires entry (fun k => k = 3))

/-- SCHEDULE_QUERY (R104, Table 4-3). -/
def bodyScheduleQuery (d : Dev) (c : Call) : Dev × Verdict :=
  let p := c.packet.cmd.payload
  let first := rd p 16 2
  let n := rd p 18 2
  if n = 0 ∨ 4096 < first + n then refuse d St.badParam
  else (d, .final St.done ((List.range n).flatMap (fun j => d.entryRecord (first + j))))

/-- TIME_QUERY (chapter 04): its 32 bytes inline. -/
def bodyTimeQuery (d : Dev) (_ : Call) : Dev × Verdict :=
  let fl := b2n (d.flag F.cpxReady1_ptp) + 2 * b2n (d.flag F.cpxReady1_angle) + 4 * b2n (d.flag F.tbuCatStat_flywheel) +
    8 * b2n (d.flag F.tbuCatStat_lost)
  (d, .final St.done (le 8 d.tai ++ le 8 d.frame ++ le 4 (d.regN R.tbuPtpOffset) ++ le 4 (d.angleAt d.now) ++
    le 4 (d.regN R.tbuFreq) ++ le 1 fl ++ le 3 0))

/-! ### Catenary angle -/

/-- Nominal voltage in kV of a system (Table 4-4). -/
def nominalKv (sys : Nat) : Nat := if sys = 0 then 15 else 25

/-- The frequency lies in the lock range of Table 4-4; in 2^−16 Hz. -/
def inLockRange (sys freq : Nat) : Bool :=
  let (lo, hi) := if sys = 0 then (160, 174) else if sys = 1 then (470, 520) else (570, 620)
  decide (lo * 65536 ≤ freq * 10) && decide (freq * 10 ≤ hi * 65536)

/-- The amplitude, in units of 10 V, lies below the loss level (R108). -/
def Dev.belowLoss (d : Dev) (amp : Nat) : Bool := decide (amp < d.fld F.tbuCatCfg_lossPct * nominalKv (d.fld F.tbuCatCfg_system))

/-- The amplitude measured, with `out_of_range` (R107, Table 4-10) and event 0x060C on its change. -/
def Dev.setAmplitude (d : Dev) (amp : Nat) : Dev :=
  let (lo, hi) := if d.fld F.tbuCatCfg_system = 0 then (1200, 1800) else (1900, 2900)
  let oor := !d.belowLoss amp && (decide (amp < lo) || decide (hi < amp))
  let d1 := d.setFld F.tbuCatStat_amplitude amp
  if oor = d.flag F.tbuCatStat_outOfRange then d1
  else (d1.setFlag F.tbuCatStat_outOfRange oor).event 0x060C 0 (le 4 amp)

/-- The tracker runs (R105). -/
def Dev.trackerRuns (d : Dev) : Bool := d.regN R.tbuCatScale ≠ 0

/-- The tracker's lock is lost and the angle runs on as a flywheel, where it had locked (R108, R486). -/
def Dev.startFlywheel (d : Dev) : Dev :=
  if d.flag F.tbuCatStat_locked then
    let d1 := ((d.carryAngle).setFlag F.tbuCatStat_locked false).setFlag F.tbuCatStat_flywheel true
    { d1 with tbu := { d1.tbu with flywheelFrom := some (d1.tbu.flywheelFrom.getD d1.now) } }
  else d

/-- The signed difference of two angles in 2^−32 turn. -/
def angleDiff (new old : Nat) : Int := signed 32 ((new + 2 ^ 32 - old) % 2 ^ 32)

/-- Angle marks that a forward step of the angle by `step` skips over fire late (R101, R109). -/
def Dev.skipMarks (d : Dev) (old : Nat) (step : Int) : Dev :=
  let hit := d.entriesInOrder (fun e => e.key.kind = 3 && e.state = 1 && d.whenReached e.key &&
    (let x : Nat := (e.key.pos + 2 ^ 32 - old) % 2 ^ 32; decide (0 < x) && decide ((x : Int) ≤ step)))
  hit.foldl (fun d i => d.fireEntry i true) d

/-- The prediction of every waiting angle mark made anew after the estimate has moved from `old` at this instant: a mark that the move has reached or
passed is due now (R101). -/
def Dev.repredictAngle (d : Dev) (old : Nat) : Dev :=
  let moved := angleDiff (d.angleAt d.now) old
  let hit := d.entriesWhere (fun e => e.key.kind = 3 && e.state = 1 && decide (e.angleFrom < d.now) && d.whenReached e.key &&
    (let x : Nat := (e.key.pos + 2 ^ 32 - old) % 2 ^ 32; decide (0 < x) && decide ((x : Int) ≤ moved)))
  let d1 := hit.foldl (fun d x => d.setEntry x.1 (fun e => { e with predicted := some (d.now / tickCount * tickCount) })) d
  d1.repredict (fun e => e.key.kind = 3 && !hit.any (fun x => x.2.oid = e.oid))

/-- The tracker's own estimate carried forward to now at its frequency (R105). -/
def Dev.carryEst (d : Dev) : Dev :=
  let g := phaseGain d.tbu.estFreq (d.now - d.tbu.estTick)
  { d with tbu := { d.tbu with est := (d.tbu.est + g) % 2 ^ 32, estTick := d.now } }

/-- The tracker started anew: no estimate, no lock, no flywheel, `angle` clear, and every angle mark held (R105, R112). -/
def Dev.restartTracker (d : Dev) : Dev :=
  let d1 := ((d.fireAllDue.setFlag F.cpxReady1_angle false).setFlag F.tbuCatStat_locked false).setFlag F.tbuCatStat_flywheel false
  let d2 := { d1 with tbu := { d1.tbu with everLocked := false, flywheelFrom := none, angleSlew := 0, angleRef := 0, angleTick := d1.now,
                                           est := 0, estFreq := 0, estTick := d1.now } }
  ((d2.setRegN R.tbuFreq 0).holdEntries (fun e => e.key.kind = 3)).2

/-- The tracker locks (R107, R109): the first lock takes the angle over; a re-lock steps it where it differs by more than
5°, and slews it otherwise. Held angle marks wait again. -/
def Dev.lockAngle (d : Dev) (angle freq amp : Nat) : Dev :=
  let d0 := d.fireAllDue.carryAngle
  let diff := angleDiff angle d0.tbu.angleRef
  let again := d0.tbu.everLocked
  let step : Int := if again && decide (2 ^ 32 < diff.natAbs * 72) then diff else 0
  let d1 := if step ≠ 0 && d0.flag F.cpxReady1_angle then d0.skipMarks d0.tbu.angleRef step else d0
  let fresh := !again || decide (step ≠ 0)
  let d2 := { d1 with tbu := { d1.tbu with angleRef := if fresh then angle else d1.tbu.angleRef,
                                           angleSlew := if fresh then 0 else diff, everLocked := true,
                                           flywheelFrom := none, est := angle, estFreq := freq, estTick := d1.now } }
  let d3 := ((((d2.setRegN R.tbuFreq freq).setAmplitude amp).setFlag F.tbuCatStat_locked true).setFlag
    F.tbuCatStat_flywheel false).setFlag F.tbuCatStat_lost false
  let d4 := (d3.clearLevel 304).clearLevel 305
  let d5 := if again then d4.event 0x060B 0 (le 4 (sat32 step)) else d4
  let d6 := d5.setFlag F.cpxReady1_angle true
  let held := d6.entriesWhere (fun e => e.key.kind = 3 && e.state = 2)
  (held.foldl (fun d x => d.setEntry x.1 (fun e => { e with state := 1, angleFrom := d.now })) d6).repredict
    (fun e => e.key.kind = 3)

/-- ANGLE_LOCK (R107, R109): `angle` in 2^−32 turn, `freq` in 2^−16 Hz, `amp` in units of 10 V. -/
def execAngleLock (angle freq amp : Nat) (s : State) : Host.Outcome State Fault Refusal :=
  commit s (
    let d := s.dev
    if d.trackerRuns && !d.flag F.tbuCatStat_locked && inLockRange (d.fld F.tbuCatCfg_system) freq && !d.belowLoss amp then
      d.lockAngle (angle % 2 ^ 32) freq amp
    else d)

/-- CATENARY_LOSS (R108, R311): `amp` in units of 10 V. -/
def execCatenaryLoss (amp : Nat) (s : State) : Host.Outcome State Fault Refusal :=
  commit s (
    let d := s.dev
    if d.trackerRuns && !d.flag F.tbuCatStat_lost && d.belowLoss amp then
      let d1 := (((d.fireAllDue.setAmplitude amp).setFlag F.tbuCatStat_lost true).event 0x060A 0 (le 4 amp)).startFlywheel
      (d1.raiseLevel 304).sstCatLost
    else d)

/-- LOSS_OF_LOCK (R486): the amplitude stays above the loss level; `freq` is the frequency last tracked, in 2^−16 Hz. -/
def execLossOfLock (freq : Nat) (s : State) : Host.Outcome State Fault Refusal :=
  commit s (
    let d := s.dev
    if d.flag F.tbuCatStat_locked && !inLockRange (d.fld F.tbuCatCfg_system) freq && !d.belowLoss (d.fld F.tbuCatStat_amplitude) then
      let d1 := d.fireAllDue
      let old := d1.angleAt d1.now
      (((d1.startFlywheel).setRegN R.tbuFreq freq).repredictAngle old).event 0x060E 0 (le 4 freq)
    else d)

/-- FLYWHEEL_EXPIRY (R109): `angle` clears and angle marks are held. -/
def execFlywheelExpiry (s : State) : Host.Outcome State Fault Refusal :=
  commit s (
    let d := s.dev
    match d.tbu.flywheelFrom with
    | some t =>
      let d1 := ((d.advance (t + d.fld F.tbuCatCfg_flyMax * 100 * tickMs)).fireAllDue).setFlag F.tbuCatStat_flywheel false
      let (n, d2) := (d1.setFlag F.cpxReady1_angle false).holdEntries (fun e => e.key.kind = 3)
      let d3 := { d2 with tbu := { d2.tbu with flywheelFrom := none } }
      (d3.event 0x060D 0 (le 4 n)).raiseLevel 305
    | none => d)

/-- A word that TBU.CAT_CFG takes (Table 4-9). -/
def catCfgOk (v : Word) : Bool :=
  let f := fun x => fieldOf x v
  decide (f F.tbuCatCfg_system ≠ 3) && decide (f F.tbuCatCfg_pair < 6) && decide (20 ≤ f F.tbuCatCfg_lossPct) &&
    decide (f F.tbuCatCfg_lossPct ≤ 80) && decide (1 ≤ f F.tbuCatCfg_flyMax) && decide (f F.tbuCatCfg_flyMax ≤ 100) &&
    v &&& 0xFC00#32 = 0

/-- A write of TBU.CAT_CFG (R112): a change of system, input or pair restarts the tracker and holds the angle marks. -/
def Dev.writeCatCfg (d : Dev) (v : Word) : Dev :=
  let old := d.reg R.tbuCatCfg
  let d1 := d.setReg R.tbuCatCfg v
  if (old &&& 0x3FF#32) = (v &&& 0x3FF#32) then d1 else d1.restartTracker

/-- A write of TBU.CAT_SCALE (R105): while it is 0 the tracker does not run. -/
def Dev.writeCatScale (d : Dev) (v : Word) : Dev :=
  let d1 := d.setReg R.tbuCatScale v
  if v = 0 then d1.restartTracker else d1

/-- CAT_CFG_WRITE (R112). -/
def execCatCfgWrite (v : Word) (s : State) : Host.Outcome State Fault Refusal :=
  commit s (if catCfgOk v then s.dev.writeCatCfg v else s.dev)

end Sys2Proof.Machine
end

