-- ==== Sys2Proof/Machine/Adc.lean ====
section
/-! DEFINITION. The converter pairs (chapter 14): slots and their firing, conversions and results, consumers, injected
conversions, reference settling, disable and enable. -/

namespace Sys2Proof.Machine

/-- A converter pair of the block. -/
def okPair (p : Nat) : Bool := decide (p < 6)

/-- A pair's state beside its registers. -/
def Dev.adcPair (d : Dev) (p : Nat) : AdcPair := tget (fun _ => {}) d.adc.pairs p
/-- A pair's state replaced. -/
def Dev.setPair (d : Dev) (p : Nat) (x : AdcPair) : Dev :=
  { d with adc := { d.adc with pairs := tput (fun _ => {}) d.adc.pairs p x } }

/-- The first edge of the ADC sample clock at or after `t` (R348); `o` is the shift of the pair count (R411). -/
def adcEdge (o t : Nat) : Nat := (t + o % 40 + 39) / 40 * 40 - o % 40

/-- 100 ns, for which a conversion keeps its converter (R348). -/
def tickConv : Nat := 800

/-- A pair reaches an input (R347). -/
def reaches (p input : Nat) : Bool := decide (24 ≤ input) || decide (input / 4 = p)

/-! ### Slot words (Table 14-8) -/

/-- `src` of a slot word. -/
def slotSrc (w : Nat) : Nat := w % 8
/-- `tline` of a slot word. -/
def slotTline (w : Nat) : Nat := w / 8 % 16
/-- `bipolar` of a slot word. -/
def slotBipolar (w : Nat) : Bool := bit w 7
/-- `input` of a slot word. -/
def slotInput (w : Nat) : Nat := w / 256 % 32
/-- `div` of a slot word. -/
def slotDiv (w : Nat) : Nat := w / 65536 % 4096

/-- The angle tracker claims slot 7 of the pair (R354). -/
def Dev.slotClaimed (d : Dev) (p : Nat) : Bool := d.trackerRuns && d.fld F.tbuCatCfg_pair = p

/-- The slot word in force: a claimed slot 7 converts the tracker's input at every frame strobe (R354). -/
def Dev.slotWord (d : Dev) (p s : Nat) : Nat :=
  if s = 7 ∧ d.slotClaimed p then 1 + 128 + 256 * d.fld F.tbuCatCfg_input else d.regN (R.adcSlot p s)

/-! ### Consumers (R354) -/

/-- Pair and input of a consumer of Table 14-5. -/
def Dev.consumerInput (d : Dev) (k : Nat) : Nat × Nat :=
  match k with
  | 0 => (d.fld F.tbuCatCfg_pair, d.fld F.tbuCatCfg_input)
  | 1 => (d.fld F.cmuIcatCfg_pair, d.fld F.cmuIcatCfg_input)
  | 2 => (d.fld F.cmuLvbCfg_pair, d.fld F.cmuLvbCfg_input)
  | _ => (d.fld F.pwmLvpCfg_pair, d.fld F.pwmLvpCfg_input)

/-- The slot that serves a consumer, with the slot words as `word` gives them. -/
def consumerSlotIn (k input : Nat) (claimed : Bool) (word : Nat → Nat) : Option Nat :=
  match k with
  | 0 => if claimed then some 7 else none
  | 1 => (List.range 8).find? (fun s => slotSrc (word s) = 1 && slotInput (word s) = input)
  | _ => (List.range 8).find? (fun s => (slotSrc (word s) = 1 || slotSrc (word s) = 2) && slotInput (word s) = input)

/-- The pair and the slot that serve a consumer. -/
def Dev.consumerSlot (d : Dev) (k : Nat) : Option (Nat × Nat) :=
  let (p, i) := d.consumerInput k
  (consumerSlotIn k i (d.slotClaimed p) (d.slotWord p)).map (fun s => (p, s))

/-- A consumer runs (R355): the tracker while `angle` is set or its flywheel runs, the others in CMU stages 1 to 10; the
LV-stage current only where its scale is not 0 (R330). -/
def Dev.consumerRuns (d : Dev) (k : Nat) : Bool :=
  match k with
  | 0 => d.flag F.cpxReady1_angle || d.flag F.tbuCatStat_flywheel
  | 3 => decide (1 ≤ d.stage) && decide (d.stage ≤ 10) && decide (d.regN R.pwmLvpScale ≠ 0)
  | _ => decide (1 ≤ d.stage) && decide (d.stage ≤ 10)

/-- `unserved` and the stale mark of a consumer set or cleared. -/
def Dev.markConsumer (d : Dev) (k : Nat) (v : Bool) : Dev :=
  let d1 := d.setFld F.adcStat_unserved (setBit (d.fld F.adcStat_unserved) k v)
  { d1 with cmu := { d1.cmu with stale := setBit d1.cmu.stale k v } }

/-- A consumer that needs a conversion goes without (R354): `unserved`, event 0x0903, its source. -/
def Dev.unserve (d : Dev) (k : Nat) : Dev :=
  ((d.markConsumer k true).event 0x0903 k (le 1 (d.consumerInput k).1)).raise (275 + k)

/-- A consumer uses the conversion triggered at tick `t`: the LV bus and the LV-stage current use that of S(k) only. -/
def Dev.usesConv (d : Dev) (k t : Nat) : Bool := decide (k < 2) || decide (t = d.cmu.start)

/-- A conversion of a slot triggered at `t` has been dropped: the running consumers that it serves are unserved. -/
def Dev.unserveSlot (d : Dev) (p s t : Nat) : Dev :=
  (List.range 4).foldl (fun d k => if d.consumerRuns k && d.usesConv k t && d.consumerSlot k = some (p, s) then d.unserve k else d) d

/-- The running consumers of a list that find no matching slot, or whose pair fires nothing (R354, R358). -/
def Dev.checkConsumers (d : Dev) (ks : List Nat) : Dev :=
  ks.foldl (fun d k => if !d.consumerRuns k then d else
    match d.consumerSlot k with
    | none => d.unserve k
    | some (p, _) => if d.bitAt R.adcCtrl p then d else d.unserve k) d

/-- A result of a slot is stale or unsettled: its consumers use their previous value, marked stale (R349, R357). -/
def Dev.staleSlot (d : Dev) (p s t : Nat) : Dev :=
  (List.range 4).foldl (fun d k => if d.usesConv k t && d.consumerSlot k = some (p, s) then
    { d with cmu := { d.cmu with stale := setBit d.cmu.stale k true } } else d) d

/-- One sample of the angle tracker, `v` its code (R105): the estimate carried forward takes the sample in; while the tracker is locked, the angle is
the estimate less what is left of a slewed difference, and the angle marks are predicted anew (R101, R109). -/
def Dev.trackAngle (d : Dev) (v : Int) : Dev :=
  let d0 := d.fireAllDue.carryAngle.carryEst
  let (a, f, m) := Config.catTrack (d0.tbu.est, d0.tbu.estFreq, d0.fld F.tbuCatStat_amplitude) v (d0.regN R.tbuCatScale)
  let d1 := ({ d0 with tbu := { d0.tbu with est := a % 2 ^ 32, estFreq := f } }).setAmplitude (m % 65536)
  if d1.flag F.tbuCatStat_locked then
    let ref := (((a : Int) - d1.tbu.angleSlew) % (2 ^ 32 : Nat)).toNat
    ((({ d1 with tbu := { d1.tbu with angleRef := ref } }).setRegN R.tbuFreq f).repredictAngle d0.tbu.angleRef)
  else d1

/-- A good conversion taken by a consumer, `v` its code and `hold` its trigger: the angle tracker (R105), the catenary current with its protection
(R287, R313), the LV bus with the trigger of economy mode (R26), and the LV-stage current (R330). -/
def Dev.serve (d : Dev) (k hold : Nat) (v : Int) : Dev :=
  let d0 := if d.usesConv k hold then d.markConsumer k false else d
  match k with
  | 0 =>
    if d0.trackerRuns then d0.trackAngle v else d0
  | 1 =>
    let d1 := if hold = d0.cmu.start then { d0 with cmu := { d0.cmu with iCat := v } } else d0
    let past := Frac.lt (unitsOf (d1.fld F.cmuIcatCfg_icatOc) 10) (scaled v (d1.regN R.cmuIcatScale)).abs
    let n := if past && d1.sstUp then d1.cmu.ocStreak + 1 else 0
    ({ d1 with cmu := { d1.cmu with ocStreak := n } }).protCondition 1 (decide (2 ≤ n))
  | 2 =>
    let d1 := { d0 with ths := { d0.ths with lvVolts := v * (100 * d0.regN R.cmuLvbScale : Nat) } }
    if hold = d1.cmu.start then { d1 with cmu := { d1.cmu with vLv := v } } else d1
  | _ => if hold = d0.cmu.start then { d0 with cmu := { d0.cmu with iLv := v } } else d0

/-! ### Conversions -/

/-- A conversion of an input, held at `hold` after its trigger at `trig`. -/
def convOf (slot : Option Nat) (input : Nat) (bipolar : Bool) (hold trig : Nat) (oid : Option Nat) : Conv :=
  { slot := slot, input := input, bipolar := bipolar, hold := hold, trig := trig, delayed := false, unsettled := false, oid := oid, dropped := false }

/-- A conversion begins on a converter at its hold instant; it is `unsettled` while the reference settles, and is corrected for the reference as
it is now (R348, R365, R441). -/
def Dev.beginConv (d : Dev) (p : Nat) (b : Bool) (c : Conv) : Dev :=
  let x := d.adcPair p
  let ref := d.fld (F.adcPairCfg_ref p)
  let c1 := { c with unsettled := decide (c.hold < x.settleEnd), ref := ref, temp := if ref = 0 then d.ths.comp.adcRef else none }
  let e := c.hold + tickConv
  d.setPair p { x with convs := x.convs ++ [(b, c1)], freeA := if b then x.freeA else e, freeB := if b then e else x.freeB }

/-- `pending` of PAIR_STAT follows the pending conversion. -/
def Dev.setPend (d : Dev) (p : Nat) (c : Option Conv) : Dev :=
  (d.setPair p { d.adcPair p with pend := c }).setFlag (F.adcPairStat_pending p) c.isSome

/-- The converter that serves during a calibration job: the one that is not being calibrated (R357); none where both serve. -/
def AdcPair.serves (x : AdcPair) (t : Nat) : Option Bool :=
  if x.calInputs = [] then none else some (!Config.calOnB (x.calOid.getD 0) t)

/-- When a converter is free. -/
def AdcPair.freeOf (x : AdcPair) (b : Bool) : Nat := if b then x.freeB else x.freeA

/-- The converter that takes a conversion held at `t`: A before B; during a calibration job only the one that serves (R351, R357). -/
def AdcPair.freeAt (x : AdcPair) (t : Nat) : Option Bool :=
  match x.serves t with
  | some b => if x.freeOf b ≤ t then some b else none
  | none => if x.freeA ≤ t then some false else if x.freeB ≤ t then some true else none

/-- The converter that takes a firing held at `t`: a stream with `div` 1 uses A on even sample numbers and B on odd ones (R351); every other
firing the first that is free. `parity` is that of the sample, of such a stream. -/
def AdcPair.takes (x : AdcPair) (t : Nat) (parity : Option Bool) : Option Bool :=
  match parity with
  | some b => if (x.serves t).isNone && decide (x.freeOf b ≤ t) then some b else x.freeAt t
  | none => x.freeAt t

/-- The pending conversion starts on the first converter to become free, if that is by `t` (R351). -/
def Dev.startPending (d : Dev) (p t : Nat) : Dev :=
  let x := d.adcPair p
  match x.pend with
  | none => d
  | some c =>
    let own := x.serves c.hold
    let f := adcEdge d.shift (max c.hold (match own with | some b => x.freeOf b | none => min x.freeA x.freeB))
    if f ≤ t then
      let b := own.getD (decide (f < x.freeA))
      (((d.setPend p none).beginConv p b { c with hold := f, delayed := true })).bumpSat (F.adcPairCount_delayed p)
    else d

/-- Where the oldest injected conversion can start (R356): with both converters free, or on B where a trigger has taken A at
that instant; during a calibration job on the converter that is not being calibrated (R365). -/
def AdcPair.injectStart (x : AdcPair) (o asked : Nat) : Bool × Nat :=
  match x.serves asked with
  | some b => (b, adcEdge o (max asked (x.freeOf b)))
  | none =>
    let beside := x.freeA - tickConv
    if tickConv ≤ x.freeA ∧ asked ≤ beside ∧ x.freeB ≤ beside then (true, beside)
    else (false, adcEdge o (max asked (max x.freeA x.freeB)))

/-- The oldest injected conversion starts, if that is before `t` and within its 100 µs. -/
def Dev.startInject (d : Dev) (p t : Nat) : Dev :=
  let x := d.adcPair p
  match x.pend, x.injects with
  | none, (oid, input, bip, asked) :: r =>
    let (b, h) := x.injectStart d.shift asked
    if h < t ∧ h ≤ asked + 100 * tickUs then
      (d.setPair p { x with injects := r }).beginConv p b (convOf none input bip h asked (some oid))
    else d
  | _, _ => d

/-- What starts of itself on a pair before `t`: the pending conversion, then injected ones. -/
def settlePair (p t : Nat) : Nat → Dev → Dev
  | 0, d => d
  | fuel + 1, d => settlePair p t fuel ((d.startPending p t).startInject p t)

/-- The trigger instant of a slot's next firing (R350); none where its source fires nothing. -/
def Dev.slotTrigger (d : Dev) (p s : Nat) : Option Nat :=
  let w := d.slotWord p s
  let last := tget (fun _ => 0) (d.adcPair p).fired s
  match slotSrc w with
  | 1 => some (d.strobeFrom (max d.now last))
  | 2 => if d.cmu.start < max d.now last then some d.nextStart else some d.cmu.start
  | 3 =>
    let t := tget (fun _ => 0) d.pwm.lineAt (slotTline w)
    if t ≠ 0 ∧ last ≤ t then some t else none
  | 4 =>
    let m : Int := 20 * slotDiv w * 20
    let o := d.twn.offset * 20
    some ((-((-((max d.now last : Nat) + o)) / m)) * m - o).toNat
  | _ => none

/-- A slot's configuration is about to change at the next strobe, so that it receives no firing (R355). -/
def AdcPair.changing (x : AdcPair) (s : Nat) : Bool := match x.newCfg with | some (_, l) => l.any (fun e => e.1 = s) | none => false

/-- A firing dropped on overrun (R351). -/
def Dev.overrun (d : Dev) (p s t : Nat) : Dev :=
  ((((d.setFlag (F.adcPairStat_overrun p) true).bumpSat (F.adcPairCount_overruns p)).event 0x0901 p (le 1 s)).raise (269 + p)).unserveSlot p s t

/-- The pair count at a tick (R411). -/
def Dev.pairCountAt (d : Dev) (t : Nat) : Nat := (((t / tickCount : Nat) + d.twn.offset) % (2 ^ 64 : Nat)).toNat

/-- The sample number of a stream slot's trigger (R350). -/
def Dev.sampleNumber (d : Dev) (t : Nat) : Nat := d.pairCountAt t / 20

/-- A slot of a calibrated input fires: it is not converted and keeps its last result with `stale` set (R357); the ring entry of a stream holds that
result too (R353). -/
def Dev.keepResult (d : Dev) (p s t : Nat) : Dev :=
  let d1 := (d.setFlag (F.adcRes_stale p s) true).staleSlot p s t
  if slotSrc (d.slotWord p s) = 4 then
    let i := d.sampleNumber t / max 1 (slotDiv (d.slotWord p s)) % 1024
    (d1.setRegN (R.adcCap p i) (d1.regN (R.adcRes p s) % 65536 + 65536)).setFld (F.adcCapPos_index p) i
  else d1

/-- A slot that may fire: it waits neither for its new configuration nor for the strobe after an enable (R355, R358). -/
def Dev.slotFires (d : Dev) (p s : Nat) : Option Nat :=
  if (d.adcPair p).changing s || (d.adcPair p).waitStrobe then none else d.slotTrigger p s

/-- A slot fires at `t` (R351): its input is held by a free converter, or becomes the pair's pending conversion, or is dropped. -/
def Dev.fireAt (d : Dev) (p s t : Nat) : Dev :=
  let w := d.slotWord p s
  let h := adcEdge d.shift t
  let d1 := settlePair p h 4 (d.advance t)
  let x := d1.adcPair p
  let d2 := d1.setPair p { x with fired := tput (fun _ => 0) x.fired s (t + 1) }
  let c := convOf (some s) (slotInput w) (slotBipolar w) h t none
  let parity := if slotSrc w = 4 ∧ slotDiv w = 1 then some (decide (d2.sampleNumber t % 2 = 1)) else none
  if !d2.bitAt R.adcCtrl p then d2.unserveSlot p s t
  else if x.calInputs.contains (slotInput w) then d2.keepResult p s t
  else match x.takes h parity, x.pend with
    | some b, none => d2.beginConv p b c
    | _, none => d2.setPend p (some c)
    | _, some _ => d2.overrun p s t

/-- A slot fires, and before it the slots of its pair with a lower number that fire at the same instant (R351). -/
def Dev.fireSlot (d : Dev) (p s : Nat) : Dev :=
  match d.slotFires p s with
  | none => d
  | some t => ((List.range s).filter (fun i => d.slotFires p i = some t) ++ [s]).foldl (fun d i => d.fireAt p i t) d

/-- ADC_SLOT_FIRE (R351). -/
def execAdcSlotFire (p slot : Nat) (s : State) : Host.Outcome State Fault Refusal :=
  commitIf (okPair p && decide (slot < 8)) "pair or slot" s (s.dev.fireSlot p slot)

/-- The calibration bank that was in force at tick `t`: a conversion held before the last switch is corrected by the bank before it (R373). -/
def Dev.bankHeld (d : Dev) (t : Nat) : Bank :=
  if d.cal.switchedAt ≤ t then d.bank else if d.flag F.calStat_active then d.cal.bankA else d.cal.bankB

/-- A raw code of a conversion corrected by the bank in force at its hold instant and saturated to the code range (R348, R373): the value and its
16-bit code. -/
def Dev.correct (d : Dev) (p : Nat) (b : Bool) (x : Conv) (raw : Nat) : Int × Nat :=
  let v := Config.adcCorrect ((d.bankHeld x.hold).body 4 0) p b x.ref x.temp x.bipolar raw
  let c := if x.bipolar then clampInt (-32768) 32767 v else clampInt 0 65535 v
  (c, pattern 16 c)

/-- The tick of an instant as TAI ns. -/
def Dev.taiOfTick (d : Dev) (t : Nat) : Nat := (d.tbu.wallAt t % (2 ^ 64 : Nat)).toNat

/-- A slot's result written (R348, R353): RES and its time and count, the capture ring of a stream, and the consumers. -/
def Dev.writeResult (d : Dev) (p s : Nat) (c : Conv) (v : Int) (code : Nat) : Dev :=
  let w := d.slotWord p s
  let res := code + 131072 * b2n c.unsettled + 262144 * b2n c.delayed
  let d1 := ((d.setRegN (R.adcRes p s) res).setRegN (R.adcResTime p s) (c.hold / tickCount)).bump (R.adcResCount p s)
  let d2 := if slotSrc w = 4 then
      let i := d1.sampleNumber c.trig / max 1 (slotDiv w) % 1024
      (d1.setRegN (R.adcCap p i) (code + 131072 * b2n c.unsettled)).setFld (F.adcCapPos_index p) i
    else d1
  if c.unsettled then d2.staleSlot p s c.trig
  else (List.range 4).foldl (fun d k => if d.consumerSlot k = some (p, s) then d.serve k c.trig v else d) d2

/-- A pair with its `en` cleared and no conversion left is drained (R358). -/
def Dev.checkPairDrained (d : Dev) (p : Nat) : Dev :=
  if !d.bitAt R.adcCtrl p && (d.adcPair p).convs = [] then
    d.setFld F.adcStat_drained (setBit (d.fld F.adcStat_drained) p true)
  else d

/-- A calibration job takes the converters once the injected conversions that were pending or running when it started have ended (R357). -/
def Dev.takeCalInputs (d : Dev) (p : Nat) : Dev :=
  let x := d.adcPair p
  let left := fun (o : Nat) => x.injects.any (fun i => i.1 = o) || x.convs.any (fun c => c.2.oid = some o)
  if x.calNext = [] ∨ x.calWaits.any left then d
  else (d.setPair p { x with calInputs := x.calNext, calNext := [], calWaits := [] }).setFlag (F.adcPairStat_calBusy p) true

/-- ADC_CONVERSION_DONE (R348): 110 ns after the hold instant; `code` is the converter's raw code. -/
def execAdcConversionDone (p : Nat) (b : Bool) (code : Nat) (s : State) : Host.Outcome State Fault Refusal :=
  commitIf (okPair p) "pair" s (
    let first := (s.dev.adcPair p).convs.find? (fun c => c.1 = b)
    let till := match first with | some c => c.2.hold + 880 | none => s.dev.now + 101 * tickUs
    let d := settlePair p till 4 s.dev
    let x := d.adcPair p
    match x.convs.find? (fun c => c.1 = b) with
    | none => d
    | some c =>
      let d1 := (d.setPair p { x with convs := x.convs.erase c }).advance (c.2.hold + 880)
      let (v, n) := d1.correct p b c.2 code
      let d2 := if c.2.dropped then
          let d2 := d1.setFlag (F.adcPairStat_discarded p) true
          match c.2.oid, c.2.slot with
          | some o, _ => d2.finish o St.conflict []
          | none, some sl => d2.unserveSlot p sl c.2.trig
          | none, none => d2
        else match c.2.oid, c.2.slot with
          | some o, _ => d1.finish o St.done (le 2 n ++ le 1 (b2n (x.calInputs.contains c.2.input) + 2 * b2n c.2.unsettled) ++ le 1 0 ++
              le 8 (d1.taiOfTick c.2.hold))
          | none, some sl => d1.writeResult p sl c.2 v n
          | none, none => d1
      (d2.checkPairDrained p).takeCalInputs p)

/-! ### Reference and configuration -/

/-- Settling time of a reference (R349). -/
def refSettle (r : Nat) : Nat := match r with | 0 => 20 * tickUs | 1 => 50 * tickUs | _ => 10 * tickUs

/-- A pair's `settling` shown. -/
def Dev.setSettling (d : Dev) (p : Nat) (v : Bool) : Dev :=
  (d.setFlag (F.adcPairStat_settling p) v).setFld F.adcStat_settling (setBit (d.fld F.adcStat_settling) p v)

/-- A configuration that waited takes effect at the frame strobe (R355), and a pair enabled again fires from here on. -/
def Dev.applyAdcCfg (d : Dev) (p : Nat) : Dev :=
  let x := d.adcPair p
  let d0 := d.setPair p { x with newCfg := none, waitStrobe := false }
  match x.newCfg with
  | none => if x.waitStrobe then d0 else d
  | some (r, l) =>
    let d1 := l.foldl (fun d e => d.setRegN (R.adcSlot p e.1) e.2) d0
    if r = d.fld (F.adcPairCfg_ref p) then d1
    else
      let d2 := (d1.setFld (F.adcPairCfg_ref p) r).setSettling p true
      d2.setPair p { d2.adcPair p with settleEnd := d.now + refSettle r }

/-- ADC_REF_SETTLED (R349). -/
def execAdcRefSettled (p : Nat) (s : State) : Host.Outcome State Fault Refusal :=
  commitIf (okPair p) "pair" s (
    let d := s.dev
    if d.flag (F.adcPairStat_settling p) then
      ((d.advance (d.adcPair p).settleEnd).setSettling p false).event 0x0902 p (le 1 (d.fld (F.adcPairCfg_ref p)))
    else d)

/-- A slot word is well formed for a pair (Table 14-8, R347, R350); an unused slot names no input. -/
def slotOk (p w : Nat) : Bool :=
  decide (slotSrc w ≤ 4) && decide (w / 8192 % 8 = 0) && decide (w / 2 ^ 28 = 0) &&
    (if slotSrc w = 4 then decide (1 ≤ slotDiv w) else decide (slotDiv w = 0)) && (slotSrc w = 0 || reaches p (slotInput w))

/-- The rules of R352 hold for the slots of a pair. -/
def slotsOk (word : Nat → Nat) : Bool :=
  let src := (List.range 8).map (fun s => slotSrc (word s))
  let streams := (List.range 8).filter (fun s => slotSrc (word s) = 4)
  decide ((src.filter (fun x => x = 1 || x = 2)).length ≤ 2) && decide (streams.length ≤ 1) &&
    !(streams.any (fun s => slotDiv (word s) = 1) && decide (1 < (src.filter (fun x => x ≠ 0)).length))

/-- The slot word that a pair will have once the configuration that waits is in force. -/
def Dev.comingSlot (d : Dev) (p s : Nat) : Nat :=
  match (d.adcPair p).newCfg with
  | some (_, l) =>
    if s = 7 ∧ d.slotClaimed p then d.slotWord p s
    else (match l.find? (fun e => e.1 = s) with | some e => e.2 | none => d.slotWord p s)
  | none => d.slotWord p s

/-- A configuration touches a conversion that a running consumer uses (R355): its reference, or its matching slot. -/
def Dev.touchesConsumer (d : Dev) (p r : Nat) (word : Nat → Nat) : Bool :=
  (List.range 4).any (fun k => d.consumerRuns k && decide ((d.consumerInput k).1 = p) && (match d.consumerSlot k with
    | some (_, s) => decide (r ≠ d.fld (F.adcPairCfg_ref p)) || decide (word s ≠ d.slotWord p s) ||
        decide (consumerSlotIn k (d.consumerInput k).2 (d.slotClaimed p) word ≠ some s)
    | none => false))

/-- ADC_CONFIG (Table 14-1, R347, R350, R352, R354, R355). -/
def bodyAdcConfig (d : Dev) (c : Call) : Dev × Verdict :=
  let b := c.packet.cmd.payload
  let p := rd b 0 1
  let r := rd b 1 1
  let mask := rd b 2 1
  let named := bitsOf mask 8
  let word := fun s => if bit mask s then rd b (8 + 4 * s) 4 else d.comingSlot p s
  let clean := (List.range 8).all (fun s => bit mask s || rd b (8 + 4 * s) 4 = 0)
  if 5 < p ∨ 2 < r ∨ rd b 3 5 ≠ 0 ∨ !clean ∨ !named.all (fun s => slotOk p (word s)) ∨ !slotsOk word then refuse d St.badParam
  else if (bit mask 7 ∧ d.slotClaimed p) ∨ d.touchesConsumer p r word then refuse d St.conflict
  else
    let x := d.adcPair p
    let kept := match x.newCfg with | some (_, l) => l.filter (fun e => !bit mask e.1) | none => []
    let new := (named.filter (fun s => word s ≠ d.slotWord p s)).map (fun s => (s, word s))
    (d.setPair p { x with newCfg := some (r, kept ++ new) }, .final St.done [])

/-- ADC_INJECT (R347, R356). -/
def bodyAdcInject (d : Dev) (c : Call) : Dev × Verdict :=
  let b := c.packet.cmd.payload
  let p := rd b 0 1
  let i := rd b 1 1
  if 5 < p ∨ 31 < i ∨ !reaches p i ∨ 2 ≤ rd b 2 1 ∨ rd b 3 1 ≠ 0 then refuse d St.badParam
  else if !d.bitAt R.adcCtrl p ∨ (List.range 8).any (fun s => slotSrc (d.slotWord p s) = 4 && slotDiv (d.slotWord p s) = 1) then
    refuse d St.conflict
  else
    let x := d.adcPair p
    (d.setPair p { x with injects := x.injects ++ [(c.oid, i, bit (rd b 2 1) 0, d.now)] }, .accepted [])

/-- ADC_INJECT_TIMEOUT (R356): the oldest injected conversion that has not started within 100 µs is withdrawn. -/
def execAdcInjectTimeout (p : Nat) (s : State) : Host.Outcome State Fault Refusal :=
  commitIf (okPair p) "pair" s (
    let at_ := fun (x : AdcPair) => match x.injects with | (_, _, _, t) :: _ => t + 100 * tickUs | [] => s.dev.now
    let d := settlePair p (at_ (s.dev.adcPair p) + 1) 4 s.dev
    let x := d.adcPair p
    match x.injects with
    | (oid, _, _, t) :: r => (((d.advance (t + 100 * tickUs)).setPair p { x with injects := r }).finish oid St.conflict []).takeCalInputs p
    | [] => d)

/-! ### Disable and enable (R358) -/

/-- A running consumer uses the pair. -/
def Dev.pairInUse (d : Dev) (p : Nat) : Bool := (List.range 4).any (fun k => d.consumerRuns k && decide ((d.consumerInput k).1 = p))

/-- `en` of a pair cleared (R358): what waits is dropped, what converts is discarded at its end. -/
def Dev.pairOff (d : Dev) (p : Nat) : Dev :=
  let d0 := settlePair p d.now 4 d
  let x := d0.adcPair p
  let lost := x.injects.map (fun i => i.1)
  let d1 := (d0.setBitAt R.adcCtrl p false).setPend p none
  let d2 := d1.setPair p { d1.adcPair p with convs := x.convs.map (fun c => (c.1, { c.2 with dropped := true })), injects := [] }
  ((finishAll St.conflict lost d2).checkPairDrained p).takeCalInputs p

/-- `en` of a pair set (R358): firing resumes from the next frame strobe. -/
def Dev.pairOn (d : Dev) (p : Nat) : Dev :=
  let d1 := (d.setBitAt R.adcCtrl p true).setFld F.adcStat_drained (setBit (d.fld F.adcStat_drained) p false)
  d1.setPair p { d1.adcPair p with waitStrobe := true }

/-- ADC_PAIR_DISABLE (R358): refused while a running consumer uses the pair. -/
def execAdcPairDisable (p : Nat) (s : State) : Host.Outcome State Fault Refusal :=
  commitIf (okPair p) "pair" s (if s.dev.bitAt R.adcCtrl p && !s.dev.pairInUse p then s.dev.pairOff p else s.dev)

/-- ADC_PAIR_ENABLE (R358). -/
def execAdcPairEnable (p : Nat) (s : State) : Host.Outcome State Fault Refusal :=
  commitIf (okPair p) "pair" s (if s.dev.bitAt R.adcCtrl p then s.dev else s.dev.pairOn p)

end Sys2Proof.Machine
end

