-- ==== Sys2Proof/Machine/Dac.lean ====
section
/-! DEFINITION. The output channels (chapter 14): queues, sample ticks, enable and drain, span changes. -/

namespace Sys2Proof.Machine

/-- An output channel of the block. -/
def okDac (c : Nat) : Bool := decide (c < 16)

/-- A channel's state beside its registers. -/
def Dev.dacCh (d : Dev) (c : Nat) : DacCh := tget (fun _ => {}) d.dac.chans c
/-- A channel's state replaced; `q_level` follows its queue. -/
def Dev.setDac (d : Dev) (c : Nat) (x : DacCh) : Dev :=
  ({ d with dac := { d.dac with chans := tput (fun _ => {}) d.dac.chans c x } }).setFld (F.dacChStat_qLevel c) x.queue.length

/-- A channel's state (Table 14-2). -/
def Dev.cstate (d : Dev) (c : Nat) : Nat := d.fld (F.dacChStat_cstate c)

/-- A channel enters a state: DAC.STAT follows, event 0x0905. -/
def Dev.setCstate (d : Dev) (c st : Nat) : Dev :=
  let old := d.cstate c
  let d1 := (d.setFld (F.dacChStat_cstate c) st).setFld F.dacStat_notOff (setBit (d.fld F.dacStat_notOff) c (st ≠ 0))
  let d2 := d1.setDac c { d1.dacCh c with stateAt := d1.now }
  d2.event 0x0905 c (le 1 st ++ le 1 old)

/-- A code pushed into a channel's queue (R360): discarded where the queue is full or the channel is off. Answers whether
it was queued. -/
def Dev.pushDac (d : Dev) (c code : Nat) : Bool × Dev :=
  let x := d.dacCh c
  let st := d.cstate c
  if st = 0 ∨ 4 ≤ st then (false, (d.setFlag (F.dacChFlags_offWrite c) true).bumpSat (F.dacChCount_discarded c))
  else if 16 ≤ x.queue.length then (false, (d.setFlag (F.dacChFlags_qFull c) true).bumpSat (F.dacChCount_discarded c))
  else (true, (d.setFld (F.dacQueue_code c) code).setDac c { x with queue := x.queue ++ [code] })

/-- DAC_QUEUE_PUSH (R360): a write to DAC.QUEUE. -/
def execDacQueuePush (ch : Nat) (v : Word) (s : State) : Host.Outcome State Fault Refusal :=
  commitIf (okDac ch) "channel" s (s.dev.direct (fun d => (d.pushDac ch (v.toNat % 65536)).2))

/-- A channel's tick divider. -/
def Dev.dacDiv (d : Dev) (c : Nat) : Nat := max 16 (d.fld (F.dacChCfg_div c))

/-- A channel's first sample tick at or after `t` (R360): a count that is a multiple of 25 × `div`. -/
def Dev.dacTick (d : Dev) (c t : Nat) : Nat :=
  let m : Int := 500 * d.dacDiv c
  let o := d.twn.offset * 20
  ((-((-((max t (d.dacCh c).tickAt : Nat) + o)) / m)) * m - o).toNat

/-- A channel's level follows the code applied, corrected by the bank in force and for the temperature of the span references (R373, R441). -/
def Dev.driveDac (d : Dev) (c : Nat) : Dev :=
  d.setDac c { d.dacCh c with level := Config.dacLevel (d.bank.body 4 0) c (d.fld (F.dacChCfg_span c)) d.ths.comp.dacRef (d.fld (F.dacChStat_out c)) }

/-- A code applied now (R360, R361): the deglitcher holds where bits [15:12] change; a step waits for the end of a hold under way (R365).
Answers when the output starts to move. -/
def Dev.applyDac (d : Dev) (c code : Nat) : Nat × Dev :=
  let hold := decide (code / 4096 ≠ d.fld (F.dacChStat_out c) / 4096)
  let x := d.dacCh c
  let t := max d.now x.holdEnd
  let d1 := d.setFld (F.dacChStat_out c) code
  if hold then (t + 400 * tickNs, (d1.setDac c { x with holdEnd := t + 400 * tickNs }).driveDac c) else (t + 100 * tickNs, d1.driveDac c)

/-- The head of a channel's queue applied; the code stays where the queue is empty (R360), under the correction in force (R373). -/
def Dev.playDac (d : Dev) (c : Nat) : Dev :=
  let x := d.dacCh c
  match x.queue with
  | [] => d.driveDac c
  | v :: r =>
    let d1 := (d.setDac c { x with queue := r }).setFld (F.dacChCount_applied c) (d.fld (F.dacChCount_applied c) + 1)
    (d1.applyDac c v).2

/-- The span change of a channel that its sample ticks take part in: one that began with the channel off does not (R364). -/
def Dev.changeUnderWay (d : Dev) (c : Nat) : Option SpanChange := (d.dacCh c).change.filter (fun y => decide (y.phase ≠ 4))

/-- A sample tick of a channel (R360, R364). -/
def Dev.dacSample (d : Dev) (c : Nat) : Dev :=
  let t := d.dacTick c d.now
  let d1 := (d.advance t).setDac c { d.dacCh c with tickAt := t + 1 }
  let x := d1.dacCh c
  match d1.cstate c, d1.changeUnderWay c with
  | 2, none =>
    let d2 := match x.divDue with
      | some (n, oid) => ((d1.setFld (F.dacChCfg_div c) n).setDac c { x with divDue := none }).finish oid St.done []
      | none => d1
    d2.playDac c
  | 2, some y =>
    let (at_, d2) := d1.applyDac c 0
    let d3 := d2.setDac c { d2.dacCh c with change := some { y with phase := 1 }, safeAt := at_ }
    d3.setCstate c 3
  | 3, some y =>
    if y.phase = 2 then (d1.setDac c { x with change := some { y with phase := 3 } }).driveDac c
    else if y.phase = 3 then
      let d2 := ((d1.setDac c { x with change := none }).setFld (F.dacChCfg_div c) y.div).setCstate c 2
      ((d2.event 0x0904 c (le 1 y.span)).finish y.oid St.done []).playDac c
    else d1
  | _, _ => d1

/-- DAC_SAMPLE_TICK (R360): at the channel's next tick. A channel that is off has none. -/
def execDacSampleTick (ch : Nat) (s : State) : Host.Outcome State Fault Refusal :=
  commitIf (okDac ch) "channel" s (if s.dev.cstate ch = 2 ∨ s.dev.cstate ch = 3 then s.dev.dacSample ch else s.dev)

/-- DAC_ENABLE_SETTLE (R362): the first tick at least 10 µs after enabling applies the queue's head. -/
def execDacEnableSettle (ch : Nat) (s : State) : Host.Outcome State Fault Refusal :=
  commitIf (okDac ch) "channel" s (
    let d := s.dev
    if d.cstate ch = 1 then
      let t := d.dacTick ch ((d.dacCh ch).stateAt + 10 * tickUs)
      let d1 := (d.advance t).setDac ch { d.dacCh ch with tickAt := t + 1 }
      (d1.setCstate ch 2).playDac ch
    else d)

/-- The DAC_ENABLE disables whose channels have all drained complete (R363). -/
def checkDacDrains : List (Nat × Nat) → Dev → Dev
  | [], d => d
  | (oid, m) :: r, d =>
    if (bitsOf m 16).all (fun c => d.cstate c = 0) then
      checkDacDrains r (({ d with dac := { d.dac with drains := d.dac.drains.filter (fun e => e.1 ≠ oid) } }).finish oid St.done [])
    else checkDacDrains r d

/-- DAC_DRAIN_DONE (R363): 10 µs at the safe value. -/
def execDacDrainDone (ch : Nat) (s : State) : Host.Outcome State Fault Refusal :=
  commitIf (okDac ch) "channel" s (
    let d := s.dev
    if d.cstate ch = 4 then
      let d1 := (d.advance ((d.dacCh ch).safeAt + 10 * tickUs)).setCstate ch 0
      let d2 := d1.setFld F.dacStat_drained (setBit (d1.fld F.dacStat_drained) ch true)
      checkDacDrains d2.dac.drains d2
    else d)

/-- A channel disabled (R363): queue discarded, output to the safe value, state 4. Where a supply fails during a change of span (R443), the change is
given up and its command ends with REFUSED (DESIGN CHOICE, log entry 143). -/
def Dev.dacOff (d : Dev) (c : Nat) : Dev :=
  let x := d.dacCh c
  let d0 := match d.changeUnderWay c with
    | some y => (d.setDac c { x with change := none }).finish y.oid St.refused []
    | none => d
  match d.cstate c with
  | 1 | 3 => (d0.setDac c { d0.dacCh c with queue := [], safeAt := max d.now x.safeAt }).setCstate c 4
  | 2 =>
    let d1 := match x.divDue with
      | some (n, oid) => (d0.setFld (F.dacChCfg_div c) n).finish oid St.done []
      | none => d0
    let (at_, d2) := (d1.setDac c { d1.dacCh c with queue := [], divDue := none }).applyDac c 0
    (d2.setDac c { d2.dacCh c with safeAt := at_ }).setCstate c 4
  | _ => d

/-- A channel enabled (R362). -/
def Dev.dacOn (d : Dev) (c : Nat) : Dev :=
  let d1 := (d.setFld (F.dacChStat_out c) 0).setFld F.dacStat_drained (setBit (d.fld F.dacStat_drained) c false)
  ((d1.setDac c { d1.dacCh c with queue := [] }).driveDac c).setCstate c 1

/-- A span change is under way on a channel. -/
def Dev.spanChanging (d : Dev) (c : Nat) : Bool := (d.changeUnderWay c).isSome

/-- DAC_ENABLE (R362, R363). -/
def bodyDacEnable (d : Dev) (c : Call) : Dev × Verdict :=
  let b := c.packet.cmd.payload
  let m := rd b 0 2
  let chans := bitsOf m 16
  if 1 < rd b 2 1 ∨ rd b 3 1 ≠ 0 then refuse d St.badParam
  else if rd b 2 1 = 1 then
    if chans.any (fun i => d.cstate i ≠ 0) then refuse d St.conflict
    else (chans.foldl Dev.dacOn d, .final St.done [])
  else if chans.any (fun i => d.cstate i = 3 || (d.cstate i ≠ 0 && d.spanChanging i)) then refuse d St.conflict
  else
    let d1 := chans.foldl Dev.dacOff d
    if chans.all (fun i => d1.cstate i = 0) then (d1, .final St.done [])
    else ({ d1 with dac := { d1.dac with drains := d1.dac.drains ++ [(c.oid, m)] } }, .accepted [])

/-- DAC_CONFIG (Table 14-3, R364). -/
def bodyDacConfig (d : Dev) (c : Call) : Dev × Verdict :=
  let b := c.packet.cmd.payload
  let i := rd b 0 1
  let span := rd b 1 1
  let div := rd b 4 2
  let st := d.cstate i
  let x := d.dacCh i
  if 15 < i ∨ 3 < span ∨ 2 ≤ rd b 2 1 ∨ rd b 3 1 ≠ 0 ∨ div < 16 ∨ rd b 6 2 ≠ 0 then refuse d St.badParam
  else if st = 1 ∨ st = 3 ∨ st = 4 ∨ x.change.isSome ∨ x.divDue.isSome then refuse d St.conflict
  else if span = d.fld (F.dacChCfg_span i) then
    if st = 0 then ((d.setFld (F.dacChCfg_div i) div).finish c.oid St.done [], .accepted [])
    else (d.setDac i { x with divDue := some (div, c.oid) }, .accepted [])
  else
    let y : SpanChange := { span := span, div := div, oid := c.oid, phase := 0 }
    if st = 0 then
      let d1 := (d.setFld (F.dacChCfg_span i) span).setFld (F.dacChCfg_div i) div
      (d1.setDac i { x with change := some { y with phase := 4, at_ := d.now } }, .accepted [])
    else (d.setDac i { x with change := some y, queue := if bit (rd b 2 1) 0 then [] else x.queue }, .accepted [])

/-- DAC_SPAN_RELAY_SETTLE (R364): the relay switches 1 µs after the output has reached the safe value and settles for
250 µs; on a channel that was off it has switched at once. -/
def execDacSpanRelaySettle (ch : Nat) (s : State) : Host.Outcome State Fault Refusal :=
  commitIf (okDac ch) "channel" s (
    let d := s.dev
    let x := d.dacCh ch
    match x.change with
    | some y =>
      if y.phase = 4 then
        (((d.advance (y.at_ + 250 * tickUs)).setDac ch { x with change := none }).event 0x0904 ch (le 1 y.span)).finish y.oid St.done []
      else if y.phase ≠ 1 then d
      else
        let d1 := (d.advance (x.safeAt + 251 * tickUs)).setFld (F.dacChCfg_span ch) y.span
        d1.setDac ch { x with change := some { y with phase := 2 } }
    | none => d)

end Sys2Proof.Machine
end

