-- ==== Sys2Proof/Machine/Trn.lean ====
section
/-! DEFINITION. The transition engine's writes and events (chapter 06): grants, starts, segment ends, stalls, the shaping
store, and its enable. -/

namespace Sys2Proof.Machine

/-- A sluice of the block. -/
def okSluice (s : Nat) : Bool := decide (s < 64)

/-! ### Bracket windows (R229) -/

/-- Every switch cell and VOA of a link has its first segments of a bracket complete. -/
def Dev.bracketResident (d : Dev) (l b : Nat) : Bool :=
  (d.rtp.map.elems.filter (fun x => linkOf x.1 = l && (x.2.kind = 1 || x.2.kind = 2))).all (fun x =>
    (d.shapeDesc x.1 b true).isSome && (d.shapeDesc x.1 b false).isSome)

/-- The link has a switch cell or a VOA. -/
def Dev.linkShaped (d : Dev) (l : Nat) : Bool := d.rtp.map.elems.any (fun x => linkOf x.1 = l && (x.2.kind = 1 || x.2.kind = 2))

/-- Brackets resident on a link. -/
def Dev.windowOf (d : Dev) (l : Nat) : List Nat := if d.linkShaped l then (List.range 16).filter (d.bracketResident l) else []

/-! ### TRN.CTRL -/

/-- `en` cleared (Table 6-4): `trn` clears, running sluices stop and their moves complete late; fired moves of which
nothing has started complete with REFUSED. -/
def Dev.trnOff (d : Dev) : Dev :=
  let d1 := (d.setFlag F.trnCtrl_en false).setFlag F.cpxReady1_trn false
  let idle := d1.rtp.moves.filter (fun m => m.fire.isSome && !m.deferred && m.elems.all (fun x => !x.started) && !m.elems.isEmpty)
  let d2 := idle.foldl (fun d m => d.withdrawMove m St.refused) d1
  (((d2.stopAllSluices false true).withdrawWaiting false true).updateTrnDrained).recheckCalendar

/-- `en` set. -/
def Dev.trnOn (d : Dev) : Dev :=
  ((d.setFlag F.trnCtrl_en true).setFlag F.cpxReady1_trn (d.flag F.cpxReady1_trn || d.flag F.cpxReady1_boot)).updateTrnDrained

/-- TRN_DISABLE (R160). -/
def execTrnDisable (s : State) : Host.Outcome State Fault Refusal := commit s (if s.dev.flag F.trnCtrl_en then s.dev.trnOff else s.dev)

/-- TRN_ENABLE (R160). -/
def execTrnEnable (s : State) : Host.Outcome State Fault Refusal := commit s (if s.dev.flag F.trnCtrl_en then s.dev else s.dev.trnOn)

/-- RAKE_ADMISSION_SET (R155). -/
def execRakeAdmissionSet (en : Bool) (s : State) : Host.Outcome State Fault Refusal := commit s (s.dev.setFlag F.trnCtrl_rakeEn en)

/-! ### Grants -/

/-- A class 0 element waits, on link `l` where one is given. -/
def Dev.deadlineWaits (d : Dev) (l : Option Nat) : Bool :=
  d.waitingElems.any (fun w => w.1 = 0 && (match l with | some l => linkOf w.2.2.2.2.1 = l | none => true))

/-- Work stopped for a deadline (R155): a rake on a full link on which a class 0 element waits, and a class 1 transition
that stands stalled. -/
def Dev.preemptFor (d : Dev) (s : Nat) : Dev :=
  match (d.sluice s).cur with
  | none => d
  | some g =>
    if g.klass = 2 ∧ !(d.sluice s).stop ∧ d.deadlineWaits (some g.link) ∧ 4 ≤ d.linkCount g.link d.now then
      (d.stopSluice s none).setFlag (F.trnSlFlags_preempted s) true
    else if g.klass = 1 ∧ (d.sluice s).stalledAt.isSome ∧ d.deadlineWaits none then
      let d1 := match g.oid with
        | some o => (match d.findMove o with | some m => d.setMove { m with late := true } | none => d)
        | none => d
      d1.endTransition s (d.sluice s).lastCode
    else d

/-- Waiting elements whose first segment is not complete, each counted once (R230). -/
def Dev.countMisses (d : Dev) : Dev :=
  let miss := d.waitingElems.filter (fun w => (d.moveShape w.2.2.2.2.2 w.2.2.2.2.1).isNone)
  miss.foldl (fun d w => match d.findMove w.2.2.2.2.2 with
    | some m => if m.elems.any (fun x => x.el = w.2.2.2.2.1 && !x.missed) then
        (d.setMove { m with elems := m.elems.map (fun x => if x.el = w.2.2.2.2.1 then { x with missed := true } else x) }).bump R.plmPrefetchMiss
      else d
    | none => d) d

/-- SLUICE_GRANT (R154, R155): at the next sample boundary. -/
def execSluiceGrant (s : State) : Host.Outcome State Fault Refusal :=
  commit s (
    let d := s.dev.advance (sampleAt s.dev.shift s.dev.now)
    let d1 := (sluiceNumbers.foldl Dev.preemptFor d).countMisses
    d1.grantNow)

/-! ### Playing -/

/-- The segment with which a granted element begins, and the samples of the shape it plays (R140): those of the bank in force, or of the bank
before a switch that came after the grant (R373). A rake or step plays what its segments hold. -/
def Dev.startShape (d : Dev) (g : Grant) : Nat × List Nat :=
  match g.oid with
  | none => (g.desc, [])
  | some o =>
    let n := if g.kept = [] then (d.moveShape o g.el).getD g.desc else g.desc
    match d.segDesc n with
    | some y => (n, if g.kept = [] then d.bank.library y.tag.el y.tag.bracket y.tag.rise else g.kept)
    | none => (n, g.kept)

/-- SLUICE_START (R140, R143, R145): the granted element begins at its start instant, from the code in force. What was due to go out for
it does not (R21). One that its move has taken out of economy begins from code 0 (R28). -/
def Dev.startSluice (d : Dev) (s : Nat) : Dev :=
  let x := d.sluice s
  match x.cur, x.next with
  | none, some g =>
    let d1 := d.advance g.startAt
    let c0 := d1.codeInForce g.el
    let (desc, shape) := d1.startShape g
    let (c1, d2) := match g.oid with
      | some o => ((d1.targetCode o g.el).1, d1)
      | none => if g.rake then (0, d1) else d1.beginStep g.el c0 g.startAt
    let tag := match d2.segDesc desc with | some y => y.tag | none => {}
    let d3 := d2.setSluice s { cur := some g, desc := desc, passAt := g.startAt, c0 := c0, c1 := c1, lastCode := c0, ended := x.ended,
                               shape := shape, tag := tag }
    let y := d3.loop g.el
    let d4 := ((d3.dropCode g.el).setLoop g.el { y with inSluice := true, code := c0, susp := { y.susp with waits := false } }).showSluice s 3
    let d5 := (d4.setFld (F.trnSlPos_desc s) desc).setFld (F.trnSlPos_sample s) 0
    let d6 := { d5 with trn := { d5.trn with fast := adel d5.trn.fast g.el } }
    let d7 := match g.oid with | some o => d6.movePhase o g.el 2 true | none => d6
    d7.sendPass s
  | _, _ => d

/-- SLUICE_START (R145). -/
def execSluiceStart (sl : Nat) (s : State) : Host.Outcome State Fault Refusal := commitIf (okSluice sl) "sluice" s (s.dev.startSluice sl)

/-- A rake's segment that its sluice leaves is refilled before it plays again: it is complete no longer (R151). -/
def Dev.leaveRing (d : Dev) (s desc : Nat) : Dev :=
  let x := d.sluice s
  let rake := match x.cur with | some g => g.rake | none => false
  if rake && decide (x.desc ≠ desc) then
    { d with trn := { d.trn with descs := d.trn.descs.map (fun y => if y.1 = x.desc then (y.1, { y.2 with complete := false }) else y) } }
  else d

/-- The sluice goes on with a segment from instant `t`. -/
def Dev.playFrom (d : Dev) (s desc t passes : Nat) : Dev :=
  let d0 := d.leaveRing s desc
  let x := d0.sluice s
  let tag := match d0.segDesc desc with | some y => y.tag | none => x.tag
  let d1 := d0.setSluice s { x with desc := desc, passAt := t, passes := passes, stalledAt := none, tag := tag }
  ((d1.setFld (F.trnSlPos_desc s) desc).setFld (F.trnSlPos_sample s) 0).sendPass s

/-- The segment that a sluice must play next, at descriptor `desc`, is complete (R151): the next part of the shape in play, or a segment of
the rake. -/
def Dev.segReady (d : Dev) (s desc : Nat) : Bool :=
  let x := d.sluice s
  match d.segDesc desc with
  | some y => y.complete && decide (y.tag.el = x.tag.el) && decide (y.tag.bracket = x.tag.bracket) &&
      (x.shape.isEmpty || (decide (y.tag.rise = x.tag.rise) && decide (y.tag.part = x.tag.part)))
  | none => false

/-- The sluice stalls before segment `desc` (R151, R153). -/
def Dev.stallSluice (d : Dev) (s desc code : Nat) : Dev :=
  let d0 := d.leaveRing s desc
  let x := d0.sluice s
  let rake := match x.cur with | some g => g.oid.isNone | none => false
  let d1 := d0.setSluice s { x with desc := desc, stalledAt := some d.now, lastCode := code, invalid := x.invalid || rake }
  ((d1.setFld (F.trnSlState_state s) 4).setFlag (F.trnSlFlags_stall s) true).bump R.trnStallCount

/-- A segment followed by another: played where it is complete, stalled before where it is not. -/
def Dev.goTo (d : Dev) (s desc code : Nat) : Dev :=
  let x := d.sluice s
  let d1 := if x.shape.isEmpty then d else d.setSluice s { x with tag := { x.tag with part := x.tag.part + 1 } }
  if d1.segReady s desc then d1.playFrom s desc d.now 0 else d1.stallSluice s desc code

/-- A jump registered on a rake at instant `t`; it replaces one that has not taken effect yet (R149). -/
def Dev.registerJump (d : Dev) (s t : Nat) : Dev :=
  let x := d.sluice s
  match x.cur with
  | some g => if g.rake then d.setSluice s { x with jump := some t } else d
  | none => d

/-- What follows a segment at its end, with no stop (R146, R149): a jump registered by the decision point, two samples before; otherwise the
next repeat, the next segment, or the end. A jump registered later waits for the next segment end. -/
def Dev.afterSegment (d : Dev) (s el code : Nat) (y : SegDesc) : Dev :=
  let x := d.sluice s
  let again := y.rep = 255 || decide (x.passes < y.rep)
  let onward := fun (d : Dev) =>
    if again then d.playFrom s x.desc d.now (x.passes + 1)
    else if y.last then d.endTransition s code
    else d.goTo s y.next code
  match x.jump with
  | some t =>
    if t + tickRearm ≤ d.now then (d.setSluice s { x with jump := none }).goTo s y.jump code
    else onward (((d.setFlag (F.trnSlFlags_lateJump s) true).bump R.trnLatejumpCount).event 0x0304 s (le 2 el))
  | none => onward d

/-- The end of a segment (R146, R149 to R151): a stop ends the transition. `jump`: a jump has been registered so many samples before the
end. -/
def Dev.segmentEnd (d : Dev) (s : Nat) (jump : Option Nat) : Dev :=
  let x := d.sluice s
  match x.cur, d.segDesc x.desc with
  | some g, some y =>
    if x.stalledAt.isSome then d
    else
      let d1 := d.advance (d.passEnd s)
      let d2 := match jump with | some n => d1.registerJump s (d.passEnd s - n * tickSample) | none => d1
      let code := d2.lastCode s
      let d3 := d2.setSluice s { d2.sluice s with lastCode := code }
      if x.stop then d3.endTransition s (x.stopCode.getD code)
      else d3.afterSegment s g.el code y
  | _, _ => d

/-- SEGMENT_END (R146, R149, R150, R151). -/
def execSegmentEnd (e : SluiceEnd) (s : State) : Host.Outcome State Fault Refusal :=
  commitIf (okSluice e.sluice) "sluice" s (s.dev.segmentEnd e.sluice e.jump)

/-- SLUICE_REARM_END (R146): the sluice is free, or leads to the element granted in advance. -/
def execSluiceRearmEnd (sl : Nat) (s : State) : Host.Outcome State Fault Refusal :=
  commitIf (okSluice sl) "sluice" s (
    let d := s.dev
    let x := d.sluice sl
    if d.fld (F.trnSlState_state sl) = 1 then
      ((d.advance x.freeAt).showSluice sl (if x.next.isSome then 2 else 0)).updateTrnDrained
    else d)

/-- STALL_ABANDON (R152): 4 µs after the stall began. A rake is not abandoned (R153). -/
def execStallAbandon (sl : Nat) (s : State) : Host.Outcome State Fault Refusal :=
  commitIf (okSluice sl) "sluice" s (
    let d := s.dev
    let x := d.sluice sl
    match x.stalledAt, x.cur with
    | some t, some g =>
      if g.oid.isSome then (((d.advance (t + 4 * tickUs)).abandonTransition sl).raise 309).recheckCalendar else d
    | _, _ => d)

/-! ### The shaping store -/

/-- Sluices that stand before segment `n` resume on the next sample boundary (R151): event 0x0302. -/
def Dev.resumeSluices (d : Dev) (n : Nat) : Dev :=
  sluiceNumbers.foldl (fun d s =>
    let x := d.sluice s
    match x.cur, x.stalledAt with
    | some g, some t =>
      if x.desc = n && d.segReady s n then
        let at_ := sampleAt d.shift (d.now + 1)
        ((d.playFrom s n at_ 0).setFld (F.trnSlState_state s) (if x.stop then 5 else 3)).event 0x0302 s
          (le 2 g.el ++ le 4 ((at_ - t) / tickNs))
      else d
    | _, _ => d) d

/-- How far a rake's sweep has been written: its codes, 256 in all (R379). -/
def Dev.noteSweep (d : Dev) (w : SegWrite) : Dev :=
  match w.source with
  | .sweep el first _ _ codes =>
    let pos := if first then 0 else tget (fun _ => 0) d.trn.sweeps el
    if w.complete then { d with trn := { d.trn with sweeps := tput (fun _ => 0) d.trn.sweeps el (min 256 (pos + codes.length)) } } else d
  | _ => d

/-- A window that has found no space holds fewer than three brackets (R229, event 0x0505). -/
def Dev.shortWindow (d : Dev) (w : SegWrite) : Dev :=
  match w.source with
  | .library el _ _ 0 => let n := (d.windowOf (linkOf el)).length; if n < 3 then d.event 0x0505 (linkOf el) (le 1 n) else d
  | _ => d

/-- A shaping-store write (R142, R144). One that names a part which no shape of the library has is refused as of no legal length. -/
def Dev.segmentWrite (d : Dev) (w : SegWrite) : Dev :=
  match d.segContent w with
  | none => d.bumpSat F.trnWrRefused_segLen
  | some (tag, rep, jump, last, samples) =>
    let len := (samples.length + 7) / 8
    let d := if decide (d.segStatus w tag len = 3) && decide (tag.bracket < 16) && decide (tag.part = 0) && decide ((d.makeRoom tag).segStatus w tag len = 0)
      then d.makeRoom tag else d
    match d.segStatus w tag len with
    | 0 =>
      let x : SegDesc := { base := w.base, len := len, rep := rep, next := w.next, jump := jump, last := last, complete := w.complete, tag := tag }
      let d1 := (d.putSegment w.desc x samples).noteSweep w
      if w.complete then d1.resumeSluices w.desc else d1
    | 1 => d.bumpSat F.trnWrRefused_segActive
    | 3 => (d.bumpSat F.trnWrRefused_segLen).shortWindow w
    | _ => d.bumpSat F.trnWrRefused_segLen

/-- SEGMENT_WRITE (R144). -/
def execSegmentWrite (w : SegWrite) (s : State) : Host.Outcome State Fault Refusal := commit s (s.dev.segmentWrite w)

/-! ### Hand-back -/

/-- The mean of the last 8 fast-mode tap samples of an element, newest first (R148). -/
def Dev.fastMean (d : Dev) (el : Nat) : Option (Nat × Nat) :=
  match aget d.trn.fast el with
  | some (x :: l) =>
    let m := (x :: l).take 8
    some ((m.foldl (fun a t => a + t.1) 0) / m.length, (m.foldl (fun a t => a + t.2) 0) / m.length)
  | _ => none

/-- The error of an element's law at the raw tap samples `ab` (Table 7-6): of an owner law, v28 of a run on them with its states at 0. -/
def Dev.lawError (d : Dev) (el : Nat) (ab : Nat × Nat) : Frac :=
  match (d.loop el).slot with
  | 0 => (d.law0At el ab).err
  | 1 => (d.law1 el).err
  | 2 | 0xFF => Frac.zero
  | n =>
    let d1 := { d with lpc := { d.lpc with samples := tput (fun _ => (0, 0)) d.lpc.samples (2 * el + d.bufferOf el) ab } }
    let m := d1.ownerRun n (some el :: List.replicate 15 none) (List.replicate 16 (some Frac.zero))
    asCoef ((m.reg 28).vals[0]?.getD Frac.zero)

/-- The target of an element's law (R175, R176). -/
def Dev.lawTarget (d : Dev) (el : Nat) : Frac := if d.rtp.map.kind el = 1 then (d.law0 el).target else (d.law1 el).target

/-- Hand-back outside the crosstalk target (R148): flagged, counted, event 0x0307, source 308, and a rake queued. -/
def Dev.settleMissed (d : Dev) (s el : Nat) (ab : Nat × Nat) : Dev :=
  if Config.settleMiss el ab.1 ab.2 (d.lawTarget el) then
    let d1 := ((d.setFlag (F.trnSlFlags_settleMiss s) true).bump R.trnSettleMiss).event 0x0307 s (le 2 el)
    (d1.flagElement el 2).raise 308
  else d

/-- An element that a sluice has ended, handed back at this strobe with its new setting (R21, R146, R148). -/
def Dev.handBackElem (d : Dev) (s el : Nat) : Dev :=
  let oid := (d.rtp.moves.find? (fun m => m.elems.any (fun y => y.el = el && y.phase = 3))).map (fun m => m.oid)
  let d1 := match oid with | some o => d.takeSetting o el | none => d
  let mean := d1.fastMean el
  let d2 := match oid, mean with | some _, some ab => d1.settleMissed s el ab | _, _ => d1
  d2.handBack oid el (d2.loop el).code (mean.map (d2.lawError el))

/-- The elements that a sluice has ended since the last strobe, handed back in the order of their ends (R21). -/
def Dev.handBackSluice (d : Dev) (s : Nat) : Dev :=
  let x := d.sluice s
  x.ended.foldl (fun d el => d.handBackElem s el) (if x.ended = [] then d else d.setSluice s { x with ended := [] })

/-- Every hand-back due at this strobe; where a move completes by it, the calendar is checked again (R158). -/
def Dev.handBacks (d : Dev) : Dev :=
  let d1 := sluiceNumbers.foldl Dev.handBackSluice d
  if d1.rtp.moves.length < d.rtp.moves.length then d1.recheckCalendar else d1

end Sys2Proof.Machine
end

