-- ==== Sys2Proof/Machine/PlmOps.lean ====
section
/-! DEFINITION. The placement manager (chapter 09): where a loop is evaluated (R218 to R220, R224), residence and its
restores (R225 to R228), and the readings of chapter 09's registers. -/

namespace Sys2Proof.Machine

/-- Blocks of an engine's placement list (R181). -/
def Dev.blocks (d : Dev) (e : Nat) : List LpcBlock := tget (fun _ => []) d.lpc.blocks e
/-- An engine's placement list replaced. -/
def Dev.setBlocks (d : Dev) (e : Nat) (l : List LpcBlock) : Dev :=
  { d with lpc := { d.lpc with blocks := tput (fun _ => []) d.lpc.blocks e l } }

/-- Engines of the cluster (R161). -/
def engines : List Nat := List.range 16

/-- Block cost of a law slot (R205). -/
def Dev.slotCost (d : Dev) (slot : Nat) : Nat := d.fld (F.lpcSlotCost_cost slot)

/-- Placed cost of an engine in cycles per frame. -/
def Dev.engCost (d : Dev) (e : Nat) : Nat := ((d.blocks e).map (fun b => d.slotCost b.slot)).foldl (· + ·) 0

/-- An engine may take hold blocks: enabled, running, not reserved (R164, R218). -/
def Dev.engTakes (d : Dev) (e : Nat) : Bool :=
  d.bitAt R.lpcEngEn e && d.fld (F.lpcEngStat_state e) = 2 && !(decide (14 ≤ e) && d.flag F.lpcPowerCfg_reserve)

/-- An engine of the hold set (R219). -/
def Dev.inHoldSet (d : Dev) (e : Nat) : Bool := bit (d.fld F.plmHoldSet_hold) e

/-- An engine has room for a block of a slot (R163). -/
def Dev.engRoom (d : Dev) (e slot : Nat) : Bool :=
  d.engTakes e && decide (d.engCost e + d.slotCost slot ≤ 1100) && decide ((d.blocks e).length < 68)

/-- The engine that a new block of a slot goes to (R219, R220). -/
def Dev.bestEngine (d : Dev) (slot : Nat) (but : Nat) : Option Nat :=
  let pick := fun (l : List Nat) => l.foldl (fun best e => match best with
    | none => some e
    | some b => if d.engCost e < d.engCost b then some e else some b) none
  let can := engines.filter (fun e => e ≠ but && d.engRoom e slot)
  match pick (can.filter d.inHoldSet) with
  | some e => some e
  | none => pick (can.filter (fun e => !d.inHoldSet e))

/-- A block put on an engine. -/
def Dev.addBlock (d : Dev) (e : Nat) (b : LpcBlock) : Dev := d.setBlocks e (d.blocks e ++ [b])

/-- A block placed under R220, not on engine `but`; none where no engine has room. -/
def Dev.placeBlock (d : Dev) (b : LpcBlock) (but : Nat := 16) : Option Dev := (d.bestEngine b.slot but).map (fun e => d.addBlock e b)

/-- The loops of a block. -/
def LpcBlock.loops (b : LpcBlock) : List Nat := b.lanes.filterMap id

/-- Where a loop is evaluated: engine, block and lane. -/
def Dev.placeOf (d : Dev) (el : Nat) : Option (Nat × Nat × Nat) :=
  engines.findSome? (fun e => (d.blocks e).zipIdx.findSome? (fun b => (b.1.lanes.zipIdx.find? (fun l => l.1 = some el)).map (fun l => (e, b.2, l.2))))

/-- A loop taken out of its block; a block left empty goes, unless steps are prepared (R223). -/
def Dev.unplaceLoop (d : Dev) (el : Nat) : Dev :=
  match d.placeOf el with
  | none => d
  | some (e, _, _) =>
    let l := (d.blocks e).map (fun b => { b with lanes := b.lanes.map (fun x => if x = some el then none else x) })
    d.setBlocks e (if d.plm.steps = [] then l.filter (fun b => b.loops ≠ []) else l)

/-- A loop put in the first empty lane of a block. -/
def LpcBlock.add (b : LpcBlock) (el : Nat) : LpcBlock :=
  let rec go : List (Option Nat) → List (Option Nat)
    | [] => [some el]
    | none :: r => some el :: r
    | some x :: r => some x :: go r
  { b with lanes := go b.lanes }

/-- A block can take another loop. -/
def LpcBlock.hasRoom (b : LpcBlock) : Bool := decide (b.loops.length < 16)

/-- A loop put in block `i` of engine `e`. -/
def Dev.joinBlock (d : Dev) (e i el : Nat) : Dev :=
  d.setBlocks e ((d.blocks e).zipIdx.map (fun x => if x.2 = i then x.1.add el else x.1))

/-- Key exponent of a loop: the largest own exponent of its error over its last 64 evaluations. -/
def Dev.keyExp (d : Dev) (el : Nat) : Int := match (d.loop el).exps with | [] => -128 | a :: r => r.foldl max a

/-- The spread of a group of loops. -/
def Dev.spread (d : Dev) (l : List Nat) : Nat :=
  match l.map d.keyExp with
  | [] => 0
  | a :: r => (r.foldl max a - r.foldl min a).toNat

/-- A group of loops fits one block (R221). -/
def Dev.fits (d : Dev) (l : List Nat) : Bool := decide (d.spread l ≤ d.fld F.plmCfg_spreadMax)

/-- A loop that is not in a block has been unplaced, with its cause: 1 budget, 2 residence (R224, R228). -/
def Dev.markUnplaced (d : Dev) (el cause : Nat) : Dev :=
  if d.plm.unplaced.any (fun x => x.1 = el) then d
  else ({ d with plm := { d.plm with unplaced := d.plm.unplaced ++ [(el, cause)] } }.event 0x0503 el (le 1 cause)).raiseLevel 296

/-- A loop is placed again. -/
def Dev.unmarkUnplaced (d : Dev) (el : Nat) : Dev :=
  let l := d.plm.unplaced.filter (fun x => x.1 ≠ el)
  let d1 := { d with plm := { d.plm with unplaced := l } }
  if l = [] ∧ d.plm.unplaced ≠ [] then d1.clearLevel 296 else d1

/-- A loop placed: in the first block of its slot, by engine and index, with an empty lane in which it fits; otherwise in
a new block (R220, R227). -/
def Dev.placeLoop (d : Dev) (el : Nat) : Dev :=
  let slot := (d.loop el).slot
  if slot = 0xFF ∨ (d.placeOf el).isSome then d else
  let spot := engines.findSome? (fun e => if !d.engTakes e then none else
    ((d.blocks e).zipIdx.find? (fun b => b.1.slot = slot && b.1.hasRoom && d.fits (el :: b.1.loops))).map (fun b => (e, b.2)))
  match spot with
  | some (e, i) => (d.joinBlock e i el).unmarkUnplaced el
  | none => match d.placeBlock ⟨slot, [some el], 0⟩ with
    | some d1 => d1.unmarkUnplaced el
    | none => d.markUnplaced el 1

/-- The class of a block in R224: live circuits first, then trimmers, then all others. -/
def Dev.blockClass (d : Dev) (b : LpcBlock) : Nat :=
  let live := d.rtp.circuits.filter (fun x => x.2.state = 2)
  if b.loops.any (fun e => live.any (fun x => (d.circuitElems x.2).contains e)) then 0
  else if b.loops.any (fun e => d.rtp.map.kind e = 3) then 1 else 2

/-- Blocks in the order of R224. -/
def Dev.rankBlocks (d : Dev) (l : List LpcBlock) : List LpcBlock :=
  let key := fun (b : LpcBlock) => [d.blockClass b, d.slotCost b.slot]
  let ins := fun (acc : List LpcBlock) b => acc.filter (fun x => !lexLt (key b) (key x)) ++ b :: acc.filter (fun x => lexLt (key b) (key x))
  l.foldl ins []

/-- Blocks placed one after another; those that no engine takes are unplaced. -/
def placeAll : List LpcBlock → Dev → Dev
  | [], d => d
  | b :: r, d => match d.placeBlock b with
    | some d1 => placeAll r (b.loops.foldl Dev.unmarkUnplaced d1)
    | none => placeAll r (b.loops.foldl (fun d e => d.markUnplaced e 1) d)

/-- The room left on the engines takes every block. -/
def Dev.allFit (d : Dev) : List LpcBlock → Bool
  | [] => true
  | b :: r => match d.placeBlock b with | some d1 => d1.allFit r | none => false

/-- Blocks placed, in the order of R224 where there is no room for all. -/
def Dev.placeBlocks (d : Dev) (l : List LpcBlock) : Dev := placeAll (if d.allFit l then l else d.rankBlocks l) d

/-- A list in groups of 16. -/
def chunks : Nat → List Nat → List (List Nat)
  | 0, _ => []
  | _ + 1, [] => []
  | n + 1, l => l.take 16 :: chunks n (l.drop 16)

/-- The drive elements of the map, ascending. -/
def Dev.driveElems (d : Dev) : List Nat := (d.rtp.map.elems.filter (fun x => decide (1 ≤ x.2.kind) && decide (x.2.kind ≤ 3))).map (fun x => x.1)

/-- The loops of the map that are bound and resident. -/
def Dev.residentLoops (d : Dev) : List Nat := d.driveElems.filter (fun e => (d.loop e).slot ≠ 0xFF && !(d.loop e).evicted)

/-- Every loop gathered into blocks by slot, link and element, and placed (R220). The loop-state pool takes 5632 loops
(R225); those beyond it begin evicted. -/
def Dev.gatherLoops (d : Dev) : Dev :=
  let past := d.residentLoops.drop 5632
  let d1 := past.foldl (fun d e => d.setLoop e { d.loop e with evicted := true }) d
  let d2 := { d1 with lpc := { d1.lpc with blocks := [] }, plm := { d1.plm with steps := [], repairs := [], unplaced := [] } }
  let slots := (List.range 64).flatMap (fun s => let l := d2.residentLoops.filter (fun e => (d2.loop e).slot = s)
    (chunks l.length l).map (fun c => (⟨s, c.map some, 0⟩ : LpcBlock)))
  d2.placeBlocks slots

/-- Loops bound on a map load (R190): each starts from the code last read back or sent. -/
def Dev.bindMap (d : Dev) : Dev :=
  let d0 := { d with lpc := { d.lpc with loops := d.lpc.loops.map (fun (x : Nat × Loop) => (x.1, { x.2 with slot := 0xFF })) } }
  let d1 := d.driveElems.foldl (fun d e =>
    let k := d.rtp.map.kind e - 1
    d.setLoop e { slot := k, set := k, code := (d.loop e).code, start := some ⟨(d.loop e).code, none⟩ }) d0
  (({ d1 with plm := { d1.plm with pins := [], hints := [], restores := [] } }).gatherLoops).parkIdle

/-! ### Residence -/

/-- A loop is pinned. -/
def Dev.pinned (d : Dev) (el : Nat) : Bool := d.plm.pins.any (fun p => p.el = el)

/-- A hint of an element (Table 9-3); 0 for none. -/
def Dev.hint (d : Dev) (el : Nat) : Nat := tget (fun _ => 0) d.plm.hints el

/-- A loop is evictable (R225). -/
def Dev.evictable (d : Dev) (el : Nat) : Bool :=
  let x := d.loop el
  let frames := if d.hint el = 3 then 40 else d.fld F.plmEvictCfg_evictFrames
  let traced := d.fld F.lpcTraceStat_tstate ≠ 0 && d.fld F.lpcTraceStat_tstate ≠ 3 && d.lpc.trace.signals.any (fun t => t.source = el)
  (d.rtp.map.kind el = 1 || d.rtp.map.kind el = 2) && !x.evicted && x.slot ≠ 0xFF &&
    (match x.darkFrom with | some t => decide (t + frames * tickFrame ≤ d.now) | none => false) &&
    !d.inSluice el && !d.claimed el && !x.susp.blanked && !d.pinned el && d.hint el ≠ 2 && !traced

/-- A loop's record moved to DDR5 (R225, R226). -/
def Dev.evict (d : Dev) (el : Nat) : Dev :=
  ((d.unplaceLoop el).setLoop el { (d.unplaceLoop el).loop el with evicted := true }).bump R.plmEvictCount

/-- The evictable loop that has been dark longest, ties to the higher element (R228). -/
def Dev.darkest (d : Dev) : Option Nat :=
  (d.residentLoops.filter d.evictable).foldl (fun best e => match best with
    | none => some e
    | some b => if ((d.loop b).darkFrom.getD 0) < ((d.loop e).darkFrom.getD 0) then some b else some e) none

/-- An evicted loop restored and placed (R227, R228), with the start of the LOOP_BIND row of Table 7-6. -/
def Dev.restoreLoop (d : Dev) (el : Nat) : Dev :=
  let x := d.loop el
  if !x.evicted then d else
  let full := decide (5632 ≤ d.residentLoops.length)
  match (if full then d.darkest else some el) with
  | none => d.markUnplaced el 2
  | some v =>
    let d1 := if full then d.evict v else d
    let d2 := d1.setLoop el { x with evicted := false, start := some (x.start.getD ⟨x.code, some x.eLast⟩) }
    let d3 := ({ d2 with plm := { d2.plm with restores := d2.plm.restores.filter (fun r => r.1 ≠ el) } }).bump R.plmRestoreCount
    d3.placeLoop el

/-- The loops that a plan changes or passes through restored at once; none where one cannot be resident (R227, R228). -/
def Dev.restoreFor (d : Dev) (els : List Nat) : Option Dev :=
  let d1 := els.foldl Dev.restoreLoop d
  if els.all (fun e => !(d1.loop e).evicted) then some d1 else none

end Sys2Proof.Machine
end

