-- ==== Sys2Proof/Machine/LpcEval.lean ====
section
/-! DEFINITION. The evaluation of blocks in a frame (R19, R179 to R182), the code records (R20, R250), and the trace's
records (R193, R194). -/

namespace Sys2Proof.Machine

/-! ### Readiness -/

/-- A loop is evaluated in this frame: dark-path loops are halved in economy mode (R26, R182). -/
def Dev.halved (d : Dev) (el : Nat) : Bool :=
  d.economy && d.flag F.thsEconCtrl_halveDark && d.darkPath el && decide (d.frame % 2 = 1)

/-- A link has delivered the frame's samples (R251). -/
def Dev.linkHere (d : Dev) (l : Nat) : Bool := (d.elink l).ready

/-- The samples of an element have come in for this frame: its link is ready, and the part that carries it was not lost (R251). -/
def Dev.tapHere (d : Dev) (e : Nat) : Bool := d.linkHere (linkOf e) && !bit (d.elink (linkOf e)).lostParts (partOf e)

/-- A lane is masked (R19, R251, R452): samples that feed it have not come in, or its record could not be read. -/
def Dev.laneMasked (d : Dev) (el : Nat) : Bool := !(d.feedTaps el).all d.tapHere || decide ((d.loop el).maskAt = some d.frame)

/-- A block is ready (R162). -/
def Dev.blockReady (d : Dev) (b : LpcBlock) : Bool := b.loops.all (fun e => (d.feedLinks e).all d.linkHere)

/-- A block has ended in this frame. -/
def Dev.blockEnded (d : Dev) (b : LpcBlock) : Bool := b.ended = d.frame + 1

/-- Every block of the cluster has ended in this frame. -/
def Dev.allEnded (d : Dev) : Bool := engines.all (fun e => (d.blocks e).all d.blockEnded)

/-- The blocks of an engine's list, by index, that wait in this frame. -/
def Dev.waitingBlocks (d : Dev) (e : Nat) : List Nat :=
  ((d.blocks e).zipIdx.filter (fun b => !d.blockEnded b.1)).map (fun b => b.2)

/-- The block that an engine takes next: the first ready one of its list that has not ended (R181). -/
def Dev.nextBlock (d : Dev) (e : Nat) : Option Nat :=
  (d.waitingBlocks e).find? (fun b => match (d.blocks e)[b]? with | some x => d.blockReady x | none => false)

/-- The tick that lies `ns` nanoseconds after the frame strobe. -/
def Dev.intoFrame (d : Dev) (ns : Nat) : Nat := d.lpc.strobeAt + ns * tickNs

/-! ### Code records -/

/-- The channel group of a drive element: its link and ⌊channel / 16⌋. -/
def groupOf (el : Nat) : Nat := el / 16

/-- The codes due of some groups of a link sent in one CODES record (Table 10-3): target frame, number of groups, then each group with its number of
codes, and channel and code of each. -/
def Dev.sendCodes (d : Dev) (l : Nat) (gs : List Nat) : Dev :=
  let of_ := fun (g : Nat) => d.lpc.codesDue.filter (fun c => groupOf c.1 = g)
  let now := gs.flatMap of_
  if now = [] then d else
  let d1 := { d with lpc := { d.lpc with codesDue := d.lpc.codesDue.filter (fun c => !gs.contains (groupOf c.1)),
                                         codesSent := d.lpc.codesSent ++ now } }
  d1.send (.element l 2 ((d.frame + 1) % 2 ^ 32 :: gs.length ::
    gs.flatMap (fun g => g % 12 :: (of_ g).length :: (of_ g).flatMap (fun c => [c.1 % 16, c.2]))))

/-- The codes of one group sent (R250). -/
def Dev.sendGroup (d : Dev) (g : Nat) : Dev := d.sendCodes (g / 12) [g]

/-- The groups of a block whose codes are all stored go out (R250). -/
def Dev.sendGroups (d : Dev) (els : List Nat) : Dev :=
  let open_ := engines.flatMap (fun e => ((d.blocks e).filter (fun b => !d.blockEnded b)).flatMap LpcBlock.loops)
  ((els.map groupOf).eraseDups.filter (fun g => !open_.any (fun e => groupOf e = g))).foldl Dev.sendGroup d

/-- What the front-ends apply at a strobe (R20): the final record of the frame carries every group not yet sent. A code sent for an element
that a sluice drives by now is ignored there (R252). -/
def Dev.applyCodes (d : Dev) : Dev :=
  let d1 := (List.range 32).foldl (fun d l =>
    d.sendCodes l (((d.lpc.codesDue.filter (fun c => linkOf c.1 = l)).map (fun c => groupOf c.1)).eraseDups)) d
  let act := d1.lpc.codesSent.filter (fun c => !(d1.loop c.1).inSluice)
  { d1 with lpc := { d1.lpc with codesSent := [], applied := act.foldl (fun t c => tput (fun _ => 0) t c.1 c.2) d1.lpc.applied } }

/-! ### Trace -/

/-- The trace is armed: before or after its trigger. -/
def Dev.tracing (d : Dev) : Bool := d.fld F.lpcTraceStat_tstate = 1 || d.fld F.lpcTraceStat_tstate = 2

/-- The flags of a signal's source (Table 7-11). -/
def Dev.signalFlags (d : Dev) (source : Nat) : Nat :=
  if source < 0x8000 then (d.loop source).flags else (d.shownLane (source - 0x8000)).flags

/-- What the trigger of the trace watches (Table 7-11): a frame count reached, a sticky bit, or the first signal's flags. -/
def Dev.traceWatch (d : Dev) : Nat :=
  match d.lpc.trace.trigKind with
  | 1 => b2n (decide (d.lpc.trace.trigArg ≤ d.frame))
  | 2 => b2n (d.sticky d.lpc.trace.trigArg)
  | 3 => match d.lpc.trace.signals with
    | x :: _ => Nat.land (d.signalFlags x.source) d.lpc.trace.trigArg
    | [] => 0
  | _ => 1

/-- The word of one signal (Table 7-11). Taps are those of the last evaluation outside a sluice (R198). A power lane's signals are those
published at the latest 0.40P (R194); the spec states no tap and no target for it: free values. -/
def Dev.signalWord (d : Dev) (s : TraceSignal) : Word × Dev :=
  if s.quantity = 6 then (BitVec.ofNat 32 (d.signalFlags s.source), d)
  else if s.source < 0x8000 then
    let x := d.loop s.source
    let v := match s.quantity with
      | 0 => d.drivePower s.source x.aTap | 1 => d.drivePower s.source x.bTap | 2 => x.eLast | 3 => extValue x.i | 4 => x.uUnsat
      | 5 => Frac.ofInt x.code | 7 => Frac.ofInt x.stageExp | _ => x.target
    (coefWord v, d)
  else
    let x := d.shownLane (s.source - 0x8000)
    match s.quantity with
    | 2 => (coefWord x.eLast, d)
    | 3 => (coefWord (extValue x.i), d)
    | 4 => (coefWord x.uUnsat, d)
    | 5 => (coefWord x.out, d)
    | 7 => (coefWord (Frac.ofInt x.stageExp), d)
    | _ => let (n, d1) := d.fresh (2 ^ 32)
           (BitVec.ofNat 32 n, d1)

/-- The words of the signals in order. -/
def signalWords : List TraceSignal → Dev → Bytes × Dev
  | [], d => ([], d)
  | s :: r, d =>
    let (w, d1) := d.signalWord s
    let (b, d2) := signalWords r d1
    (le 4 w.toNat ++ b, d2)

/-- One record written to the trace ring (R193, R194), which keeps the last `depth`. -/
def Dev.traceRecord (d : Dev) (trig : Bool) : Dev :=
  let t := d.lpc.trace
  let miss := match t.lastFrame with | some f => d.frame - (f + 1) | none => 0
  let (b, d1) := signalWords t.signals d
  let r := le 6 d.frame ++ le 1 (b2n trig + 2 * b2n (decide (miss ≠ 0))) ++ le 1 0 ++ b
  let l := t.records ++ [r]
  let past := l.length - t.depth
  let t1 := { t with records := l.drop past, lastFrame := some d.frame, seenBefore := t.seen, seen := d.traceWatch,
                     trigAt := if trig then some (l.length - 1 - past) else t.trigAt.map (fun i => i - past) }
  (({ d1 with lpc := { d1.lpc with trace := t1 } }).addSat F.lpcTraceStat_missed miss).bump R.lpcTraceCount

/-- The record of this frame, once every block has ended (R194); none once the records after the trigger are complete. -/
def Dev.traceFrame (d : Dev) : Dev :=
  if !d.tracing || !d.allEnded || d.lpc.trace.lastFrame = some d.frame then d
  else if d.lpc.trace.trigDue then
    let d1 := d.traceRecord true
    { d1 with lpc := { d1.lpc with trace := { d1.lpc.trace with trigDue := false } } }
  else if d.fld F.lpcTraceStat_tstate = 1 then d.traceRecord false
  else if d.lpc.trace.left = 0 then d
  else
    let d1 := d.traceRecord false
    { d1 with lpc := { d1.lpc with trace := { d1.lpc.trace with left := d1.lpc.trace.left - 1 } } }

/-! ### Blocks -/

/-- A loop's record after a frame in which it gave no code for economy's sake (R182). -/
def halvedLoop (x : Loop) : Loop := { x with flags := Nat.lor x.flags 2048 }

/-- The dark history of a loop (R225): since when its element has been dark, parked or adopted without a break. -/
def Loop.track (x : Loop) (now : Nat) : Loop :=
  let dark := bit x.flags 4 || x.susp.parked || x.susp.adopted
  { x with darkFrom := if dark then some (x.darkFrom.getD now) else none }

/-- One lane's result stored (R169, R170, R179, R181), and its code, which the ELK sends. -/
def Dev.storeLane (d : Dev) (el : Nat) (o : LaneOut) : Dev :=
  let x := d.loop el
  let halt := d.suspended el
  let ab := if x.inSluice then (x.aTap, x.bTap) else d.sample el
  let y0 := epilogue (d.coef x.set 2) (d.coef x.set 3) (d.coef x.set 4) x.inSluice halt o x
  let y := ({ y0 with exps := (o.err.ownExp :: x.exps).take 64, lowBits := x.lowBits || bit y0.flags 10, aTap := ab.1, bTap := ab.2 }).track d.now
  let d1 := (d.setLoop el y).countLane x.flags y.flags
  if halt || x.inSluice then d1 else d1.queueCode el y.code

/-- One lane masked (R19, R181). -/
def Dev.maskLane (d : Dev) (el : Nat) : Dev :=
  (d.setLoop el (maskedLoop (d.loop el).inSluice (d.suspended el) (d.loop el))).bump R.lpcMaskCount

/-- A block evaluated on engine `e` (R162, R165 to R170, R181): its lanes stored, `ovf` reported, codes sent, the trace
written once it was the last. Masked lanes and those that economy mode halves take no part. `late`: the block could not end by 1.85 µs, and
all its lanes are masked. -/
def Dev.evaluate (d : Dev) (e b : Nat) (late : Bool) : Dev :=
  match (d.blocks e)[b]? with
  | none => d
  | some x =>
    let act := x.lanes.map (fun l => l.filter (fun el => !late && !d.laneMasked el && !d.halved el))
    let outs := d.evalLanes x.slot act
    let d1 := x.lanes.zipIdx.foldl (fun d1 l => match l.1, (outs[l.2]?).join with
      | some el, some o => d1.storeLane el o
      | some el, none => if !late && d.halved el then d1.setLoop el (halvedLoop (d1.loop el)) else d1.maskLane el
      | none, _ => d1) d
    let ovf := outs.any (fun o => match o with | some o => bit o.flags 8 | none => false)
    let d2 := d1.setBlocks e ((d1.blocks e).zipIdx.map (fun y => if y.2 = b then { y.1 with ended := d.frame + 1 } else y.1))
    let first := match x.lanes with | some el :: _ => el | _ => 0xFFFF
    let d3 := if ovf then d2.reportOvf e first else d2
    (d3.sendGroups x.loops).traceFrame

/-- An engine's progress in the frame. -/
def Dev.engTime (d : Dev) (e : Nat) : EngTime := tget (fun _ => {}) d.lpc.eng e

/-- A hold engine (R438): enabled, and not reserved for the power loops. -/
def Dev.holdEngine (d : Dev) (e : Nat) : Bool := d.bitAt R.lpcEngEn e && !(decide (14 ≤ e) && d.flag F.lpcPowerCfg_reserve)

/-- The cycles for which throttling pauses an engine in a frame (R438). -/
def Dev.engPause (d : Dev) (e : Nat) : Nat :=
  let s := d.fld (F.lpcEngSlack_slack e)
  if d.flag F.thsStat_divMode || !d.holdEngine e || decide (s ≤ 20) then 0 else d.fld F.thsStat_level * (s - 20) / 3

/-- The factor by which throttling divides an engine's clock (R439). -/
def Dev.engDivide (d : Dev) (e : Nat) : Nat :=
  if d.flag F.thsStat_divMode && d.holdEngine e then 2 ^ d.fld F.thsStat_level else 1

/-- The tick at which an engine can start block `x` (R162, R181): the window has opened, the engine is free and every link
that feeds the block has been ready. -/
def Dev.blockStart (d : Dev) (e : Nat) (x : LpcBlock) : Nat :=
  ((x.loops.flatMap d.feedLinks).map (fun l => if d.linkHere l then (d.elink l).readyAt else 0)).foldl max
    (max (d.intoFrame 750) (d.engTime e).free)

/-- The tick at which block `x` ends on engine `e` where it starts at `t`: one loop-cluster cycle is 1 ns. -/
def Dev.blockEnd (d : Dev) (e : Nat) (x : LpcBlock) (t : Nat) : Nat := t + d.slotCost x.slot * d.engDivide e * tickNs

/-- What an engine has left of this frame after tick `t`, in ticks: up to 1.85 µs, less the placed cost of the blocks other than `b` that
have still to run (R183). -/
def Dev.slackLeft (d : Dev) (e b t : Nat) : Nat :=
  let rest := ((d.waitingBlocks e).filter (fun i => i ≠ b)).map (fun i => match (d.blocks e)[i]? with
    | some x => d.slotCost x.slot * d.engDivide e * tickNs | none => 0)
  d.intoFrame 1850 - (t + rest.foldl (· + ·) 0)

/-- Block `b` of engine `e` run from tick `t` (R181), and the pause that follows it (R438), within the engine's slack in this frame (R183);
not started where it could not end by 1.85 µs. -/
def Dev.runBlock (d : Dev) (e b t : Nat) : Dev :=
  match (d.blocks e)[b]? with
  | none => d
  | some x =>
    let stop := d.blockEnd e x t
    if d.intoFrame 1850 < stop then (d.advance t).evaluate e b true
    else
      let y := d.engTime e
      let n := max 1 (d.blocks e).length
      let gap := min (d.slackLeft e b stop) ((d.engPause e * (y.blocks + 1) / n - d.engPause e * y.blocks / n) * tickNs)
      let d1 := (d.advance stop).evaluate e b false
      let y1 : EngTime := ⟨stop + gap, stop, y.paused + gap, y.blocks + 1⟩
      { d1 with lpc := { d1.lpc with eng := tput (fun _ => {}) d1.lpc.eng e y1 } }

/-- BLOCK_EVALUATE (R181): engine `e` takes block `b`, its first ready one, from 0.75 µs after the strobe on; the row is the
block's end. Engines run side by side, so the clock follows the latest end. -/
def execBlockEvaluate (e b : Nat) (s : State) : Host.Outcome State Fault Refusal :=
  commitIf (decide (e < 16) && decide (b < 68)) "engine or block" s (
    let d := s.dev
    match (d.blocks e)[b]? with
    | some x => if d.fld (F.lpcEngStat_state e) ≠ 5 ∧ d.nextBlock e = some b then d.runBlock e b (d.blockStart e x) else d
    | none => d)

/-- The waiting blocks of an engine taken in list order at the cut-off. -/
def cutEngine (e : Nat) : List Nat → Dev → Dev
  | [], d => d
  | b :: r, d => cutEngine e r (d.runBlock e b (max (d.intoFrame 1000) (d.engTime e).free))

/-- SAMPLE_CUTOFF (R19, R258): 1.00 µs after the strobe. Every block that still waits is taken in list order, with the lanes of late links
masked; the frames that a link was late are counted. -/
def execSampleCutoff (s : State) : Host.Outcome State Fault Refusal :=
  commit s (
    let d := s.dev.advance (s.dev.intoFrame 1000)
    let d1 := engines.foldl (fun d e => if d.fld (F.lpcEngStat_state e) = 5 then d else cutEngine e (d.waitingBlocks e) d) d
    (List.range 32).foldl (fun d l =>
      if d.linkReady l then
        let x := d.elink l
        if x.ready && x.lostParts = 0 then d.setElink l { x with masked := 0 }
        else
          let d1 := d.setElink l { x with masked := x.masked + 1 }
          d1.setFld (F.elkLateCount_masked l) (d1.fld (F.elkLateCount_masked l) + 1)
      else d) d1)

end Sys2Proof.Machine
end

