-- ==== Sys2Proof/Machine/Plm.lean ====
section
/-! DEFINITION. The placement manager's commands and events (chapter 09), and the engines' enables and stops (R196, R197,
R224). -/

namespace Sys2Proof.Machine

/-- An engine of the cluster. -/
def okEngine (e : Nat) : Bool := decide (e < 16)

/-- The tick at which the strobe of frame `m` falls (R85, R411). -/
def Dev.frameTick (d : Dev) (m : Nat) : Nat := (((m * 1000 : Nat) : Int) - d.twn.offset).toNat * tickCount

/-- The strobe of the next frame whose count is a multiple of `r`, this instant included. -/
def Dev.nextMultiple (d : Dev) (r : Nat) : Nat :=
  let m := d.frame / max r 1 * max r 1
  if d.now ≤ d.frameTick m then d.frameTick m else d.frameTick (m + max r 1)

/-! ### Repairs -/

/-- The loops of a block by rising key exponent, ties by element. -/
def Dev.byExponent (d : Dev) (l : List Nat) : List Nat :=
  l.foldl (fun acc e => acc.filter (fun x => decide (d.keyExp x ≤ d.keyExp e)) ++ e :: acc.filter (fun x => decide (d.keyExp e < d.keyExp x))) []

/-- Where the largest gap between neighbours lies, the lowest where gaps are equal: its index and size. -/
def Dev.largestGap (d : Dev) (l : List Nat) : Nat × Int :=
  (l.zip (l.drop 1)).zipIdx.foldl (fun best x =>
    let g := d.keyExp x.1.2 - d.keyExp x.1.1
    if best.2 < g then (x.2 + 1, g) else best) (0, -1)

/-- The outliers of a block (R222, step 1); a pinned loop is none. -/
def Dev.outliers (d : Dev) (b : LpcBlock) : List Nat :=
  let l := d.byExponent b.loops
  let i := (d.largestGap l).1
  let side := if (l.drop i).length < i then l.drop i else l.take i
  side.filter (fun e => !d.pinned e)

/-- A block is bad (R221). -/
def Dev.badBlock (d : Dev) (b : LpcBlock) : Bool := !d.fits b.loops || b.loops.any (fun e => (d.loop e).lowBits)

/-- Steps prepared for a group of loops that go to block `i` of engine `e`. -/
def stepsTo (l : List Nat) (e i r : Nat) : List Migration := l.map (fun x => ⟨x, e, i, some r⟩)

/-- The steps of two groups taken in turn, so that the loops of a swap change places pairwise. -/
def interleave : List Migration → List Migration → List Migration
  | [], l => l
  | l, [] => l
  | a :: r, b :: q => a :: b :: interleave r q

/-- A repair entered: its steps and the loops that it moves. -/
def Dev.enterRepair (d : Dev) (slot : Nat) (l : List Migration) : Dev :=
  let r := (d.plm.repairs.map (fun x => x.1)).foldl max 0 + 1
  { d with plm := { d.plm with steps := d.plm.steps ++ l.map (fun m => { m with repair := some r }),
                               repairs := d.plm.repairs ++ [(r, slot, l.length)] } }

/-- Block `i` of engine `e` repaired (R222): a swap, a move, or a new block; `unresolved` and event 0x0502 where none can be
found. Blocks of a repair under way are left out. -/
def Dev.repairBlock (d : Dev) (e i : Nat) : Dev :=
  match (d.blocks e)[i]? with
  | none => d
  | some x =>
    let busy := fun (b : LpcBlock) => b.loops.any (fun el => d.plm.steps.any (fun s => s.el = el))
    let out := d.outliers x
    let stay := x.loops.filter (fun el => !out.contains el)
    let all := engines.flatMap (fun f => (d.blocks f).zipIdx.map (fun b => (f, b.2, b.1)))
    let others := all.filter (fun c => c.2.2.slot = x.slot && !(c.1 = e && c.2.1 = i) && !busy c.2.2 && d.engTakes c.1)
    let moves := others.filterMap (fun c => if c.2.2.loops.length + out.length ≤ 16 && d.fits (out ++ c.2.2.loops) then some (out.length, c, ([] : List Nat)) else none)
    let swaps := others.filterMap (fun c =>
      let o := d.outliers c.2.2
      if o.length = out.length && d.fits (o ++ stay) && d.fits (out ++ c.2.2.loops.filter (fun el => !o.contains el)) then some (2 * out.length, c, o) else none)
    let rank := fun (q : Nat × (Nat × Nat × LpcBlock) × List Nat) => [q.1, b2n (decide (q.2.1.1 ≠ e)), q.2.1.1, q.2.1.2.1]
    let best := (moves ++ swaps).foldl (fun b q => match b with
      | none => some q
      | some p => if lexLt (rank q) (rank p) then some q else some p) none
    if busy x then d
    else if out = [] then (d.setFlag F.plmStat_unresolved true).event 0x0502 e (le 1 i)
    else match best with
      | some (_, (f, j, _), o) => d.enterRepair x.slot (interleave (stepsTo out f j 0) (stepsTo o e i 0))
      | none => match d.bestEngine x.slot 16 with
        | some f => (d.addBlock f ⟨x.slot, [], 0⟩).enterRepair x.slot (stepsTo out f (d.blocks f).length 0)
        | none => (d.setFlag F.plmStat_unresolved true).event 0x0502 e (le 1 i)

/-- Every bad block reviewed (R221, R222). -/
def Dev.reviewBlocks (d : Dev) : Dev :=
  let all := engines.flatMap (fun e => (d.blocks e).zipIdx.map (fun b => (e, b.2, b.1)))
  let bad := all.filter (fun c => d.badBlock c.2.2)
  let worst := (d.residentLoops.filterMap (fun e => (d.loop e).bits.head?)).foldl min 23
  let d0 := (d.setFlag F.plmStat_unresolved false).setFld F.plmStat_worstBits worst
  let d1 := { d0 with plm := { d0.plm with bad := bad.length, worst := worst } }
  let d2 := bad.foldl (fun d c => d.repairBlock c.1 c.2.1) d1
  { d2 with lpc := { d2.lpc with loops := d2.lpc.loops.map (fun (x : Nat × Loop) => (x.1, { x.2 with lowBits := false })) } }

/-- Block `i` of engine `e` moved whole to the end of the list of engine `f`; steps that are prepared follow it. -/
def Dev.moveBlock (d : Dev) (e i f : Nat) : Dev :=
  match (d.blocks e)[i]? with
  | none => d
  | some b =>
    let n := (d.blocks f).length
    let d1 := (d.setBlocks e ((d.blocks e).eraseIdx i)).addBlock f b
    { d1 with plm := { d1.plm with steps := d1.plm.steps.map (fun s =>
        if s.engine ≠ e then s else if s.block = i then { s with engine := f, block := n }
        else if i < s.block then { s with block := s.block - 1 } else s) } }

/-- Blocks on spares moved back where the hold set has room (R219), those of the highest index first; one with an element in a sluice waits
(R223). -/
def Dev.returnSpares (d : Dev) : Dev :=
  (engines.filter (fun e => !d.inHoldSet e)).foldl (fun d e => (List.range (d.blocks e).length).reverse.foldl (fun d i =>
    match (d.blocks e)[i]? with
    | none => d
    | some b => match d.bestEngine b.slot e with
      | some f => if d.inHoldSet f && b.loops.all (fun el => !d.inSluice el) then d.moveBlock e i f else d
      | none => d) d) d

/-- The evicted loops restored while `evict_en` is 0, those dark longest first, `mig_max` at a review (Table 9-5). -/
def Dev.restoreSome (d : Dev) : Dev :=
  let l := d.driveElems.filter (fun e => (d.loop e).evicted)
  let at_ := fun e => (d.loop e).darkFrom.getD d.now
  let sorted := l.foldl (fun acc e => acc.filter (fun x => decide (at_ x ≤ at_ e)) ++ e :: acc.filter (fun x => decide (at_ e < at_ x))) []
  (sorted.take (d.fld F.plmCfg_migMax)).foldl Dev.restoreLoop d

/-- Broken pins whose engine runs again take effect anew (R233). -/
def Dev.mendPins (d : Dev) : Dev :=
  { d with plm := { d.plm with pins := d.plm.pins.map (fun p => if p.broken && d.engTakes p.engine then { p with broken := false, due := true } else p) } }

/-- PLACEMENT_REVIEW (R221, R225): at the next frame whose count is a multiple of `review`. -/
def execPlacementReview (s : State) : Host.Outcome State Fault Refusal :=
  commit s (
    let d := s.dev.advance (s.dev.nextMultiple (s.dev.fld F.plmCfg_review))
    let d1 := if d.flag F.plmCtrl_regroupEn then d.reviewBlocks else d
    let d2 := d1.returnSpares
    let d3 := if d2.flag F.plmCtrl_evictEn then (d2.residentLoops.filter d2.evictable).foldl Dev.evict d2 else d2.restoreSome
    let d4 := (d3.plm.unplaced.map (fun x => x.1)).foldl (fun d e => if (d.loop e).evicted then d.restoreLoop e else d.placeLoop e) d3
    d4.mendPins)

/-! ### Migration -/

/-- Block of engine `e` that a pinned loop joins: the named one, or the first of its slot with room. -/
def Dev.pinBlock (d : Dev) (p : Pin) : Option Nat :=
  let slot := (d.loop p.el).slot
  let l := (d.blocks p.engine).zipIdx
  if p.block = 0xFF then (l.find? (fun b => b.1.slot = slot && b.1.hasRoom)).map (fun b => b.2)
  else (l.find? (fun b => b.2 = p.block && b.1.slot = slot && b.1.hasRoom)).map (fun b => b.2)

/-- A pin that is due carried out (R232); it waits where the engine has no room for another block (R163). -/
def Dev.applyPin (d : Dev) (p : Pin) : Dev :=
  let here := match d.placeOf p.el with | some (e, i, _) => e = p.engine && (p.block = 0xFF || p.block = i) | none => false
  if d.inSluice p.el || (d.loop p.el).evicted || !(here || (d.pinBlock p).isSome || d.engRoom p.engine (d.loop p.el).slot) then d
  else
    let d1 := if here then d else
      match d.pinBlock p with
      | some i => (d.unplaceLoop p.el).joinBlock p.engine i p.el
      | none => (d.unplaceLoop p.el).addBlock p.engine ⟨(d.loop p.el).slot, [some p.el], 0⟩
    let d2 := if here then d1 else d1.bump R.plmMigCount
    { d2 with plm := { d2.plm with pins := d2.plm.pins.map (fun q => if q.el = p.el then { q with due := false } else q) } }

/-- Empty blocks taken off the lists. -/
def Dev.prune (d : Dev) : Dev :=
  if d.plm.steps = [] then engines.foldl (fun d e => d.setBlocks e ((d.blocks e).filter (fun b => b.loops ≠ []))) d else d

/-- Repairs whose steps are all done: counted, event 0x0501. -/
def Dev.closeRepairs (d : Dev) : Dev :=
  let done := d.plm.repairs.filter (fun r => !d.plm.steps.any (fun s => s.repair = some r.1))
  let d1 := { d with plm := { d.plm with repairs := d.plm.repairs.filter (fun r => d.plm.steps.any (fun s => s.repair = some r.1)) } }
  done.foldl (fun d r => (d.bump R.plmRegroupCount).event 0x0501 r.2.1 (le 2 r.2.2)) d1

/-- An engine that has drained (R197). -/
def Dev.checkDrained (d : Dev) (e : Nat) : Dev :=
  if d.fld (F.lpcEngStat_state e) = 3 ∧ d.blocks e = [] then
    (((d.setFld (F.lpcEngStat_state e) 4).setBitAt R.lpcEngDrain e true)).setBitAt R.lpcEngDrain (16 + e) false
  else d

/-- One block of a draining engine moved away whole, or `no_room` set (R197, R224). -/
def Dev.drainStep (d : Dev) (e : Nat) : Dev :=
  if d.fld (F.lpcEngStat_state e) ≠ 3 then d else
  match (d.blocks e).find? (fun b => b.loops.all (fun el => !d.inSluice el)) with
  | none => d.checkDrained e
  | some b => match d.placeBlock b e with
    | some d1 => (((d1.setBlocks e ((d1.blocks e).erase b)).setBitAt R.lpcEngDrain (16 + e) false).setRegN R.plmMigCount
        (d.regN R.plmMigCount + b.loops.length)).checkDrained e
    | none => d.setBitAt R.lpcEngDrain (16 + e) true

/-- MIGRATION_STEP (R223, R224, R232): at a frame strobe, pins that are due, then up to `mig_max` loops of the steps
prepared, then a block of each draining engine. -/
def Dev.migrate (d : Dev) : Dev :=
  let d1 := (d.plm.pins.filter (fun p => p.due)).foldl Dev.applyPin d
  let n := d1.fld F.plmCfg_migMax / 2 * 2
  let go := (d1.plm.steps.filter (fun s => !d1.inSluice s.el)).take n
  let d2 := go.foldl (fun d s => d.unplaceLoop s.el) d1
  let d3 := go.foldl (fun d s => d.joinBlock s.engine s.block s.el) d2
  let d4 := { d3 with plm := { d3.plm with steps := d3.plm.steps.filter (fun s => !go.contains s),
                                           moved := (d3.now, go.length) :: d3.plm.moved.filter (fun x => decide (d3.now < x.1 + tickS)) } }
  let d5 := d4.setRegN R.plmMigCount (d4.regN R.plmMigCount + go.length)
  engines.foldl Dev.drainStep ((d5.closeRepairs).prune)

/-- MIGRATION_STEP (R223). -/
def execMigrationStep (s : State) : Host.Outcome State Fault Refusal :=
  commit s ((s.dev.advance (s.dev.strobeFrom s.dev.now)).migrate)

/-- LOOP_RESTORE (R227): a restore that was requested completes. -/
def execLoopRestore (el : Nat) (s : State) : Host.Outcome State Fault Refusal :=
  commitIf (decide (el < 6144)) "element" s (if s.dev.plm.restores.any (fun r => r.1 = el) then s.dev.restoreLoop el else s.dev)

/-! ### Engines -/

/-- The pins of an engine that stops or drains are broken (R233). -/
def Dev.breakPins (d : Dev) (e : Nat) : Dev :=
  let hit := d.plm.pins.filter (fun p => p.engine = e && !p.broken)
  let d1 := { d with plm := { d.plm with pins := d.plm.pins.map (fun p => if p.engine = e then { p with broken := true, due := false } else p) } }
  hit.foldl (fun d p => d.event 0x0504 p.el (le 1 e)) d1

/-- The blocks of a stopped engine placed elsewhere from the next frame on (R196, R224); steps into it are withdrawn. -/
def Dev.replaceBlocks (d : Dev) (e : Nat) : Dev :=
  let l := (d.blocks e).filter (fun b => b.loops ≠ [])
  let d1 := { (d.setBlocks e []) with plm := { d.plm with steps := d.plm.steps.filter (fun s => s.engine ≠ e) } }
  (d1.closeRepairs).placeBlocks (l.map (fun b => { b with ended := d.frame + 1 }))

/-- The blocks that an engine can no longer carry within the budget of R163 placed elsewhere (R218, R224): the last of its list, or
where there is no room for all the last in the order of R224. -/
def Dev.trimEngine (d : Dev) (e : Nat) : Dev :=
  let split := fun (l : List LpcBlock) => l.foldl (fun (a : List LpcBlock × List LpcBlock) b =>
    if ((a.1 ++ [b]).map (fun x => d.slotCost x.slot)).foldl (· + ·) 0 ≤ 1100 then (a.1 ++ [b], a.2) else (a.1, a.2 ++ [b])) ([], [])
  let l := d.blocks e
  let (keep, rest) := split l
  if rest = [] then d
  else
    let (keep, rest) := if (d.setBlocks e keep).allFit rest then (keep, rest) else split (d.rankBlocks l)
    let d1 := { (d.setBlocks e keep) with plm := { d.plm with steps := d.plm.steps.filter (fun s => s.engine ≠ e) } }
    (d1.closeRepairs).placeBlocks rest

/-- An engine of the reserve gives its hold blocks up (R164). -/
def Dev.reserveEngines (d : Dev) : Dev := [14, 15].foldl Dev.replaceBlocks d

/-- ENGINE_PARITY_ERROR (R196): a microcode parity error, or of the lane registers where `lane`. A store that does not read back as it was
written at a start is written again once; only the second mismatch stops the engine (R215). -/
def execEngineParityError (e : Nat) (lane : Bool) (s : State) : Host.Outcome State Fault Refusal :=
  commitIf (okEngine e) "engine" s (
    let d := s.dev
    if !d.flag F.cpxReady1_ucode && !lane && !d.lpc.rewritten.contains e then
      { d with lpc := { d.lpc with rewritten := d.lpc.rewritten ++ [e] } }.event 0x0406 e (le 1 1)
    else
    let d1 := ((d.setFlag (F.lpcEngErr_stopped e) true).setFlag (if lane then F.lpcEngErr_lanePar e else F.lpcEngErr_ucodePar e) true).setFld
      (F.lpcEngStat_state e) 5
    let d2 := (if 14 ≤ e && !d.flag (F.lpcEngErr_stopped e) then d1.powerStop e else d1).resetMaster 3
    let d3 := ((d2.event 0x0402 e (le 1 (if lane then 2 else 1))).raiseLevel (279 + e)).breakPins e
    d3.replaceBlocks e)

/-- `stopped` cleared (Table 7-19): the engine restarts with a reloaded store where the parity check passes. -/
def Dev.restartEngine (d : Dev) (e : Nat) (good : Bool) : Dev :=
  if d.flag (F.lpcEngErr_stopped e) && good then
    let d1 := (d.setReg (R.lpcEngErr e) 0).setFld (F.lpcEngStat_state e) (if d.bitAt R.lpcEngEn e then 2 else 4)
    ((d1.event 0x0406 e (le 1 2)).clearLevel (279 + e)).mendPins
  else d

/-- ENGINE_RESTART (R196). -/
def execEngineRestart (e : Nat) (good : Bool) (s : State) : Host.Outcome State Fault Refusal :=
  commitIf (okEngine e) "engine" s (s.dev.restartEngine e good)

/-- An engine's `en` bit cleared (R197). -/
def Dev.engineOff (d : Dev) (e : Nat) : Dev :=
  let d1 := d.setBitAt R.lpcEngEn e false
  if d.fld (F.lpcEngStat_state e) = 2 then ((d1.setFld (F.lpcEngStat_state e) 3).breakPins e).checkDrained e else d1

/-- An engine's `en` bit set (R197). -/
def Dev.engineOn (d : Dev) (e : Nat) : Dev :=
  let d1 := ((d.setBitAt R.lpcEngEn e true).setBitAt R.lpcEngDrain e false).setBitAt R.lpcEngDrain (16 + e) false
  if d.fld (F.lpcEngStat_state e) = 3 ∨ d.fld (F.lpcEngStat_state e) = 4 then d1.setFld (F.lpcEngStat_state e) 2 else d1

/-- ENGINE_DISABLE (R197). -/
def execEngineDisable (e : Nat) (s : State) : Host.Outcome State Fault Refusal := commitIf (okEngine e) "engine" s (s.dev.engineOff e)

/-- ENGINE_ENABLE (R197). -/
def execEngineEnable (e : Nat) (s : State) : Host.Outcome State Fault Refusal := commitIf (okEngine e) "engine" s (s.dev.engineOn e)

/-- REGROUP_DISABLE (Table 9-5): steps already prepared complete. -/
def execRegroupDisable (s : State) : Host.Outcome State Fault Refusal := commit s (s.dev.setFlag F.plmCtrl_regroupEn false)

/-- EVICT_DISABLE (Table 9-5): evicted loops are restored at the following reviews. -/
def execEvictDisable (s : State) : Host.Outcome State Fault Refusal := commit s (s.dev.setFlag F.plmCtrl_evictEn false)

/-- POWER_RESERVE_CLEAR (R164): no effect while `cmu` is set. -/
def execPowerReserveClear (s : State) : Host.Outcome State Fault Refusal :=
  commit s (if s.dev.flag F.cpxReady1_cmu then s.dev else s.dev.setFlag F.lpcPowerCfg_reserve false)

/-! ### Commands -/

/-- PLACE_PIN (R232). -/
def bodyPlacePin (d : Dev) (c : Call) : Dev × Verdict :=
  let b := c.packet.cmd.payload
  let p : Pin := ⟨rd b 0 2, rd b 2 1, rd b 3 1, false, true⟩
  let slot := (d.loop p.el).slot
  let here := match d.placeOf p.el with | some (e, _, _) => decide (e = p.engine) | none => false
  let fresh := (d.pinBlock p).isNone && !here
  let clash : Bool := match (d.blocks p.engine)[p.block]? with
    | some x => !(decide (x.slot = slot) && (x.hasRoom || x.loops.contains p.el))
    | none => false
  if rd b 4 4 ≠ 0 ∨ 6143 < p.el ∨ d.rtp.map.kind p.el = 0 ∨ slot = 0xFF ∨ 15 < p.engine ∨ (67 < p.block ∧ p.block ≠ 0xFF) then
    refuse d St.badParam
  else if (14 ≤ p.engine ∧ d.flag F.lpcPowerCfg_reserve) ∨ (512 ≤ d.plm.pins.length ∧ !d.pinned p.el) ∨
      (fresh ∧ 1100 < d.engCost p.engine + d.slotCost slot) then refuse d St.refused
  else if d.fld (F.lpcEngStat_state p.engine) ≠ 2 ∨ d.inSluice p.el = true ∨ clash = true then refuse d St.conflict
  else
    let d1 := { d with plm := { d.plm with pins := d.plm.pins.filter (fun (q : Pin) => q.el ≠ p.el) ++ [p] } }
    (d1.requestRestore p.el, .final St.done [])

/-- PLACE_UNPIN (R233). -/
def bodyPlaceUnpin (d : Dev) (c : Call) : Dev × Verdict :=
  let b := c.packet.cmd.payload
  if rd b 2 2 ≠ 0 then refuse d St.badParam
  else if !d.pinned (rd b 0 2) then refuse d St.conflict
  else ({ d with plm := { d.plm with pins := d.plm.pins.filter (fun q => q.el ≠ rd b 0 2) } }, .final St.done [])

/-- The hints of a group set. -/
def Dev.setHints (d : Dev) (els : List Nat) (k : Nat) : Dev :=
  { d with plm := { d.plm with hints := els.foldl (fun t e => tput (fun _ => 0) t e k) d.plm.hints } }

/-- The loops of a group cut into the fewest runs of at most 16 whose spread stays within `spread_max`. -/
def Dev.runs (d : Dev) (l : List Nat) : List (List Nat) :=
  (l.foldl (fun (acc : List (List Nat)) e => match acc with
    | [] => [[e]]
    | g :: r => if g.length < 16 && d.fits (e :: g) then (e :: g) :: r else [e] :: g :: r) []).map List.reverse

/-- The effect of a `together` hint (Table 9-3): new blocks for the group, where the budget takes them. -/
def Dev.together (d : Dev) (els : List Nat) : Dev :=
  let l := els.filter (fun e => (d.placeOf e).isSome && !d.pinned e && !d.plm.steps.any (fun s => s.el = e))
  (List.range 64).foldl (fun d s =>
    (d.runs (d.byExponent (l.filter (fun e => (d.loop e).slot = s)))).foldl (fun d g =>
      match d.bestEngine s 16 with
      | some f => (d.addBlock f ⟨s, [], 0⟩).enterRepair s (stepsTo g f (d.blocks f).length 0)
      | none => d) d) d

/-- PLACE_HINT (R234). -/
def bodyPlaceHint (d : Dev) (c : Call) : Dev × Verdict :=
  let b := c.packet.cmd.payload
  let first := rd b 0 2
  let n := rd b 2 2
  let k := rd b 4 1
  let els := (List.range n).map (fun i => first + i)
  let others := fun (kind : Nat) => (d.plm.hints.filter (fun h => h.2 = kind && !(decide (first ≤ h.1) && decide (h.1 < first + n)))).length
  if n = 0 ∨ 6144 < first + n ∨ 4 < k ∨ rd b 5 3 ≠ 0 then refuse d St.badParam
  else if (k = 2 ∧ 1024 < others 2 + n + d.plm.pins.length) ∨ (k = 4 ∧ 256 < others 4 + n) then refuse d St.refused
  else
    let d1 := d.setHints els k
    let d2 := if k = 2 then els.foldl Dev.requestRestore d1 else if k = 1 then d1.together els else d1
    (d2, .final St.done [])

/-- The result of PLACE_STATS (Table 9-4), 64 bytes. -/
def Dev.placeStats (d : Dev) : Bytes :=
  let win := ((List.range 32).filter d.linkShaped).map (fun l => (d.windowOf l).length)
  let w := match win with | [] => 0 | a :: r => r.foldl min a
  let moved := ((d.plm.moved.filter (fun x => decide (d.now < x.1 + tickS))).map (fun x => x.2)).foldl (· + ·) 0
  engines.flatMap (fun e => le 2 (d.engCost e)) ++ le 2 d.residentLoops.length ++
    le 2 (d.driveElems.filter (fun e => (d.loop e).evicted)).length ++ le 2 d.plm.unplaced.length ++ le 2 d.plm.pins.length ++
    le 2 d.plm.bad ++ le 1 d.plm.worst ++ le 1 w ++ le 4 moved ++ le 4 (d.regN R.plmPrefetchMiss) ++ le 12 0

/-- PLACE_STATS (R234). -/
def bodyPlaceStats (d : Dev) (_ : Call) : Dev × Verdict := (d, .final St.done d.placeStats)

end Sys2Proof.Machine
end

