-- ==== Sys2Proof/Machine/Elk.lean ====
section
/-! DEFINITION. The element links (chapter 10): records received, CTRL and its answers, training, loss and draining. -/

namespace Sys2Proof.Machine

/-- An element link of the block. -/
def okLink (l : Nat) : Bool := decide (l < 32)

/-- A link's state (Table 10-10). -/
def Dev.linkState (d : Dev) (l : Nat) : Nat := d.fld (F.elkLinkStat_state l)

/-- A record of `n` bytes whose CRC verifies (R243); it covers the control block's first four bytes and the data blocks. -/
def recOk (b : Bytes) (n type : Nat) : Bool :=
  decide (b.length = n) && rd b 0 1 = type && rd b 4 4 = crc32c (b.take 4 ++ b.drop 8)

/-! ### CTRL (R255) -/

/-- A new CTRL record. -/
def Dev.sendCtrl (d : Dev) (l op first count : Nat) : Dev :=
  let x := d.elink l
  let n := (x.rseq + 1) % 65536
  (d.setElink l { x with rseq := n, ctrls := x.ctrls ++ [⟨n, op, first, count, d.now, 0⟩] }).send (.element l 5 [op, n, first, count])

/-- READ_CODES sent for the channels not yet asked for, with at most 8 records outstanding (R255, state 5). -/
def pumpReads (l : Nat) : Nat → Dev → Dev
  | 0, d => d
  | fuel + 1, d =>
    let x := d.elink l
    let next := x.ctrls.foldl (fun a c => max a (c.first + c.count)) x.read
    if x.channels ≤ next ∨ 8 ≤ x.ctrls.length then d
    else pumpReads l fuel (d.sendCtrl l 0x03 next (min 8 (x.channels - next)))

/-- ECHOs sent up to the 16 of state 3, with at most 8 outstanding. -/
def pumpEchoes (l : Nat) : Nat → Dev → Dev
  | 0, d => d
  | fuel + 1, d =>
    let x := d.elink l
    if 16 ≤ x.echoes.length + x.ctrls.length ∨ 8 ≤ x.ctrls.length then d else pumpEchoes l fuel (d.sendCtrl l 0x02 0 0)

/-- A link enters a state of training, with what the state begins (Table 10-10). -/
def Dev.enterState (d : Dev) (l st : Nat) : Dev :=
  let x := d.elink l
  let y : Link :=
    { x with
      retryAt := none, ctrls := [], echoes := (if st = 3 then [] else x.echoes), good := 0, read := 0, silent := 0, masked := 0,
      ready := false, refused := false, unread := 0, fastOpen := (if st ≤ 1 then [] else x.fastOpen) }
  let d1 := (d.setFld (F.elkLinkStat_state l) st).setElink l y
  match st with
  | 2 => d1.sendCtrl l 0x01 0 0
  | 3 => pumpEchoes l 8 d1
  | 5 => pumpReads l 8 d1
  | _ => d1

/-- A failure in training: back to state 1 after 10 ms (R256). -/
def Dev.failLink (d : Dev) (l : Nat) : Dev := d.setElink l { d.elink l with retryAt := some (d.now + 10 * tickMs), ctrls := [] }

/-- Training refused (Table 10-13): 1 `ident_bad`, 2 `cross_wired`, 3 `too_far`. -/
def Dev.refuseLink (d : Dev) (l why : Nat) : Dev :=
  let f := match why with | 1 => F.elkLinkErr_identBad l | 2 => F.elkLinkErr_crossWired l | _ => F.elkLinkErr_tooFar l
  ((d.setFlag f true).event 0x0213 l (le 1 why)).failLink l

/-! ### Loss (R257) -/

/-- The sluices of a link freed at once and its moves refused (Table 6-4); source 309 for each transition abandoned. -/
def Dev.freeLinkSluices (d : Dev) (l : Nat) : Dev :=
  let n := countBelow 64 (fun s => match (d.sluice s).cur with | some g => g.link = l | none => false)
  ((List.range n).foldl (fun d _ => d.raise 309) (d.linkLostMoves l)).recheckCalendar

/-- A link lost: 1 block lock, 2 no parts, 3 CTRL retries; it retrains from state 1. One that drains has nothing left to drain (R259). -/
def Dev.loseLink (d : Dev) (l why : Nat) : Dev :=
  let d1 := (d.setBitAt R.cpxReady0 l false).setFlag (F.elkLinkErr_lost l) true
  let d2 := (d1.event 0x0210 l (le 1 why)).raiseLevel l
  let d3 := if d2.bitAt R.elkLinkEn l then d2.enterState l 1 else (d2.enterState l 0).setBitAt R.elkDrained l true
  d3.freeLinkSluices l

/-- LINK_LOST (R257). -/
def execLinkLost (l why : Nat) (s : State) : Host.Outcome State Fault Refusal :=
  commitIf (okLink l) "link" s (
    let d := s.dev
    let st := d.linkState l
    if decide (2 ≤ st) && (why = 1 || (why = 2 && decide (400 ≤ (d.elink l).silent))) then d.loseLink l why else d)

/-- CTRL_TIMEOUT (R255): the CTRL longest without its RESP is sent again, or the link retrains. -/
def execCtrlTimeout (l : Nat) (s : State) : Host.Outcome State Fault Refusal :=
  commitIf (okLink l) "link" s (
    let d := s.dev
    let x := d.elink l
    match x.ctrls with
    | [] => d
    | c :: r =>
      let old := r.foldl (fun a b => if b.sent < a.sent then b else a) c
      let d1 := d.advance (old.sent + d.fld F.elkCfg_ctrlTmo * tickUs)
      if old.retries < d.fld F.elkCfg_ctrlRetry then
        (d1.setElink l { x with ctrls := x.ctrls.map (fun y => if y.rseq = old.rseq then { y with sent := d1.now, retries := y.retries + 1 } else y) }).send
          (.element l 5 [old.op, old.rseq, old.first, old.count])
      else (d1.setFlag (F.elkLinkErr_ctrlTmo l) true).loseLink l 3)

/-! ### Training -/

/-- The codes of a link's elements that economy mode or a blank holds, sent again as the link comes up (R26, R133). -/
def Dev.resendHeld (d : Dev) (l : Nat) : Dev :=
  (d.driveElems.filter (fun e => linkOf e = l)).foldl (fun d e =>
    let x := d.loop e
    if x.susp.blanked then d.blankElement e (d.attMaxCode e)
    else if x.susp.parked then (d.setLoop e { x with code := 0 }).queueCode e 0 else d) d

/-- The link is up (state 6): its ready bit, event 0x0212, source cleared; moves that waited for it after a warm restart
begin (R84). -/
def Dev.linkUp (d : Dev) (l : Nat) : Dev :=
  let d1 := (d.enterState l 6).setBitAt R.cpxReady0 l true
  let d2 := (d1.setElink l { d1.elink l with everUp := true }).event 0x0212 l (le 2 (d1.fld (F.elkLinkDelay_delay l)))
  let d3 := d2.clearLevel l
  let all := (List.range 32).all (fun k => !d3.bitAt R.elkLinkEn k || d3.linkReady k)
  let d4 := if all then { d3 with hst := { d3.hst with warm := false } } else d3
  (d4.resendHeld l).beginDeferred

/-- The median of the ECHO delays. -/
def echoMedian (l : List Nat) : Nat :=
  let s := l.foldl (fun acc x => acc.filter (fun y => decide (y ≤ x)) ++ x :: acc.filter (fun y => decide (x < y))) []
  s[(s.length - 1) / 2]?.getD 0

/-- LINK_TRAIN_STEP (R256): the exit condition of the present state holds. In state 1 the row says that block lock has been
obtained. A link is up once `trn` is set (R77, Table 3-4). -/
def Dev.trainLink (d : Dev) (l : Nat) : Dev :=
  let x := d.elink l
  if !d.bitAt R.elkLinkEn l || x.retryAt.isSome then d
  else match d.linkState l with
    | 0 => d.enterState l 1
    | 1 => d.enterState l 2
    | 2 => if x.serial.isSome && x.ctrls = [] then d.enterState l 3 else d
    | 3 =>
      if x.echoes.length < 16 then d
      else
        let m := echoMedian x.echoes
        let d1 := d.setFld (F.elkLinkDelay_delay l) m
        if 25000 < m * 80 then d1.refuseLink l 3 else d1.enterState l 4
    | 4 => if 16 ≤ x.good then d.enterState l 5 else d
    | 5 => if x.read < x.channels then pumpReads l 8 d else if d.flag F.cpxReady1_trn then d.linkUp l else d
    | _ => d

/-- LINK_TRAIN_STEP (R256). -/
def execLinkTrainStep (l : Nat) (s : State) : Host.Outcome State Fault Refusal := commitIf (okLink l) "link" s (s.dev.trainLink l)

/-- LINK_RETRY_TIMER (R256). -/
def execLinkRetryTimer (l : Nat) (s : State) : Host.Outcome State Fault Refusal :=
  commitIf (okLink l) "link" s (
    match (s.dev.elink l).retryAt with
    | some t => if s.dev.bitAt R.elkLinkEn l then (s.dev.advance t).enterState l 1 else s.dev
    | none => s.dev)

/-- LINK_LATE (R258): `late_max` frames masked in a row. -/
def execLinkLate (l : Nat) (s : State) : Host.Outcome State Fault Refusal :=
  commitIf (okLink l) "link" s (
    let d := s.dev
    let x := d.elink l
    if d.linkReady l && decide (d.fld F.elkCfg_lateMax ≤ x.masked) then
      (((d.setElink l { x with masked := 0 }).setFlag (F.elkLinkErr_late l) true).event 0x0211 l (le 4 (d.frame % 2 ^ 32))).raise (32 + l)
    else d)

/-! ### Answers -/

/-- IDENT's result (Table 10-5). -/
def Dev.takeIdent (d : Dev) (l : Nat) (b : Bytes) : Dev :=
  let d1 := ((d.setRegN (R.elkFeIdLo l) (rd b 0 4)).setRegN (R.elkFeIdHi l) (rd b 4 4)).setFld (F.elkFeInfo_driveChannels l) (rd b 9 1)
  let d2 := (d1.setFld (F.elkFeInfo_fastChannelCapacity l) (rd b 11 1)).setFld (F.elkFeInfo_fullScalePower l) (rd b 12 2)
  let d3 := d2.setElink l { d2.elink l with serial := some (rd b 0 8), channels := min 192 (rd b 9 1) }
  if rd b 8 1 = 1 ∧ 4 ≤ rd b 11 1 ∧ rd b 10 1 ≤ 32 ∧ 1 ≤ rd b 9 1 ∧ rd b 9 1 ≤ 192 then d3.checkSerial l (rd b 0 8)
  else (d3.setElink l { d3.elink l with serial := none }).refuseLink l 1

/-- One code read back (R79, R80): the loop starts from it; after a cold start a switch cell or VOA at a code other than 0
is adopted. -/
def Dev.takeCode (d : Dev) (l ch code : Nat) : Dev :=
  let el := 192 * l + ch
  let x := d.loop el
  let k := d.rtp.map.kind el
  let adopt := !(d.elink l).everUp && !d.hst.warm && (k = 1 || k = 2) && decide (code ≠ 0) && !d.inCircuit el
  let d1 := { d with lpc := { d.lpc with applied := tput (fun _ => 0) d.lpc.applied el code } }
  if x.inSluice then d1
  else if adopt then d1.adopt el code
  else d1.setLoop el { x with code := code, out := Frac.ofInt code, start := some ⟨code, none⟩ }

/-- A RESP whose CTRL is outstanding (R248, R255): `rt` is the time in bit times from the CTRL's last bit to its first. -/
def Dev.takeResp (d : Dev) (l : Nat) (c : CtrlOut) (b : Bytes) (rt : Nat) : Dev :=
  let x := d.elink l
  let d1 := d.setElink l { x with ctrls := x.ctrls.filter (fun y => y.rseq ≠ c.rseq) }
  let res := b.drop 16
  if rd b 8 1 ≠ 0 then (if d.linkState l = 2 then d1.refuseLink l 1 else d1)
  else match c.op with
    | 0x01 => d1.takeIdent l res
    | 0x02 =>
      let y := d1.elink l
      pumpEchoes l 8 (d1.setElink l { y with echoes := y.echoes ++ [(rt - rd res 0 4) / 2] })
    | _ =>
      let d2 := (List.range c.count).foldl (fun d k => d.takeCode l (c.first + k) (rd res (2 * k) 2)) d1
      let y := d2.elink l
      let left := (List.range c.count).foldl (fun m k => setBit m (c.first + k) false) y.unread
      let d3 := pumpReads l 8 (d2.setElink l { y with read := max y.read (c.first + c.count), unread := left })
      if y.unread ≠ 0 ∧ left = 0 then d3.beginDeferred else d3

/-- A record discarded under R243: counted, `crc`, source 128 + l. -/
def Dev.discardRec (d : Dev) (l : Nat) : Dev :=
  ((d.bumpSat (F.elkCrcCount_discarded l)).setFlag (F.elkLinkErr_crc l) true).raise (128 + l)

/-- RESP_RECEIVED (R255). -/
def execRespReceived (l : Nat) (r : WireRec) (rt : Nat) (s : State) : Host.Outcome State Fault Refusal :=
  commitIf (okLink l) "link" s (
    let d := s.dev
    let b := r.bytes
    if !recOk b 32 0xC3 then d.discardRec l
    else match (d.elink l).ctrls.find? (fun c => c.rseq = rd b 2 2 && c.op = rd b 1 1) with
      | some c => d.takeResp l c b rt
      | none => d)

/-! ### Samples -/

/-- The lower edge of bracket `b`, 1 to 15, in 0.01 °C (R139). -/
def Dev.bracketEdge (d : Dev) (b : Nat) : Int :=
  signed 8 (d.fld F.trnBracketCfg_base) * 100 + ((b : Int) - 1) * (d.fld F.trnBracketCfg_width : Int) * 25

/-- The bracket of a link at temperature `t`, from bracket `cur`, with hysteresis (R139). -/
def Dev.bracketFor (d : Dev) (cur : Nat) (t : Int) : Nat :=
  let h : Int := (d.fld F.trnBracketCfg_hyst : Int) * 5
  let up := ((List.range 16).filter (fun b => decide (cur < b) && decide (d.bracketEdge b + h ≤ t))).foldl max cur
  if cur < up then up
  else ((List.range 16).filter (fun b => decide (b < cur) && decide (t ≤ d.bracketEdge (b + 1) - h))).foldl min cur

/-- The PIC temperature of a link (R139): the bracket follows it, event 0x0306, the window moves with it (R229), evicted loops of the link are
restored (R227), and the calendar is checked again (R158). -/
def Dev.takeTemp (d : Dev) (l raw : Nat) : Dev :=
  if raw = 0x8000 then d.setFlag (F.trnLinkStat_tempStale l) true
  else
    let t := signed 16 raw
    let d1 := (d.setFlag (F.trnLinkStat_tempStale l) false).setFld (F.trnLinkStat_picTemp l) raw
    let x := d1.elink l
    let d2 := if d1.now < x.tempAt + tickS then d1 else d1.setElink l { x with tempWas := t, tempAt := d1.now, falling := decide (t < x.tempWas) }
    let was := d.bracket l
    let now := d.bracketFor was t
    if now = was then d2
    else
      let d3 := (d2.setFld (F.trnLinkStat_bracket l) now).setElink l { d2.elink l with leftBracket := was }
      let d4 := (d3.event 0x0306 l (le 1 now ++ le 2 raw)).moveWindow l
      ((d4.driveElems.filter (fun e => linkOf e = l)).foldl Dev.requestRestore d4).recheckCalendar

/-- What the front-end reports of the unit it obeys (R262): `rejected`, event 0x0214, source 64 + l; the unit of a pair
withdraws. -/
def Dev.takeRank (d : Dev) (l : Nat) (obeying : Bool) (termSeen unitSeen : Nat) : Dev :=
  let bad := d.claims && obeying && outranks termSeen unitSeen d.term d.unit
  let d1 := (d.setBitAt R.elkRejected l bad).setFlag (F.elkLinkStat_rejected l) bad
  if bad && !d.bitAt R.elkRejected l then
    let d2 := (d1.event 0x0214 l (le 2 termSeen ++ le 1 unitSeen)).raise (64 + l)
    if d2.twinMode then d2.withdraw termSeen else d2
  else d1

/-- `fe_stat` of a record (Table 10-7): `fe_power` sets or clears source 96 + l, with event 0x0215. -/
def Dev.takeFeStat (d : Dev) (l stat : Nat) : Dev :=
  let was := bit (d.fld (F.elkLinkStat_feStat l)) 4
  let now := bit stat 4
  let d1 := d.setFld (F.elkLinkStat_feStat l) stat
  if was = now then d1
  else
    let d2 := if now then d1.setFlag (F.elkLinkErr_fePower l) true else d1
    (d2.event 0x0215 l (le 1 (b2n now))).level (96 + l) now

/-- A port's output tap has been read in frame n: above ceiling + `trip_margin`, the frame counts (R133). -/
def Dev.countOver (d : Dev) (p : Nat) : Dev :=
  let ceil := signed 16 (d.fld (F.rtpCeiling_ceiling p))
  let x := tget (fun _ => (0, 0)) d.rtp.overs p
  let n := if ceil + (d.rtp.map.tripMargin : Int) < d.outReading p then ((if x.2 = d.frame then x.1 else 0) + 1, d.frame + 1) else (0, 0)
  { d with rtp := { d.rtp with overs := tput (fun _ => (0, 0)) d.rtp.overs p n } }

/-- The ports whose output tap part `p` of link `l` carries. -/
def Dev.portsOf (d : Dev) (l p : Nat) : List Nat :=
  (List.range d.rtp.map.ports).filter (fun n => match d.rtp.map.port n with
    | some r => decide (6144 ≤ r.outTap) && linkOf r.outTap = l && partOf r.outTap = p
    | none => false)

/-- The taps of part `p` written (Table 10-6), into the buffer of the frame's parity, which the loop engines do not read meanwhile (R17). -/
def Dev.takeTaps (d : Dev) (l p : Nat) (b : Bytes) : Dev :=
  let odd := rd b 2 2 % 2
  let d0 := d.setElink l { d.elink l with parity := setBit (d.elink l).parity p (decide (odd = 1)) }
  let d1 := (List.range 48).foldl (fun d j =>
    let el := 192 * l + 48 * p + j
    { d with lpc := { d.lpc with samples := tput (fun _ => (0, 0)) d.lpc.samples (2 * el + odd) (rd b (8 + 4 * j) 2, rd b (10 + 4 * j) 2) } }) d0
  let d2 := (List.range 8).foldl (fun d j =>
    { d with lpc := { d.lpc with taps := tput (fun _ => 0) d.lpc.taps (2 * (6144 + 32 * l + 8 * p + j) + odd) (rd b (200 + 2 * j) 2) } }) d1
  (d2.portsOf l p).foldl Dev.countOver d2

/-- Light on the circuit of a detected gap (R231): the step on it is stopped and its result discarded. -/
def Dev.lightReturns (d : Dev) (n : Nat) : Dev :=
  if !d.cal.detected.any (fun x => x.1 = n) then d
  else
    let els := match d.circuit n with | some c => d.circuitElems c | none => []
    let d1 := { d with cal := { d.cal with detected := d.cal.detected.filter (fun x => x.1 ≠ n) } }
    sluiceNumbers.foldl (fun d s => match (d.sluice s).cur with
      | some g => if g.oid = none && !g.rake && els.contains g.el then d.stopSluice s none else d
      | none => d) d1

/-- `dark` of one circuit brought up to date (Table 5-9): event 0x0205 on a change; where light appears, evicted loops of
the path are restored (R227). -/
def Dev.updateDark (d : Dev) (n : Nat) (c : Circuit) : Dev :=
  match d.rtp.map.port c.inPort with
  | none => d
  | some p =>
    let v := d.tapDbm p.inTap
    let dark := Frac.lt v (Frac.mk2 d.rtp.map.darkThr 100)
    if dark = c.dark then d
    else
      let d1 := (d.setCircuit n { c with dark := dark, darkAt := if dark then d.now else c.darkAt }).event 0x0205 n (le 2 (pattern 16 (centi v)))
      if dark then d1 else ([d.voaOf c.outPort].foldl Dev.requestRestore d1).lightReturns n

/-- What follows once a link is ready for the frame (R251): the dark flags of the circuits whose input tap it carries, and
restores where light appears on an evicted switch cell (R227). -/
def Dev.linkArrived (d : Dev) (l : Nat) : Dev :=
  let d1 := d.setElink l { d.elink l with ready := true, readyAt := d.now }
  let mine := d1.rtp.circuits.filter (fun x => match d1.rtp.map.port x.2.inPort with | some p => linkOf p.inTap = l | none => false)
  let d2 := mine.foldl (fun d x => d.updateDark x.1 x.2) d1
  let lit := d2.driveElems.filter (fun e => linkOf e = l && d2.rtp.map.kind e = 1 && (d2.loop e).evicted &&
    (let (a, b) := d2.taps e; Frac.le (d2.coef (d2.loop e).set 5) (Frac.add a b)))
  lit.foldl Dev.requestRestore d2

/-- Every part of the frame has been received or lost, and every closing FASTUP whose last sample precedes the strobe: the link is ready
(R251). -/
def Dev.checkParts (d : Dev) (l : Nat) : Dev :=
  let x := d.elink l
  if Nat.lor x.gotParts x.lostParts = 15 ∧ !x.ready ∧ !x.fastOpen.any (fun f => decide (f.2 ≤ d.lpc.strobeAt)) then d.linkArrived l else d

/-- A part lost under R243: the next that was due. -/
def Dev.losePart (d : Dev) (l : Nat) : Dev :=
  let x := d.elink l
  match (List.range 4).find? (fun p => !bit (Nat.lor x.gotParts x.lostParts) p) with
  | some p => (((d.setElink l { x with lostParts := setBit x.lostParts p true }).setFld (F.elkLateCount_lost l)
      (d.fld (F.elkLateCount_lost l) + 1))).checkParts l
  | none => d

/-- A SAMPLES part of this frame (R249, R251). -/
def Dev.takePart (d : Dev) (l : Nat) (b : Bytes) : Dev :=
  let fl := rd b 1 1
  let p := fl % 4
  let x := d.elink l
  let stat := rd b 220 2
  let d1 := ((d.setElink l { x with gotParts := setBit x.gotParts p true, silent := 0 }).setFlag (F.elkLinkStat_port l) (bit fl 2))
  let d2 := ((d1.setFlag (F.elkLinkStat_unitSeen l) (bit fl 3)).setFlag (F.elkLinkStat_obeying l) (bit fl 4)).setFld
    (F.elkLinkStat_termSeen l) (rd b 218 2)
  let d3 := ((d2.setFld (F.elkCrcCount_dnErr l) (rd b 222 2)).takeTaps l p b).takeTemp l (rd b 216 2)
  ((d3.takeFeStat l (stat % 256)).takeRank l (bit fl 4) (rd b 218 2) (b2n (bit fl 3))).checkParts l

/-- SAMPLES_RECEIVED (R243, R251): a part of another frame, or one already received, is discarded. -/
def execSamplesReceived (l : Nat) (r : WireRec) (s : State) : Host.Outcome State Fault Refusal :=
  commitIf (okLink l) "link" s (
    let d := s.dev
    let b := r.bytes
    let x := d.elink l
    if d.linkState l < 2 ∨ x.retryAt.isSome then d
    else if !recOk b 224 0x4B then (d.discardRec l).losePart l
    else if b2n (bit (rd b 1 1) 2) ≠ d.unit then
      (((d.setFlag (F.elkLinkStat_port l) (bit (rd b 1 1) 2)).setBitAt R.cpxReady0 l false).refuseLink l 2).freeLinkSluices l
    else if d.linkState l < 4 ∨ rd b 2 2 ≠ d.frame % 65536 ∨ bit x.gotParts (rd b 1 1 % 4) then d
    else d.takePart l b)

/-- FASTUP_RECEIVED (Table 10-8): the last 8 fast-mode samples of the channel are kept, newest first. One with `last` closes the channel's stream,
which a link's readiness may wait for (R251). -/
def execFastupReceived (l : Nat) (r : WireRec) (s : State) : Host.Outcome State Fault Refusal :=
  commitIf (okLink l) "link" s (
    let d := s.dev
    let b := r.bytes
    if !recOk b 24 0x55 || decide (191 < rd b 1 1) then d.discardRec l
    else
      let el := 192 * l + rd b 1 1
      let n := rd b 2 2 / 4096 % 4 + 1
      let new := (List.range n).map (fun k => (rd b (8 + 4 * k) 2, rd b (10 + 4 * k) 2))
      let old := (aget d.trn.fast el).getD []
      let d1 := { d with trn := { d.trn with fast := aput d.trn.fast el ((new.reverse ++ old).take 8) } }
      if bit (rd b 2 2) 15 then
        (d1.setElink l { d1.elink l with fastOpen := (d1.elink l).fastOpen.filter (fun f => f.1 ≠ rd b 1 1) }).checkParts l
      else d1)

/-! ### Enable and drain (R256, R259) -/

/-- The work of a link that drains: waiting elements withdrawn, its sluices stopped at the end of their segments, its moves
refused. -/
def Dev.drainMoves (d : Dev) (l : Nat) : Dev :=
  let hit := d.rtp.moves.filter (fun m => m.fire.isSome && !m.deferred && m.elems.any (fun x => linkOf x.el = l && decide (x.phase ≤ 3)))
  let d1 := d.dropGrants (fun e => linkOf e = l)
  let d2 := hit.foldl (fun d m => match d.findMove m.oid with
    | some m => d.setMove { m with refused := true, elems := m.elems.map (fun x =>
        if linkOf x.el = l && decide (x.phase ≤ 2) && !x.started then { x with phase := 5 } else x) }
    | none => d) d1
  let d3 := { d2 with trn := { d2.trn with rakes := d2.trn.rakes.filter (fun r => linkOf r.el ≠ l) } }
  let d4 := sluiceNumbers.foldl (fun d s => match (d.sluice s).cur with
    | some g => if g.link = l then d.stopSluice s none else d
    | none => d) d3
  (hit.foldl (fun d m => (d.checkSettled m.oid).checkMove m.oid) d4).recheckCalendar

/-- A draining link with nothing left on it stops (R259). -/
def Dev.checkLinkDrained (d : Dev) (l : Nat) : Dev :=
  let busy := sluiceNumbers.any (fun s => (match (d.sluice s).cur with | some g => g.link = l | none => false) ||
    (d.sluice s).ended.any (fun e => linkOf e = l))
  if d.linkState l = 7 && !busy then (d.enterState l 0).setBitAt R.elkDrained l true else d

/-- `en` of a link cleared (R259, Table 10-12). -/
def Dev.linkOff (d : Dev) (l : Nat) : Dev :=
  if !d.bitAt R.elkLinkEn l then d
  else
    let d1 := d.setBitAt R.elkLinkEn l false
    if d.linkState l = 6 then
      let d2 := (d1.setBitAt R.cpxReady0 l false).setFld (F.elkLinkStat_state l) 7
      (d2.drainMoves l).checkLinkDrained l
    else (d1.enterState l 0).setBitAt R.elkDrained l true

/-- `en` of a link set (R256). -/
def Dev.linkOn (d : Dev) (l : Nat) : Dev :=
  if d.bitAt R.elkLinkEn l then d
  else ((d.setBitAt R.elkLinkEn l true).setBitAt R.elkDrained l false).enterState l 1

/-- LINK_DISABLE (R259). -/
def execLinkDisable (l : Nat) (s : State) : Host.Outcome State Fault Refusal := commitIf (okLink l) "link" s (s.dev.linkOff l)

/-- LINK_ENABLE (R256). -/
def execLinkEnable (l : Nat) (s : State) : Host.Outcome State Fault Refusal := commitIf (okLink l) "link" s (s.dev.linkOn l)

/-! ### The frame -/

/-- The STROBE of a link carries `claim` 1: this unit claims, its claim has come to the switching strobe, and device safe has not
silenced it (R245, R392, R425). -/
def Dev.strobeClaims (d : Dev) : Bool :=
  d.claims && !d.flt.silent && (match d.twn.switchAt with | some t => decide (t ≤ d.now) | none => true)

/-- The frame of a link closed at a strobe: training's good frames, frames without a part, and the STROBE that announced
this strobe (R245). -/
def Dev.closeLinkFrame (d : Dev) (l : Nat) : Dev :=
  let x := d.elink l
  let st := d.linkState l
  if st < 4 then d
  else
    let whole := decide (x.gotParts = 15) && bit (d.fld (F.elkLinkStat_feStat l)) 0
    let d1 := d.setElink l { x with good := if whole then x.good + 1 else 0, silent := if x.gotParts = 0 then x.silent + 1 else 0,
                                    gotParts := 0, lostParts := 0, ready := false,
                                    fastOpen := x.fastOpen.filter (fun f => decide (d.now < f.2 + tickFrame)) }
    let lead := 31250 - Config.strobeEnd l d.frame % 28238 - d.fld (F.elkLinkDelay_delay l)
    (d1.setFld (F.elkLinkDelay_lead l) lead).send (.element l 0 [d.frame % 2 ^ 32, d.term, b2n d.strobeClaims, lead, d.unit])

/-- The read-back of a claim begins at the switching strobe (R425, R426): READ_CODES for every channel of every link that is
up. -/
def Dev.switchStrobe (d : Dev) : Dev :=
  match d.twn.switchAt with
  | some t =>
    if t ≤ d.now then
      (List.range 32).foldl (fun d l => if (d.elink l).unread ≠ 0 then pumpReads l 8 (d.setElink l { d.elink l with read := 0 }) else d)
        { d with twn := { d.twn with switchAt := none } }
    else d
  | none => d

end Sys2Proof.Machine
end

