-- ==== Sys2Proof/Machine/LpcCmds.lean ====
section
/-! DEFINITION. The loop cluster's commands: bindings and setpoints (R190, R191), swaps (R187 to R192), owner laws (R205,
R209 to R214, R216), trace and harvest (R193 to R195). -/

namespace Sys2Proof.Machine

/-! ### Bindings and setpoints -/

/-- The law kind of a slot (R200). -/
def Dev.slotKind (d : Dev) (slot : Nat) : Nat := d.fld (F.lpcSlotInfo_kind slot)

/-- A slot is empty: length 0 (R200). -/
def Dev.slotEmpty (d : Dev) (slot : Nat) : Bool := d.fld (F.lpcSlotInfo_len slot) = 0

/-- A drive element of the map. -/
def Dev.isDrive (d : Dev) (el : Nat) : Bool := decide (el < 6144) && decide (1 ≤ d.rtp.map.kind el) && decide (d.rtp.map.kind el ≤ 3)

/-- A loop given a law slot and a set (R190): the start of the LOOP_BIND row of Table 7-6, and its place among the blocks. -/
def Dev.rebind (d : Dev) (el slot set : Nat) : Dev :=
  let d1 := d.unplaceLoop el
  let x := d1.loop el
  (d1.setLoop el { x with slot := slot, set := set, bindDue := none, start := some ⟨x.code, some x.eLast⟩ }).placeLoop el

/-- The engines hold what the bindings that wait and this one make of the load, evicted loops restored (R214). -/
def Dev.bindFits (d : Dev) (el slot set : Nat) : Bool :=
  let due := (d.lpc.loops.filterMap (fun (x : Nat × Loop) => x.2.bindDue.map (fun b => (x.1, b)))).filter (fun b => b.1 ≠ el) ++ [(el, slot, set)]
  let d1 := due.foldl (fun d b => (d.setLoop b.1 { d.loop b.1 with evicted := false }).rebind b.1 b.2.1 b.2.2) d
  due.all (fun b => (d1.placeOf b.1).isSome)

/-- LOOP_BIND (Table 7-7, R190, R214). -/
def bodyLoopBind (d : Dev) (c : Call) : Dev × Verdict :=
  let b := c.packet.cmd.payload
  let el := rd b 0 2
  let slot := rd b 2 1
  let set := rd b 4 2
  if rd b 3 1 ≠ 0 ∨ rd b 6 2 ≠ 0 ∨ !d.isDrive el ∨ 63 < slot ∨ 0x0FFE < set then refuse d St.badParam
  else if d.slotEmpty slot ∨ d.slotKind slot ≠ d.rtp.map.kind el - 1 ∨ !d.setFilled set then refuse d St.badParam
  else if !d.linkReady (linkOf el) then refuse d St.notReady
  else if d.inSluice el ∨ d.claimed el then refuse d St.conflict
  else if decide (48 ≤ slot) && !d.bindFits el slot set then refuse d St.refused
  else ((d.setLoop el { d.loop el with bindDue := some (slot, set) }).requestRestore el, .final St.done [])

/-- SETPOINT_SET (R191). -/
def bodySetpointSet (d : Dev) (c : Call) : Dev × Verdict :=
  let b := c.packet.cmd.payload
  let el := rd b 0 2
  let w := BitVec.ofNat 32 (rd b 4 4)
  let slot := (d.loop el).slot
  if rd b 2 2 ≠ 0 ∨ !d.isDrive el ∨ slot = 0xFF ∨ slot = 1 then refuse d St.badParam
  else if slot = 0 ∧ Frac.lt (Frac.mk2 1 10) (coefValue w).abs then refuse d St.badParam
  else if !d.linkReady (linkOf el) then refuse d St.notReady
  else ((d.setLoop el { d.loop el with operandDue := some w }).requestRestore el, .final St.done [])

/-- The bindings and setpoints that take effect at a strobe; a setpoint of an element in a sluice waits for its hand-back (R191). -/
def Dev.applyBinds (d : Dev) : Dev :=
  let due := (d.lpc.loops.filter (fun (x : Nat × Loop) => x.2.bindDue.isSome || x.2.operandDue.isSome)).map (fun x => x.1)
  due.foldl (fun d el =>
    let x := d.loop el
    let d1 := match x.operandDue with
      | some w => if x.inSluice then d else d.setLoop el { x with operand := w, operandDue := none }
      | none => d
    match x.bindDue with
    | some (slot, set) => d1.rebind el slot set
    | none => d1) d

/-- LOOP_QUERY's record of one element (Table 7-9). -/
def Dev.loopRecord (d : Dev) (el : Nat) : Bytes :=
  let x := d.loop el
  let (e, b, l) := match d.placeOf el with | some p => p | none => (0xFF, 0, 0)
  le 2 el ++ le 1 x.slot ++ le 1 e ++ le 1 b ++ le 1 l ++ le 2 x.set ++ le 2 x.code ++ le 1 (x.bits.foldl min 23) ++ le 1 0 ++
    le 4 x.flags ++ le 4 (coefWord x.eLast).toNat ++ le 4 (coefWord (extValue x.i)).toNat ++ le 4 (coefWord x.target).toNat ++ le 4 0

/-- LOOP_QUERY (R192). -/
def bodyLoopQuery (d : Dev) (c : Call) : Dev × Verdict :=
  let p := c.packet.cmd.payload
  let first := rd p 16 2
  let n := rd p 18 2
  if n = 0 ∨ 1024 < n ∨ 6144 < first + n then refuse d St.badParam
  else if !((List.range n).all (fun j => !d.isDrive (first + j) || d.linkReady (linkOf (first + j)))) then refuse d St.notReady
  else (d, .final St.done ((List.range n).flatMap (fun j => d.loopRecord (first + j))))

/-! ### Coefficient swaps -/

/-- The words c0 to c7 of entry `k` of a COEF_SWAP. -/
def swapWords (p : Bytes) (k : Nat) : List Word :=
  (List.range 8).map (fun j => BitVec.ofNat 32 (rd p (16 + 36 * k + 4 + 4 * j) 4))

/-- COEF_SWAP (Table 7-8, R192): the shadow copies are written, and the swap waits for its boundary. An `at_frame` of 0 or
one already reached is the first frame after acceptance. -/
def bodyCoefSwap (d : Dev) (c : Call) : Dev × Verdict :=
  let p := c.packet.cmd.payload
  let n := rd p 0 2
  let at_ := rd p 8 8
  let sets := (List.range n).map (fun k => rd p (16 + 36 * k) 2)
  if n = 0 ∨ 27 < n ∨ p.length ≠ 16 + 36 * n ∨ rd p 2 6 ≠ 0 then refuse d St.badParam
  else if d.frame + 400000 < at_ ∨ sets.any (fun s => decide (0x10FF < s)) ∨ sets.eraseDups.length ≠ n ∨
      (List.range n).any (fun k => rd p (18 + 36 * k) 2 ≠ 0 || !validSet (swapWords p k)) then refuse d St.badParam
  else if d.lpc.swaps.any (fun s => s.sets.any sets.contains) then refuse d St.conflict
  else
    let shadow := (List.range n).foldl (fun t k => tput (fun _ => []) t (rd p (16 + 36 * k) 2) (swapWords p k)) d.lpc.shadow
    let due : SwapDue := ⟨c.oid, if at_ ≤ d.frame then d.frame + 1 else at_, sets.any (fun s => decide (0x1000 ≤ s)), sets⟩
    let d1 := { d with lpc := { d.lpc with shadow := shadow, swaps := d.lpc.swaps ++ [due] } }
    let named := (d.lpc.loops.filter (fun (x : Nat × Loop) => x.2.evicted && sets.contains x.2.set)).map (fun x => x.1)
    (named.foldl Dev.requestRestore d1, .accepted [])

/-- The tick of a swap's boundary (R187): a frame strobe, or a period start where it names a power set. -/
def Dev.swapTick (d : Dev) (s : SwapDue) : Nat :=
  let t := max (d.frameTick s.atFrame) d.now
  if s.power then
    let p := d.periodTicks
    d.cmu.start + (t - d.cmu.start + p - 1) / p * p
  else d.strobeFrom t

/-- The lanes of the power loops that a set serves. -/
def powerLanesOf (set : Nat) : List Nat :=
  match set with
  | 0x1000 => [0] | 0x1001 => [1] | 0x1002 => (List.range 48).map (· + 3) | 0x1003 => (List.range 48).map (· + 51)
  | 0x1004 => [99] | 0x1005 => [100] | _ => []

/-- One set exchanged for its shadow copy, with the integrators of its loops recomputed (R188). A loop whose set was still
empty starts (R190). -/
def Dev.swapSet (d : Dev) (n : Nat) : Dev :=
  let was := d.setFilled n
  let new := tget (fun _ => []) d.lpc.shadow n
  let dk := Frac.sub (d.coef n 0) (coefValue (new[0]?.getD 0))
  let d1 := { d with lpc := { d.lpc with sets := tput (fun _ => []) d.lpc.sets n new } }
  let bound := (d.lpc.loops.filter (fun (x : Nat × Loop) => x.2.set = n && x.2.slot ≠ 0xFF)).map (fun x => x.1)
  let all := if n = 0x0FFF then [coolerLoop] else bound
  let moved := fun (i : Ext) (g e f : Frac) =>
    extWord (clampI (d1.coef n 2) (d1.coef n 3) f (Frac.add (extValue i) (Frac.mul (Frac.mul g dk) e)))
  let d2 := all.foldl (fun d el =>
    let x := d.loop el
    if !was then d.setLoop el { x with start := some ⟨x.code, some x.eLast⟩ }
    else if x.slot = 2 then d
    else d.setLoop el { x with i := moved x.i (if n = 0x0FFF then Frac.one else d.bank.gain el) x.eLast x.f }) d1
  (powerLanesOf n).foldl (fun d k =>
    let x := d.lane k
    if x.run && was then d.setLane k { x with i := moved x.i Frac.one x.eLast x.f } else d) d2

/-- A swap at its boundary (R187 to R189, Table 7-13). -/
def Dev.applySwap (d : Dev) (s : SwapDue) : Dev :=
  let d1 := (s.sets.foldl Dev.swapSet d).setRegN R.lpcSwapLo d.frame
  let d2 := d1.setRegN R.lpcSwapHi (d.frame / 2 ^ 32)
  let d3 := s.sets.foldl (fun d n => d.event 0x0401 n (le 8 d.frame)) d2
  ({ d3 with lpc := { d3.lpc with swaps := d3.lpc.swaps.filter (fun x => x.oid ≠ s.oid) } }).finish s.oid St.done (le 8 d.frame)

/-! ### Owner laws -/

/-- Word `i` of a law image. -/
def lawWord (img : Bytes) (i : Nat) : Nat := rd img (32 + 20 * i) 20

/-- Check 3 of Table 8-7 on one word. -/
def wordOk (w : Nat) : Bool :=
  let aop := mw w 3 5
  let least := if aop = 4 ∨ aop = 5 then 1 else if aop = 11 ∨ aop = 12 then 7 else 0
  w / 2 ^ 138 = 0 && mw w 130 3 = 0 && decide (aop ≤ 15) && decide (mw w 23 3 ≤ 3) && (aop ≠ 0 || mw w 23 3 = 0) &&
    decide (mw w 28 4 ≤ 6) && decide (mw w 32 2 ≤ 2) && decide (mw w 34 3 ≤ 4) && decide (mw w 82 4 ≤ 4) &&
    decide (least ≤ mw w 0 3) && (mw w 26 1 = 0 || decide (1 ≤ mw w 0 3))

/-- Where control can go after word `i` of a law of `n` words that begins at `entry`; none where a target lies outside the
law or not after the word, or the law runs out (check 4). -/
def wordNext (n i w : Nat) : Option (List Nat) :=
  let t := mw w 86 12
  let jump := if i < t ∧ t < n then some [t] else none
  let next := if i + 1 < n then some [i + 1] else none
  match mw w 82 4 with
  | 0 => next
  | 1 => jump
  | 4 => some []
  | _ => match jump, next with
    | some a, some b => some (a ++ b)
    | _, _ => none

/-- Check 4 of Table 8-7: targets are given relative to the first word of the law. -/
def lawCheck4 (img : Bytes) (n : Nat) : Bool :=
  n = 0 || ((List.range n).all (fun i => (wordNext n i (lawWord img i)).isSome) &&
    (mw (lawWord img (n - 1)) 82 4 = 4 || mw (lawWord img (n - 1)) 82 4 = 1))

/-- Words of a memory space that a law may load (Table 8-4). -/
def loadable (space : Nat) : Nat := match space with | 0 => 10 | 1 => 8 | 2 => 6 | 3 => 2 | 4 => 6 | _ => 0

/-- Checks 5 and 6 of Table 8-7 on one word. -/
def wordSafe (nState w : Nat) : Bool :=
  let space := mw w 34 3
  let off := mw w 37 8
  let port := match mw w 32 2 with
    | 1 => decide (mw w 45 5 ≠ 31) && decide (off < loadable space)
    | 2 => space = 4 && decide (off < nState)
    | _ => true
  decide (mw w 18 5 ≠ 31) && port

/-- Check 6: flags set or cleared are `dark` and `unobs` only. -/
def wordFlags (w : Nat) : Bool := andNot (mw w 98 16) 0x30 = 0 && andNot (mw w 114 16) 0x30 = 0

/-- For each word from the last back to the first: the greatest body cost to END (R205), and whether every path from it
meets the precision stage of v28 in a word before END (check 7). -/
def lawPaths (img : Bytes) (n : Nat) : Nat → List (Nat × Bool) → List (Nat × Bool)
  | 0, acc => acc
  | i + 1, acc =>
    let w := lawWord img i
    let own := mw w 0 3 + 1
    let here := mw w 26 1 = 1 && mw w 27 1 = 1 && mw w 18 5 = 28 && mw w 82 4 ≠ 4
    let targets := (wordNext n i w).getD []
    let after := targets.map (fun t => acc[t - i - 1]?.getD (0, false))
    let cost := own + (after.map (fun x => x.1)).foldl max 0
    let good := here || (!after.isEmpty && after.all (fun x => x.2))
    lawPaths img n i ((cost, good) :: acc)

/-- The words of the owner slots' laws: first word and length. -/
def Dev.ownerSlots (d : Dev) : List (Nat × Nat) :=
  ((List.range 16).map (fun i => (d.fld (F.lpcSlotInfo_entry (48 + i)), d.fld (F.lpcSlotInfo_len (48 + i))))).filter (fun x => x.2 ≠ 0)

/-- Words of the owner region in use: the owner slots and the laws that wait. -/
def Dev.ownerUse (d : Dev) : List (Nat × Nat) :=
  d.ownerSlots ++ d.lpc.laws.map (fun l => (l.base, l.words.length))

/-- The first run of `n` free words of the owner region (check 10). -/
def Dev.ownerSpace (d : Dev) (n : Nat) : Option Nat :=
  let use := d.ownerUse
  ((List.range (1025 - n)).map (· + 3072)).find? (fun b => use.all (fun u => decide (b + n ≤ u.1) || decide (u.1 + u.2 ≤ b)))

/-- Words of the owner region in use. -/
def Dev.ownerWords (d : Dev) : Nat := (d.ownerUse.map (fun x => x.2)).foldl (· + ·) 0

/-- Loops bound to a slot. -/
def Dev.boundTo (d : Dev) (slot : Nat) : Nat := (d.lpc.loops.filter (fun (x : Nat × Loop) => x.2.slot = slot)).length

/-- The first failed check of Table 8-7 with its status; none where the law is accepted. -/
def Dev.lawCheck (d : Dev) (p img : Bytes) : Option (Nat × Nat) :=
  let len := rd p 8 4
  let slot := rd p 12 1
  let n := rd img 8 2
  let kind := rd img 6 1
  let signed_ := match d.hst.ownerKey with | some k => Config.ecdsaVerify k img ((p.drop 16).take 96) | none => false
  let head := rd p 0 8 % 4 = 0 && decide (slot ≤ 63) && rd p 13 3 = 0 && rd img 0 4 = 0x57414C4C && rd img 4 2 = 1 && rd img 7 1 = slot &&
    decide (n ≤ 512) && decide (rd img 12 1 ≤ 6) && rd img 13 3 = 0 && rd img 24 8 = 0 && len = 32 + 20 * n && (kind = 0 || kind = 2 || kind = 3)
  let words := (List.range n).map (lawWord img)
  let paths := lawPaths img n n []
  let cost := if n = 0 then 0 else (match paths with | x :: _ => x.1 + 18 | [] => 0)
  let most := if kind = 3 then 200 else 120
  if !signed_ then some (1, St.refused)
  else if !head then some (2, St.badParam)
  else if !words.all wordOk then some (3, St.badParam)
  else if !lawCheck4 img n then some (4, St.badParam)
  else if !words.all (wordSafe (rd img 12 1)) then some (5, St.badParam)
  else if !words.all wordFlags then some (6, St.badParam)
  else if n ≠ 0 ∧ !(match paths with | x :: _ => x.2 | [] => true) then some (7, St.badParam)
  else if rd img 10 2 ≠ cost ∨ most < cost then some (8, St.badParam)
  else if d.boundTo slot ≠ 0 ∧ (kind ≠ d.slotKind slot ∨ n = 0) then some (9, St.conflict)
  else if (d.ownerSpace n).isNone then some (10, St.refused)
  else if d.lpc.laws.any (fun l => l.slot = slot) then some (11, St.conflict)
  else none

/-- A word of the master image as the digest takes it (R216): a free word, which no slot of the directory holds, is 0. -/
def Dev.digestWord (d : Dev) (i : Nat) : Nat :=
  if i < 3072 ∨ d.ownerSlots.any (fun u => decide (u.1 ≤ i) && decide (i < u.1 + u.2)) then tget (fun _ => 0) d.lpc.ucode i else 0

/-- The microcode digest (R216) brought up to date: the directory and the 4096 words of the master image. -/
def Dev.ucodeDigest (d : Dev) : Dev :=
  let dir := (List.range 64).flatMap (fun s => le 8 (d.fld (F.lpcSlotInfo_entry s) + 2 ^ 12 * d.fld (F.lpcSlotInfo_len s) +
    2 ^ 24 * d.fld (F.lpcSlotInfo_kind s) + 2 ^ 32 * d.slotCost s))
  let h := Config.sha384 (dir ++ (List.range 4096).flatMap (fun i => le 20 (d.digestWord i)))
  (List.range 12).foldl (fun d i => d.setRegN (R.lpcUcodeDigest i) (h / 2 ^ (32 * i) % 2 ^ 32)) d

/-- The record of a slot in the NV store; empty for none. -/
def Dev.lawRecordOf (d : Dev) (slot : Nat) : Bytes := ((d.hst.lawStore.find? (fun x => x.1 = slot)).map (fun x => x.2)).getD []

/-- The words of a law in the store: jump targets are word addresses (Table 8-1). -/
def storedWord (base w : Nat) : Nat :=
  if mw w 82 4 = 1 ∨ mw w 82 4 = 2 ∨ mw w 82 4 = 3 then w + base % 4096 * 2 ^ 86 else w

/-- Free words of the owner region shown (Table 8-10). -/
def Dev.showOwner (d : Dev) : Dev := d.setFld F.lpcUcodeStat_freeWords (1024 - d.ownerWords)

/-- Words put in the store from `base` on. -/
def putWords : List Nat → Nat → Table Nat → Table Nat
  | [], _, t => t
  | w :: r, b, t => putWords r (b + 1) (tput (fun _ => 0) t b w)

/-- The owner-law record of the NV store (R211, Tables 15-2 and 15-3): image, signature and slot. -/
def lawRecord (slot : Nat) (img sig : Bytes) : Bytes := recBytes ⟨6, slot, img ++ sig ++ le 4 slot⟩

/-- LAW_LOAD (Table 8-6, R209 to R211): the law stands in free owner words and in the NV store, and waits for its boundary. -/
def bodyLawLoad (d : Dev) (c : Call) : Dev × Verdict :=
  let p := c.packet.cmd.payload
  let slot := rd p 12 1
  let img := fitBytes (rd p 8 4) c.packet.cmd.image
  if slot < 48 then refuse d St.badParam
  else match d.lawCheck p img with
    | some (k, st) => (d, .final st (le 28 0 ++ le 1 k ++ le 3 0))
    | none =>
      let n := rd img 8 2
      let kind := rd img 6 1
      let base := (d.ownerSpace n).getD 3072
      let words := (List.range n).map (fun i => storedWord base (lawWord img i))
      let law : LawLoad := ⟨c.oid, slot, words, base, kind, rd img 10 2, rd img 16 4, rd img 20 4, Config.sha384 img, d.lawRecordOf slot, 0⟩
      let d1 := { d with lpc := { d.lpc with laws := d.lpc.laws ++ [law], ucode := putWords words base d.lpc.ucode },
                         hst := { d.hst with lawStore := aput d.hst.lawStore slot (lawRecord slot img ((p.drop 16).take 96)) } }
      (d1.showOwner, .accepted [])

/-- The directory's entry of a slot (R200), with law ID and version. -/
def Dev.setSlot (d : Dev) (slot entry len kind cost id ver : Nat) : Dev :=
  let d1 := ((d.setFld (F.lpcSlotInfo_entry slot) entry).setFld (F.lpcSlotInfo_len slot) len).setFld (F.lpcSlotInfo_kind slot) kind
  ((d1.setFld (F.lpcSlotCost_cost slot) cost).setRegN (R.lpcSlotId slot) id).setRegN (R.lpcSlotVer slot) ver

/-- An owner law in force (R211, R212): the old words are freed, loops of the slot go on under the new law with the
LOOP_BIND start, blocks that their engines can no longer carry move (R218), event 0x0405. -/
def Dev.switchLaw (d : Dev) (l : LawLoad) : Dev :=
  let old := (List.replicate (d.fld (F.lpcSlotInfo_len l.slot)) 0)
  let u := putWords old (d.fld (F.lpcSlotInfo_entry l.slot)) d.lpc.ucode
  let d1 := { d with lpc := { d.lpc with ucode := u, laws := d.lpc.laws.filter (fun x => x.oid ≠ l.oid) } }
  let d2 := if l.words = [] then d1.setSlot l.slot 0 0 0xFF 0 l.lawId l.version
    else d1.setSlot l.slot l.base l.words.length l.kind l.cost l.lawId l.version
  let bound := (d2.lpc.loops.filter (fun (x : Nat × Loop) => x.2.slot = l.slot)).map (fun x => x.1)
  let d3 := engines.foldl Dev.trimEngine (bound.foldl (fun d el => let x := d.loop el
                                                                   d.setLoop el { x with start := some ⟨x.code, some x.eLast⟩ }) d2)
  let d4 := ((d3.showOwner).ucodeDigest).event 0x0405 l.slot (le 4 l.lawId ++ le 4 l.version)
  d4.finish l.oid St.done (le 28 l.digest ++ le 1 0 ++ le 1 0 ++ le 2 d4.ownerWords)

/-- The boundary of a law (R211): the next frame strobe, or for a power law the next period start; on a standby the one that the active unit has
named (R213). -/
def Dev.lawTick (d : Dev) (l : LawLoad) : Nat := d.swapTick ⟨0, l.atFrame, decide (l.kind = 3), []⟩

/-- A power law waits while the loops end late (Table 8-8). -/
def Dev.lawWaits (d : Dev) (l : LawLoad) : Bool := decide (l.kind = 3) && decide (d.cmu.lateStreak ≠ 0)

/-- LAW_SWITCH (R211): at the next frame strobe, or period start for kind 3 whose loops end in time. -/
def execLawSwitch (slot : Nat) (s : State) : Host.Outcome State Fault Refusal :=
  commitIf (decide (48 ≤ slot) && decide (slot < 64)) "owner slot" s (
    let d := s.dev
    match d.lpc.laws.find? (fun l => l.slot = slot) with
    | some l => if d.lawWaits l then d else (d.advance (d.lawTick l)).switchLaw l
    | none => d)

/-! ### Trace -/

/-- TRACE_ARM (Table 7-11, R193, R194). -/
def bodyTraceArm (d : Dev) (c : Call) : Dev × Verdict :=
  let p := c.packet.cmd.payload
  let n := rd p 0 1
  let sigs := (List.range n).map (fun j => (⟨rd p (24 + 4 * j) 2, rd p (26 + 4 * j) 1⟩ : TraceSignal))
  let okSig := fun (s : TraceSignal) => decide (s.quantity ≤ 8) &&
    (decide (s.source < 6144) || (decide (0x8000 ≤ s.source) && decide (s.source ≤ 0x8000 + 100)))
  let depth := rd p 4 4
  let kind := rd p 1 1
  if n = 0 ∨ 32 < n ∨ p.length ≠ 24 + 4 * n ∨ 3 < kind ∨ rd p 2 2 ≠ 0 ∨ rd p 20 4 ≠ 0 then refuse d St.badParam
  else if !sigs.all okSig ∨ (List.range n).any (fun j => rd p (27 + 4 * j) 1 ≠ 0) ∨ 2097152 / (8 + 4 * n) < depth ∨ depth < rd p 8 4 ∨
      (kind = 2 ∧ 422 < rd p 12 8) then refuse d St.badParam
  else if d.flag F.lpcTraceStat_harvesting then refuse d St.conflict
  else
    let t : Trace := { signals := sigs, trigKind := kind, trigArg := rd p 12 8, depth := depth, pre := rd p 8 4 }
    let d1 := { d with lpc := { d.lpc with trace := t } }
    let w := d1.traceWatch
    let d2 := { d1 with lpc := { d1.lpc with trace := { t with seen := w, seenBefore := w } } }
    let d3 := (((d2.setReg R.lpcTraceStat 0).setFld F.lpcTraceStat_tstate 1).setFld F.lpcTraceStat_nSig n).setRegN R.lpcTraceCount 0
    (((sigs.filter (fun s => decide (s.source < 6144))).map (fun s => s.source)).foldl Dev.requestRestore d3, .final St.done [])

/-- The trigger condition holds now (Table 7-11): at once, the frame count reached, or a bit that was clear before. -/
def Dev.traceTriggers (d : Dev) : Bool :=
  let t := d.lpc.trace
  let prev := if t.lastFrame = some d.frame then t.seenBefore else t.seen
  if t.trigKind ≤ 1 then d.traceWatch ≠ 0 else andNot d.traceWatch prev ≠ 0

/-- The latest record becomes the trigger record. -/
def markTrigger (l : List Bytes) : List Bytes :=
  match l.reverse with
  | r :: q => (q.reverse) ++ [r.take 6 ++ le 1 (rd r 6 1 + 1) ++ r.drop 7]
  | [] => []

/-- TRACE_TRIGGER (R194): this frame's record, which follows the last block store, is the trigger record; event 0x0D01. -/
def Dev.traceTrigger (d : Dev) : Dev :=
  let t := d.lpc.trace
  let d1 := if t.lastFrame = some d.frame then
      { d with lpc := { d.lpc with trace := { t with records := markTrigger t.records, trigAt := some (t.records.length - 1) } } }
    else { d with lpc := { d.lpc with trace := { t with trigDue := true } } }
  let d2 := { d1 with lpc := { d1.lpc with trace := { d1.lpc.trace with left := t.depth - t.pre - 1 } } }
  (d2.setFld F.lpcTraceStat_tstate 2).event 0x0D01 0 (le 8 d.frame)

/-- TRACE_TRIGGER (R194). -/
def execTraceTrigger (s : State) : Host.Outcome State Fault Refusal :=
  commit s (if s.dev.fld F.lpcTraceStat_tstate = 1 ∧ s.dev.traceTriggers then s.dev.traceTrigger else s.dev)

/-- TRACE_CAPTURE_COMPLETE (R194): event 0x0D02. -/
def execTraceCaptureComplete (s : State) : Host.Outcome State Fault Refusal :=
  commit s (
    let d := s.dev
    if d.fld F.lpcTraceStat_tstate = 2 ∧ d.lpc.trace.left = 0 ∧ d.lpc.trace.trigDue = false then
      (d.setFld F.lpcTraceStat_tstate 3).event 0x0D02 0 (le 4 d.lpc.trace.records.length)
    else d)

/-- TRACE_STOP (R194): what was captured stays for harvest. -/
def bodyTraceStop (d : Dev) (_ : Call) : Dev × Verdict :=
  (if d.tracing then d.setFld F.lpcTraceStat_tstate 3 else d, .final St.done [])

/-- HARVEST (R195): address in [7:0], length in [11:8]. -/
def bodyHarvest (d : Dev) (c : Call) : Dev × Verdict :=
  let p := c.packet.cmd.payload
  let a := rd p 0 8
  let n := rd p 8 4
  if a % 64 ≠ 0 ∨ a < 0x080000000 ∨ 0x280000000 < a + n ∨ rd p 12 4 ≠ 0 then refuse d St.badParam
  else if d.tracing ∨ d.flag F.lpcTraceStat_harvesting then refuse d St.conflict
  else
    let d1 := d.setFlag F.lpcTraceStat_harvesting true
    ({ d1 with lpc := { d1.lpc with trace := { d1.lpc.trace with harvest := some (c.oid, a, n) } } }, .accepted [])

/-- Bytes put at an address. -/
def putBytes : Bytes → Nat → List (Nat × Byte) → List (Nat × Byte)
  | [], _, t => t
  | b :: r, a, t => putBytes r (a + 1) (aput t a b)

/-- What a harvest writes: header, signal words, records that fit (R195). -/
def harvestBytes (t : Trace) (missed n : Nat) : Bytes × Nat :=
  let size := 8 + 4 * t.signals.length
  let k := min t.records.length ((n - 192) / size)
  let trig := match t.trigAt with | some i => if i < k then i else 0xFFFFFFFF | none => 0xFFFFFFFF
  let head := le 4 0x4352544C ++ le 2 1 ++ le 1 t.signals.length ++ le 1 0 ++ le 4 k ++ le 4 trig ++ le 4 size ++ le 4 missed ++ le 40 0
  let sigs := fitBytes 128 (t.signals.flatMap (fun s => le 2 s.source ++ le 1 s.quantity ++ le 1 0))
  ((head ++ sigs ++ (t.records.take k).flatten).take n, k)

/-- HARVEST_COMPLETE (R195). -/
def execHarvestComplete (s : State) : Host.Outcome State Fault Refusal :=
  commit s (
    let d := s.dev
    match d.lpc.trace.harvest with
    | some (oid, a, n) =>
      let (b, k) := harvestBytes d.lpc.trace (d.fld F.lpcTraceStat_missed) n
      let d1 := d.setFlag F.lpcTraceStat_harvesting false
      let d2 := { d1 with lpc := { d1.lpc with trace := { d1.lpc.trace with harvest := none } },
                          mem := { d1.mem with ddr := putBytes b a d1.mem.ddr } }
      let cut := decide (k < d.lpc.trace.records.length)
      d2.finishCut oid St.done (le 4 b.length ++ le 4 k) cut
    | none => d)

end Sys2Proof.Machine
end

