-- ==== Sys2Proof/Machine/Cal.lean ====
section
/-! DEFINITION. The calibration manager and the non-volatile store (chapter 15): records and banks, jobs, rakes, live steps
and gaps, bank switches, and its enable. -/

namespace Sys2Proof.Machine

/-! ### Records and banks (R367, R369) -/

/-- The records of a bank in their order (R369), SEAL last. -/
def bankOrder : List (Nat × Nat) :=
  [(1, 0)] ++ (List.range 32).map (fun l => (2, l)) ++ (List.range 32).map (fun l => (3, l)) ++ [(4, 0), (5, 0), (0x0F, 0)]

/-- The records of a list of types, one after another; none where one is not sound. -/
def readRecs : List (Nat × Nat) → Bytes → Option (List NvRec)
  | [], _ => some []
  | t :: r, b => match readRec t b with
    | some (x, rest) => (readRecs r rest).map (fun l => x :: l)
    | none => none

/-- The bodies of the records whose type `p` names, in order. -/
def bodiesOf (p : Nat → Bool) (l : List NvRec) : Bytes := (l.filter (fun r => p r.rtype)).flatMap (fun r => r.body)

/-- The bank identity: the CRC-32C of the bodies of the optical section (R369). -/
def bankIdent (l : List NvRec) : Nat := crc32c (bodiesOf (fun t => decide (1 ≤ t) && decide (t ≤ 3)) l)

/-- The CRC-32C of the unit section's bodies (Table 15-3). -/
def unitCrc (l : List NvRec) : Nat := crc32c (bodiesOf (fun t => t = 4 || t = 5) l)

/-- The SEAL of a bank. -/
def sealOf (b : Bank) : NvRec := ⟨0x0F, 0, le 4 b.seq ++ le 4 b.ident ++ le 4 (unitCrc b.recs)⟩

/-- The bank that an image of records makes, where it is valid (R369). -/
def bankOf (img : Bytes) : Option Bank :=
  match readRecs bankOrder img with
  | none => none
  | some l =>
    let recs := l.take 67
    match l[67]? with
    | none => none
    | some x =>
      if rd x.body 4 4 = bankIdent recs ∧ rd x.body 8 4 = unitCrc recs then some ⟨true, rd x.body 0 4, bankIdent recs, recs⟩
      else none

/-- The bytes of a bank's records in order (R377). -/
def bankImage (b : Bank) : Bytes := (b.recs ++ [sealOf b]).flatMap recBytes

/-- The IDENT serial that a bank records for a link's front-end. -/
def Bank.serial (b : Bank) (l : Nat) : Nat := rd (b.body 1 0) (8 + 8 * l) 8

/-- `provisional` of a bank (Table 15-3). -/
def Bank.provisional (b : Bank) : Bool := bit (rd (b.body 1 0) 4 4) 0

/-- A run of bytes with some of them replaced from offset `o` on. -/
def splice (b : Bytes) (o : Nat) (x : Bytes) : Bytes := b.take o ++ x ++ b.drop (o + x.length)

/-- A record given a body. -/
def Bank.setBody (b : Bank) (rtype rsub : Nat) (x : Bytes) : Bank :=
  if b.recs.any (fun r => r.rtype = rtype && r.rsub = rsub) then
    { b with recs := b.recs.map (fun r => if r.rtype = rtype && r.rsub = rsub then { r with body := x } else r) }
  else { b with recs := b.recs ++ [⟨rtype, rsub, x⟩] }

/-- A gathered result joined to a bank (R377, R379, R380). A rake gives the element's entry, but for the targets of other
brackets, and its two shapes of the bracket; live steps give the gain trim and what the feed-forward code of the present
setting follows from: the code of bar (word 1) or cross (word 2), or a VOA's cubic. -/
def Dev.joinResult (d : Dev) (b : Bank) (g : Gathered) : Bank :=
  let el := g.result.element
  let l := el / 192
  let o := 128 * (el % 192)
  let entry := fitBytes 128 g.result.entry
  let word := fun (i : Nat) => (entry.drop (4 * i)).take 4
  let old := fitBytes 24960 (b.body 2 l)
  let put := fun (x : Bytes) (i : Nat) => splice x (o + 4 * i) (word i)
  let live := if d.rtp.map.kind el = 2 then [0, 21, 22, 23, 24] else [0, if d.cellSetting el then 2 else 1]
  let rake := (List.range 5) ++ [5 + g.bracket] ++ (List.range 11).map (fun j => 21 + j)
  let b1 := b.setBody 2 l ((if g.live then live else rake).foldl put old)
  if g.live then b1
  else
    let s := 8 * ((el % 192) * 32 + g.bracket * 2)
    let x := fitBytes 49152 (b1.body 3 l)
    let x1 := if g.result.rise = [] then x else splice x s (fitBytes 8 g.result.rise)
    b1.setBody 3 l (if g.result.fall = [] then x1 else splice x1 (s + 8) (fitBytes 8 g.result.fall))

/-- A bank with the cubics of all VOAs of the map rising (R487). -/
def Dev.cubicsRise (d : Dev) (b : Bank) : Bool :=
  (d.rtp.map.elems.filter (fun e => e.2.kind = 2)).all (fun e => cubicRises (b.cubic e.1 1) (b.cubic e.1 2) (b.cubic e.1 3))

/-! ### Writing and switching (R372 to R374, R378) -/

/-- A bank's registers shown: its `valid` bit and identity. -/
def Dev.showBank (d : Dev) (second : Bool) (b : Bank) : Dev :=
  if second then (d.setFlag F.calStat_validB b.valid).setRegN R.calIdB (if b.valid then b.ident else 0)
  else (d.setFlag F.calStat_validA b.valid).setRegN R.calIdA (if b.valid then b.ident else 0)

/-- A bank put in one of the two places. -/
def Dev.putBank (d : Dev) (second : Bool) (b : Bank) : Dev :=
  (if second then { d with cal := { d.cal with bankB := b } } else { d with cal := { d.cal with bankA := b } }).showBank second b

/-- A new bank written into the inactive place, `seq` one above that of the active bank (R372), to be switched to at the next
strobe, or in a twin pair 20 ms ahead, its optical records and the switch frame going to the standby as mirrored item 4 (R378, Table 17-4). -/
def Dev.writeBank (d : Dev) (b : Bank) (oid : Option Nat) : Dev :=
  let new : Bank := { b with valid := true, seq := (d.bank.seq + 1) % 2 ^ 32, ident := bankIdent b.recs }
  let optical := d.pairedActive && decide (new.ident ≠ d.bank.ident)
  let frame := if optical then d.frame + 8001 else d.frame + 1
  let d1 := d.putBank (!d.flag F.calStat_active) new
  let d2 := { d1 with cal := { d1.cal with written := some (oid, frame), mirrorNo := none } }
  if optical then
    let (n, d3) := d2.sendMirror [4, new.ident, frame]
    { d3 with cal := { d3.cal with mirrorNo := some (n, d.now + 50 * tickMs) } }
  else d2

/-- Feed-forward and gain trim of a loop under the present bank (R174, Table 8-3). -/
def Dev.feedGain (d : Dev) (el : Nat) : Frac × Frac :=
  match (d.loop el).slot with
  | 0 => ((d.law0 el).f, (d.law0 el).g)
  | 1 => ((d.law1 el).f, (d.law1 el).g)
  | s =>
    let v := fun (r : Nat) => d.entryReg (d.fld (F.lpcSlotInfo_kind s)) el none r
    (v 5, v 6)

/-- The integrator of a loop recomputed at a switch (R374); `was` is the block before it. Law 2 has none (R177). -/
def Dev.recalcLoop (was d : Dev) (el : Nat) : Dev :=
  let x := d.loop el
  if x.slot = 0xFF ∨ x.slot = 2 then d
  else
    let (f, g) := was.feedGain el
    let (f1, g1) := d.feedGain el
    let step := Frac.add (Frac.sub f f1) (Frac.mul (Frac.mul (Frac.sub g g1) (d.coef x.set 0)) x.eLast)
    d.setLoop el { x with i := extWord (clampI (d.coef x.set 2) (d.coef x.set 3) f1 (Frac.add (extValue x.i) step)), f := f1 }

/-- The links marked `provisional` and `foreign` anew after a switch (R371, R384). -/
def Dev.markLinks (d : Dev) : Dev :=
  (List.range 32).foldl (fun d l =>
    let was := d.flag (F.calLinkCal_provisional l)
    match (d.elink l).serial with
    | none => d.setFlag (F.calLinkCal_provisional l) (was && d.bank.provisional)
    | some n =>
      let d0 := if d.bank.provisional && !was then d.markLink l false else d.setFlag (F.calLinkCal_provisional l) (was && d.bank.provisional)
      if n = d.bank.serial l then d0.setFlag (F.calLinkCal_foreign l) false
                else if d0.flag (F.calLinkCal_foreign l) then d0 else d0.markLink l true) d

/-- The delay-line trims of the legs under a new bank (R373): each moves by what the DELAY record changes, at one temperature. `was` is the block
before the switch. -/
def Dev.retrim (was d : Dev) : Dev :=
  let body := fun (x : Dev) => x.bank.body 5 0
  if body was = body d then d
  else
    let by_ := fun (l : Nat) => Config.delayTrim (body d) l d.ths.comp.lines - Config.delayTrim (body was) l d.ths.comp.lines
    let legs := (List.range 8).foldl (fun t l => let x := tget (fun _ => ({} : Leg)) t l
                                               tput (fun _ => ({} : Leg)) t l { x with trim := x.trim + by_ l }) d.pwm.legs
    { d with pwm := { d.pwm with legs := legs } }

/-- The written bank becomes active at this strobe (R373). -/
def Dev.switchBank (d : Dev) (oid : Option Nat) : Dev :=
  let was := d.keepGranted
  let d0 := Dev.retrim was { (was.setFlag F.calStat_active (!d.flag F.calStat_active)) with cal := { d.cal with written := none, switchedAt := d.now } }
  let b := d0.bank
  let d1 := (((((d0.setFlag F.memStat_libImage (!d.flag F.memStat_libImage)).setRegN R.calSeq b.seq).setFlag F.calStat_provisional b.provisional).setFlag F.calStat_noCal false).setRegN R.calSwitchLo
    d.frame).setRegN R.calSwitchHi (d.frame / 2 ^ 32)
  let d2 := d1.event 0x0A01 (b2n (d1.flag F.calStat_active)) (le 4 b.ident ++ le 4 b.seq)
  let d3 := ((d2.driveElems.foldl (fun x el => Dev.recalcLoop d x el) d2).switchShapes).markLinks
  match oid, d3.cal.job with
  | some o, some j => if j.oid = o then (d3.clearJob j true).reportJob j true (le 4 b.ident) else d3
  | _, _ => d3

/-- BANK_SWITCH (R373): at the frame strobe for which it was written. -/
def execBankSwitch (s : State) : Host.Outcome State Fault Refusal :=
  commit s (
    match s.dev.cal.written with
    | some (oid, n) =>
      let d := s.dev.advance (s.dev.strobeFrom (max s.dev.now (s.dev.frameTick n)))
      d.switchBank oid
    | none => s.dev)

/-- What takes effect at the boundary at tick `t` before its swaps: a switch of bank (R384), the laws, then at a frame strobe the bindings
(R198, R217). -/
def Dev.boundary (d : Dev) (t : Nat) : Dev :=
  let d0 := d.advance t
  let d1 := match d0.cal.written with
    | some (oid, n) => if d0.strobeFrom t = t ∧ d0.frameTick n ≤ t then d0.switchBank oid else d0
    | none => d0
  let laws := d1.lpc.laws.filter (fun l => decide (d1.lawTick l ≤ t) && !d1.lawWaits l)
  let d2 := laws.foldl Dev.switchLaw d1
  if d2.strobeFrom t = t then d2.applyBinds else d2

/-- COEF_SWAP_BOUNDARY (R187): the swaps whose boundary comes first. -/
def execCoefSwapBoundary (s : State) : Host.Outcome State Fault Refusal :=
  commit s (
    let d := s.dev
    match d.lpc.swaps.map d.swapTick with
    | [] => d
    | a :: r =>
      let t := r.foldl min a
      (d.lpc.swaps.filter (fun x => d.swapTick x = t)).foldl Dev.applySwap (d.boundary t))

/-- The bank that a start applies (R370): the valid one with the higher `seq`, otherwise bank A written from the default
calibration of the configuration section with `provisional` set; with none, `no_cal`. -/
def Dev.applyBank (d : Dev) : Dev :=
  let a := d.cal.bankA
  let b := d.cal.bankB
  let use := fun (d : Dev) (second : Bool) =>
    let d1 := ((d.setFlag F.calStat_active second).showBank false d.cal.bankA).showBank true d.cal.bankB
    let d2 := ((d1.setRegN R.calSeq d1.bank.seq).setFlag F.calStat_provisional d1.bank.provisional).setFlag F.calStat_noCal false
    d2.setFlag F.cpxReady1_cal (d2.flag F.calCtrl_en)
  if a.valid || b.valid then use d (b.valid && (!a.valid || decide (a.seq < b.seq)))
  else match (d.hst.image.bind (fun i => i.cal)).bind bankOf with
    | some x =>
      let head := splice (x.body 1 0) 4 (le 4 (Nat.lor (rd (x.body 1 0) 4 4) 1))
      let y := x.setBody 1 0 head
      use { d with cal := { d.cal with bankA := { y with valid := true, seq := 1, ident := bankIdent y.recs } } } false
    | none => d.setFlag F.calStat_noCal true

/-- CAL_BANK (R370): the active bank and the identities of both. -/
def bodyCalBank (d : Dev) (_ : Call) : Dev × Verdict :=
  (d, .final St.done (le 1 (d.fld F.calStat_active) ++ le 3 0 ++ le 4 (d.regN R.calIdA) ++ le 4 (d.regN R.calIdB)))

/-- NV_HOURLY_CHECK (R375): which banks the check finds sound. A bad inactive bank becomes invalid; a bad active bank is
rewritten into the other and switched to. The bank being written is skipped (R384). -/
def execNvHourlyCheck (okA okB : Bool) (s : State) : Host.Outcome State Fault Refusal :=
  commit s (
    let d := s.dev
    let second := d.flag F.calStat_active
    let other := if second then d.cal.bankA else d.cal.bankB
    let bad := fun (x : Bool) => !(if x then okB else okA)
    let d1 := if bad (!second) && other.valid && d.cal.written.isNone then
        d.voidInactive.event 0x0A04 (b2n (!second)) (le 1 1) else d
    if bad second && d.bank.valid then
      let d2 := d1.event 0x0A04 (b2n second) (le 1 2)
      if d2.cal.written.isNone then d2.writeBank d2.bank none else d2
    else d1)

/-! ### Jobs (R376, R377) -/

/-- The fields that a kind of job does not use are zero, and those that it uses lie in their range (R376, Tables 15-4 and
15-5). -/
def jobFieldsOk (b : Bytes) : Bool :=
  let mask := rd b 4 4
  let first := rd b 8 2
  let count := rd b 10 2
  let addr := rd b 16 8
  let n := rd b 24 4
  let zeros := rd b 1 3 = 0 && rd b 12 4 = 0 && rd b 28 4 = 0
  let noHost := addr = 0 && n = 0
  let noSig := rd b 32 96 = 0
  zeros && (match rd b 0 1 with
    | 1 => decide (first < 6) && (bitsOf mask 32).all (reaches first) && count = 0 && noHost && noSig
    | 2 => decide (mask < 2 ^ 16) && first = 0 && count = 0 && noHost && noSig
    | 3 => decide (mask < 2 ^ 8) && first = 0 && count = 0 && noHost && noSig
    | 4 | 5 => mask = 0 && decide (1 ≤ count) && decide (first + count ≤ 6144) && noHost && noSig
    | 6 => mask = 0 && first = 0 && count = 0 && addr % 8 = 0
    | 7 => mask = 0 && first = 0 && count = 0 && addr % 8 = 0 && noSig
    | _ => false)

/-- The targets of a job clash with what runs (R357, Table 15-5): an input of a running consumer, a channel that is not off. -/
def Dev.jobClash (d : Dev) (b : Bytes) : Bool :=
  let mask := rd b 4 4
  match rd b 0 1 with
  | 1 => (List.range 4).any (fun k => d.consumerRuns k && d.consumerInput k = (rd b 8 2, (d.consumerInput k).2) &&
      bit mask (d.consumerInput k).2)
  | 2 => (bitsOf mask 16).any (fun c => decide (d.cstate c ≠ 0))
  | _ => false

/-- The switch cells and VOAs among the elements that a rake or live job names. -/
def Dev.jobTargets (d : Dev) (first count : Nat) : List Nat :=
  (d.driveElems.filter (fun e => decide (first ≤ e) && decide (e < first + count))).filter (fun e =>
    d.rtp.map.kind e = 1 || d.rtp.map.kind e = 2)

/-- An element queued for a job. -/
def Dev.queueForJob (d : Dev) (live : Bool) (el : Nat) : Dev :=
  if d.cal.items.any (fun i => i.el = el) then
    { d with cal := { d.cal with items := d.cal.items.map (fun i => if i.el = el then { i with job := true, live := live, tries := 0 } else i) } }
  else { d with cal := { d.cal with items := d.cal.items ++ [{ el := el, live := live, job := true }] } }

/-- The start of an accepted job: elements queued, inputs taken (R357). -/
def Dev.beginJob (d : Dev) (j : CalJob) : Dev :=
  let d1 := { d with cal := { d.cal with job := some j } }
  match j.kind with
  | 1 =>
    let x := d1.adcPair j.first
    let waits := x.injects.map (fun i => i.1) ++ x.convs.filterMap (fun c => c.2.oid)
    (d1.setPair j.first { x with calNext := bitsOf j.mask 32, calWaits := waits, calOid := some j.oid }).takeCalInputs j.first
  | 4 => (d1.jobTargets j.first j.count).foldl (fun d e => d.queueForJob false e) d1
  | 5 => (d1.jobTargets j.first j.count).foldl (fun d e => d.queueForJob true e) d1
  | _ => d1

/-- CAL_RUN (Table 15-4, R376). -/
def bodyCalRun (d : Dev) (c : Call) : Dev × Verdict :=
  let b := c.packet.cmd.payload
  let img := c.packet.cmd.image
  let signed_ := match d.hst.ownerKey with | some k => Config.ecdsaVerify k img ((b.drop 32).take 96) | none => false
  if !jobFieldsOk b then refuse d St.badParam
  else if d.cal.job.isSome ∨ d.jobClash b then refuse d St.conflict
  else if rd b 0 1 = 6 ∧ !signed_ then refuse d St.refused
  else (d.beginJob ⟨c.oid, rd b 0 1, rd b 4 4, rd b 8 2, rd b 10 2, rd b 16 8, rd b 24 4, img, d.now⟩, .accepted [])

/-- A job fails (R377): the active bank stays. -/
def Dev.failJob (d : Dev) (j : CalJob) : Dev := (d.clearJob j false).reportJob j false []

/-- The bank that a job builds (R377): the active bank with what it measured, gathered results included (R382); for an
take the image. None where a correction is implausible or the image makes no valid bank. -/
def Dev.jobBank (d : Dev) (j : CalJob) (recs : List NvRec) : Option Bank :=
  if j.kind = 6 then
    match bankOf j.image with
    | some b => if d.cubicsRise b then some b else none
    | none => none
  else
    let own := recs.filter (fun r => (j.kind ≤ 2 && r.rtype = 4) || (j.kind = 3 && r.rtype = 5))
    let b := own.foldl (fun b r => b.setBody r.rtype 0 r.body) d.bank
    let b1 := d.cal.gathered.foldl d.joinResult b
    if d.cubicsRise b1 then some b1 else none

/-- Every element of a rake or live job has been measured. -/
def Dev.jobMeasured (d : Dev) (j : CalJob) : Bool :=
  (d.jobTargets j.first j.count).all (fun e => d.cal.gathered.any (fun g => g.result.element = e && g.live = decide (j.kind = 5)))

/-- CAL_JOB_COMPLETE (R377): the running job passes or fails. `good`: its corrections are plausible; `stored`: its bank is
written (R368); `recs`: the unit records that it measured. A rake or live job waits for its elements up to 60 s (R63). -/
def execCalJobComplete (good stored : Bool) (recs : List NvRec) (s : State) : Host.Outcome State Fault Refusal :=
  commit s (
    let d := s.dev
    let end_ := fun (j : CalJob) => j.began + 60 * tickS
    match d.cal.job with
    | none => d
    | some j =>
      if d.cal.written.isSome then d
      else if j.kind = 7 then
        let img := (bankImage d.bank).take j.length
        if good then
          ((d.send (.hostWrite j.addr img)).clearJob j true).reportJob j true (le 4 d.bank.ident ++ le 4 img.length)
        else d.failJob j
      else if !good then d.failJob j
      else if (j.kind = 4 ∨ j.kind = 5) ∧ !d.jobMeasured j then
        if end_ j ≤ d.now then d.failJob j else d
      else match d.jobBank j recs with
        | none => d.failJob j
        | some b =>
          if !stored then ((d.voidInactive.raise 301).failJob j)
          else
            let d1 := d.writeBank b (some j.oid)
            if j.kind = 6 then d1 else { d1 with cal := { d1.cal with gathered := [], firstResult := none } })

/-- CAL_COMMIT (R382): the gathered results are written as a bank, with 64 elements complete or 60 s after the first. -/
def execCalCommit (stored : Bool) (s : State) : Host.Outcome State Fault Refusal :=
  commit s (
    match s.dev.cal.firstResult with
    | none => s.dev
    | some t =>
      let d := if s.dev.cal.gathered.length < 64 then s.dev.advance (t + 60 * tickS) else s.dev
      if d.cal.job.isSome || d.cal.written.isSome || !d.flag F.calCtrl_en then s.dev
      else if !stored then d.voidInactive.raise 301
      else
        let b := d.cal.gathered.foldl d.joinResult d.bank
        let d1 := d.writeBank b none
        { d1 with cal := { d1.cal with gathered := [], firstResult := none } })

/-! ### Rakes and live steps (R379, R380) -/

/-- A complete result kept (R382); the element leaves the queue. -/
def Dev.gather (d : Dev) (r : RakeResult) (live : Bool) : Dev :=
  let el := r.element
  let g : Gathered := ⟨r, d.bracket (linkOf el), live⟩
  { d with cal := { d.cal with
      gathered := d.cal.gathered.filter (fun x => x.result.element ≠ el) ++ [g],
      firstResult := some (d.cal.firstResult.getD d.now),
      items := d.cal.items.filter (fun i => i.el ≠ el) } }

/-- A result may be kept: the cubic that it would store rises (R487). -/
def Dev.plausible (d : Dev) (r : RakeResult) : Bool :=
  let w := fun (i : Nat) => coefValue (BitVec.ofNat 32 (rd r.entry (4 * i) 4))
  d.rtp.map.kind r.element ≠ 2 || cubicRises (w 22) (w 23) (w 24)

/-- An invalid rake: played again up to three times, then the element is marked `rake_fail` (R379). -/
def Dev.rakeInvalid (d : Dev) (el : Nat) : Dev :=
  let d1 := d.setFld F.calRakeCount_invalid (d.fld F.calRakeCount_invalid + 1)
  match d1.cal.items.find? (fun i => i.el = el) with
  | none => d1
  | some i =>
    if i.tries < 3 then
      { d1 with cal := { d1.cal with items := d1.cal.items.map (fun x => if x.el = el then { x with tries := x.tries + 1 } else x) } }
    else
      let d2 := { d1 with cal := { d1.cal with items := d1.cal.items.filter (fun x => x.el ≠ el), failed := d1.cal.failed.filter (· ≠ el) ++ [el] } }
      ((if d1.cal.failed.contains el then d2 else d2.bumpSat (F.calLinkCal_rakeFail (linkOf el))).event 0x0A05 el (le 1 (i.tries + 1))).raise 310

/-- RAKE_COMPLETE (R379): the rake that a sluice has played is judged, `r` what it measured. A result of an element that is
no longer queued is discarded. A jump may be registered now on the rake of another sluice (R149). -/
def execRakeComplete (e : SluiceEnd) (r : RakeResult) (s : State) : Host.Outcome State Fault Refusal :=
  commitIf (okSluice e.sluice && (match e.jump with | some j => okSluice j | none => true)) "sluice" s (
    let d := match e.jump with | some j => s.dev.registerJump j s.dev.now | none => s.dev
    match d.cal.ended.find? (fun x => x.sluice = e.sluice && !x.live) with
    | none => d
    | some x =>
      let d1 := { d with cal := { d.cal with ended := d.cal.ended.erase x } }
      if !d1.cal.items.any (fun i => i.el = x.el) then d1
      else if x.invalid || !r.valid || decide (r.element ≠ x.el) then d1.rakeInvalid x.el
      else
        let d2 := d1.setFld F.calRakeCount_completed (d1.fld F.calRakeCount_completed + 1)
        if d2.plausible r then d2.gather r false
        else match d2.cal.job with
          | some j => if d2.cal.items.any (fun i => i.el = x.el && i.job) then d2.failJob j
              else { d2 with cal := { d2.cal with items := d2.cal.items.filter (fun i => i.el ≠ x.el) } }
          | none => { d2 with cal := { d2.cal with items := d2.cal.items.filter (fun i => i.el ≠ x.el) } })

/-- LIVE_STEP_COMPLETE (R380): a step has ended; four within an hour make the element's result, `r`. -/
def execLiveStepComplete (r : RakeResult) (s : State) : Host.Outcome State Fault Refusal :=
  commit s (
    let d := s.dev
    match d.cal.ended.find? (fun x => x.el = r.element && x.live) with
    | none => d
    | some x =>
      let d1 := { d with cal := { d.cal with ended := d.cal.ended.erase x } }
      match d1.cal.items.find? (fun i => i.el = x.el) with
      | none => d1
      | some i =>
        let d2 := d1.setFld F.calGapStat_steps (d1.fld F.calGapStat_steps + 1)
        if x.invalid || !r.valid then d2
        else
          let steps := i.steps.filter (fun t => decide (d2.now ≤ t + 3600 * tickS)) ++ [d2.now]
          if 4 ≤ steps.length ∧ d2.plausible r then d2.gather r true
          else if 4 ≤ steps.length ∧ i.job ∧ d2.cal.job.isSome then (d2.cal.job.map d2.failJob).getD d2
          else { d2 with cal := { d2.cal with items := d2.cal.items.map (fun y => if y.el = x.el then { y with steps := steps } else y) } })

/-! ### Gaps (R231, R381) -/

/-- CAL_GAP (Table 15-6, R381). A gap that has wholly passed opens for no time. -/
def bodyCalGap (d : Dev) (c : Call) : Dev × Verdict :=
  let b := c.packet.cmd.payload
  let l := rd b 0 1
  let dur := rd b 4 4
  let start := rd b 8 8
  if (31 < l ∧ l ≠ 0xFF) ∨ rd b 1 3 ≠ 0 ∨ dur < 200 ∨ 10000000 < dur ∨ d.wall + 60000000000 < start then refuse d St.badParam
  else if 16 ≤ d.cal.gaps.length ∨ !d.flag F.cpxReady1_ptp then refuse d St.refused
  else
    let opens := (max (d.tickOfTai start) d.now).toNat
    let closes := d.tickOfTai ((start : Int) + dur * 1000)
    if closes ≤ d.now then (d, .final St.done [])
    else
      let g : Gap := ⟨l, opens, closes.toNat, decide (opens ≤ d.now)⟩
      ({ d with cal := { d.cal with gaps := d.cal.gaps ++ [g] } }, .final St.done [])

/-- GAP_OPEN (R381): the declared gap with a number in the list of those pending reaches its start. -/
def execGapOpen (i : Nat) (s : State) : Host.Outcome State Fault Refusal :=
  commit s (
    match s.dev.cal.gaps[i]? with
    | some g =>
      if g.isOpen then s.dev
      else
        let d := s.dev.advance g.opens
        { d with cal := { d.cal with gaps := d.cal.gaps.set i { g with isOpen := true } } }
    | none => s.dev)

/-- DECLARED_GAP_CLOSE (R381): the gap ends, and with it the live steps on its links. -/
def execDeclaredGapClose (i : Nat) (s : State) : Host.Outcome State Fault Refusal :=
  commit s (
    match s.dev.cal.gaps[i]? with
    | some g =>
      let d := s.dev.advance g.closes
      let d1 := { d with cal := { d.cal with gaps := d.cal.gaps.eraseIdx i } }
      sluiceNumbers.foldl (fun d s => match (d.sluice s).cur with
        | some x => if x.oid.isNone && x.klass = 2 && !x.rake && (g.link = 0xFF || g.link = x.link) && (d.openGaps x.el).isEmpty then
            d.stopSluice s none else d
        | none => d) d1
    | none => s.dev)

/-- DETECTED_GAP_OPEN (R231): a live circuit has been dark for 400 frames in a row. -/
def execDetectedGapOpen (circ : Nat) (s : State) : Host.Outcome State Fault Refusal :=
  commitIf (decide (circ < 1024)) "circuit" s (
    match s.dev.circuit circ with
    | some c =>
      if c.state = 2 ∧ c.dark = true then
        let d := s.dev.advance (c.darkAt + 400 * tickFrame)
        if d.cal.detected.any (fun x => x.1 = circ && decide (c.darkAt ≤ x.2)) then d
        else { d with cal := { d.cal with detected := d.cal.detected.filter (fun x => x.1 ≠ circ) ++ [(circ, d.now)] } }
      else s.dev
    | none => s.dev)

/-! ### Enable (R383) -/

/-- `en` of CAL.CTRL cleared: `cal` clears, rakes and steps stop, a running job is refused. -/
def Dev.calOff (d : Dev) : Dev :=
  let d1 := (d.setFlag F.calCtrl_en false).setFlag F.cpxReady1_cal false
  let d2 := (d1.stopCal (fun _ => true)).abortJob
  { d2 with cal := { d2.cal with items := d2.cal.items.filter (fun i => i.origin ≠ 0), ended := d2.cal.ended.map (fun x => { x with invalid := true }) } }

/-- `en` of CAL.CTRL set: `cal` sets where a bank is active and applied (R370). -/
def Dev.calOn (d : Dev) : Dev :=
  let d1 := d.setFlag F.calCtrl_en true
  d1.setFlag F.cpxReady1_cal (d1.flag F.cpxReady1_boot && d1.bank.valid && !d1.flag F.calStat_noCal)

/-- CAL_DISABLE (R383). -/
def execCalDisable (s : State) : Host.Outcome State Fault Refusal := commit s (if s.dev.flag F.calCtrl_en then s.dev.calOff else s.dev)

/-- CAL_ENABLE (R383). -/
def execCalEnable (s : State) : Host.Outcome State Fault Refusal := commit s (if s.dev.flag F.calCtrl_en then s.dev else s.dev.calOn)

end Sys2Proof.Machine
end

