-- ==== Sys2Proof/Machine/FltRows.lean ====
section
/-! DEFINITION. The fault collector's commands and events (chapter 16). -/

namespace Sys2Proof.Machine

/-- A source number of Table 16-1. -/
def okSource (s : Nat) : Bool := decide (s < sourceCount)

/-- A reserved source number of Table 16-1. -/
def reservedSource (s : Nat) : Bool := decide (311 ≤ s) && decide (s ≤ 319)

/-- A source asserts (R385 to R388): a protection of the SST through its latch (Table 12-17), a level source by its
condition, an event source once. -/
def Dev.assertSource (d : Dev) (s : Nat) : Dev :=
  if reservedSource s then d
  else if 248 ≤ s ∧ s ≤ 252 then d.protCondition (s - 248) true
  else if s = 253 ∨ s = 254 then d.protLatch (s - 248) true
  else if d.fld (F.fltClass_kind s) = 0 then d.raiseLevel s
  else d.raise s

/-- FAULT_SOURCE_ASSERT (R385). -/
def execFaultSourceAssert (src : Nat) (s : State) : Host.Outcome State Fault Refusal :=
  commitIf (okSource src) "fault source" s (s.dev.assertSource src)

/-- FAULT_MAP (Table 16-3, R397). -/
def bodyFaultMap (d : Dev) (c : Call) : Dev × Verdict :=
  let b := c.packet.cmd.payload
  let s := rd b 0 2
  let k := rd b 2 1
  if 422 < s ∨ reservedSource s = true ∨ 5 < k ∨ rd b 3 1 ≠ 0 then refuse d St.badParam
  else if k < d.fld (F.fltClass_floor s) then refuse d St.refused
  else
    let old := d.sourceClass s
    let d1 := d.setFld (F.fltClass_class s) k
    let d2 := if !d1.sticky s ∨ k = old then d1 else if k = 5 then d1.deviceSafe s else if k = 4 then d1.relinquish else d1
    (((d2.updateStates).updateRelinq).refreshElig, .final St.done (le 1 old))

/-- The latches of CMU.PROT_STAT that mirror cleared bits of FLT.STICKY7 (Table 12-17). -/
def Dev.clearProt (d : Dev) (cleared : Nat) : Dev :=
  d.setRegN R.cmuProtStat (andNot (d.regN R.cmuProtStat) (cleared / 2 ^ 24 % 128))

/-- FAULT_CLEAR (Table 16-4, R398, R399). -/
def bodyFaultClear (d : Dev) (c : Call) : Dev × Verdict :=
  let b := c.packet.cmd.payload
  let i := rd b 0 1
  let mask := rd b 4 4
  if 13 < i ∨ rd b 1 3 ≠ 0 then refuse d St.badParam
  else
    let sticky := d.regN (R.fltSticky i)
    let present := Nat.land (Nat.land mask sticky) (d.regN (R.fltPresent i))
    let cleared := andNot (Nat.land mask sticky) present
    let d1 := d.setRegN (R.fltSticky i) (andNot sticky cleared)
    let d2 := if i = 7 then (d1.clearProt cleared).leaveTrip else d1
    ((((d2.updateStates).updateAlive).updateRelinq).refreshElig, .final St.done (le 4 cleared ++ le 4 present))

/-- FAULT_O_RELEASE (R394): refused in optical safe and device safe; it acts once the 100 µs have run. -/
def bodyFaultORelease (d : Dev) (c : Call) : Dev × Verdict :=
  if d.flag F.fltState_osafe ∨ d.flag F.fltState_dsafe then refuse d St.refused
  else
    let d1 := { d with flt := { d.flt with release := d.flt.release ++ [c.oid] } }
    (if d1.flt.holdUntil ≤ d1.now then d1.dropFaultO else d1, .accepted [])

/-- FAULT_O_HOLD_EXPIRY (R394): the 100 µs end while a release waits. -/
def execFaultOHoldExpiry (s : State) : Host.Outcome State Fault Refusal :=
  commit s (if s.dev.flt.release = [] then s.dev else (s.dev.advance s.dev.flt.holdUntil).dropFaultO)

/-- FAULT_QUERY (568 bytes, chapter 16). -/
def bodyFaultQuery (d : Dev) (_ : Call) : Dev × Verdict :=
  (d, .final St.done (le 4 (d.regN R.fltState) ++ le 4 0 ++ (List.range 14).flatMap (fun i => le 4 (d.regN (R.fltSticky i))) ++
    (List.range 14).flatMap (fun i => le 4 (d.regN (R.fltPresent i))) ++
    (List.range 448).flatMap (fun s => if s < sourceCount then le 1 (d.regN (R.fltClass s) % 256) else le 1 0)))

/-- FLT_SELF_CHECK_FAIL (R400): `kind` 0 parity, 1 disagreement of the copies, 2 missed service; device safe at once, without
the mapping. -/
def execFltSelfCheckFail (kind : Nat) (s : State) : Host.Outcome State Fault Refusal :=
  commitIf (decide (kind < 3)) "self-check" s ((s.dev.setBitAt R.fltSelf kind true).deviceSafe 0xFFFF)

end Sys2Proof.Machine
end

