-- ==== Sys2Proof/Machine/Operands.lean ====
section
/-! DEFINITION. The operand forms of the host's commands: Table 2-7 with the payload lengths of the chapters, and the readiness of
Table 2-9. -/

namespace Sys2Proof.Machine

/-- One row of Table 2-7: whether two-stage (R44) and marked A (R56), the least and greatest payload length, and the offset of the key. -/
structure OpRow where
  opcode : Nat
  twoStage : Bool
  active : Bool
  lenMin : Nat
  lenMax : Nat
  key : Option Nat
  deriving DecidableEq, Repr

/-- The commands of groups 0x01 to 0x04 (Table 2-7). -/
def opRowsLow : List OpRow := [
  ⟨0x0101, false, false, 16, 16, none⟩, ⟨0x0102, false, true, 4, 4, none⟩, ⟨0x0103, false, false, 4, 4, none⟩,
  ⟨0x0104, false, false, 0, 0, none⟩, ⟨0x0105, false, true, 8, 8, none⟩,
  ⟨0x0201, true, true, 112, 112, none⟩, ⟨0x0202, true, true, 32, 32, some 16⟩, ⟨0x0203, true, true, 32, 32, some 16⟩,
  ⟨0x0204, false, false, 20, 20, none⟩, ⟨0x0205, false, true, 8, 8, none⟩, ⟨0x0206, true, true, 64, 1008, some 16⟩,
  ⟨0x0301, false, false, 20, 20, none⟩, ⟨0x0302, false, true, 4, 4, none⟩, ⟨0x0303, false, false, 16, 16, none⟩,
  ⟨0x0401, true, true, 112, 112, none⟩, ⟨0x0402, false, true, 8, 8, none⟩, ⟨0x0403, true, true, 52, 988, none⟩,
  ⟨0x0404, false, true, 8, 8, none⟩, ⟨0x0405, false, false, 20, 20, none⟩]

/-- The commands of groups 0x05 to 0x09 (Table 2-7). -/
def opRowsMid : List OpRow := [
  ⟨0x0501, false, true, 8, 8, none⟩, ⟨0x0502, false, true, 4, 4, none⟩, ⟨0x0503, false, true, 8, 8, none⟩,
  ⟨0x0504, false, false, 16, 16, none⟩, ⟨0x0601, false, true, 24, 24, none⟩, ⟨0x0602, false, true, 4, 4, none⟩,
  ⟨0x0603, false, true, 16, 16, none⟩, ⟨0x0604, false, false, 0, 0, none⟩,
  ⟨0x0701, true, true, 24, 24, none⟩, ⟨0x0702, true, true, 4, 4, none⟩, ⟨0x0703, true, true, 4, 4, none⟩,
  ⟨0x0704, true, true, 24, 24, some 8⟩, ⟨0x0705, true, true, 24, 24, some 8⟩, ⟨0x0706, false, false, 16, 16, none⟩,
  ⟨0x0801, false, true, 32, 32, none⟩, ⟨0x0802, true, true, 4, 4, none⟩, ⟨0x0803, false, true, 8, 8, none⟩,
  ⟨0x0804, false, false, 4, 4, none⟩, ⟨0x0901, false, true, 40, 40, none⟩, ⟨0x0902, false, true, 4, 4, none⟩,
  ⟨0x0903, true, true, 8, 8, none⟩, ⟨0x0904, false, true, 4, 4, none⟩]

/-- The commands of groups 0x0A to 0x0F (Table 2-7). -/
def opRowsHigh : List OpRow := [
  ⟨0x0A01, true, true, 128, 128, none⟩, ⟨0x0A02, false, true, 16, 16, none⟩, ⟨0x0A03, false, false, 0, 0, none⟩,
  ⟨0x0B01, false, true, 4, 4, none⟩, ⟨0x0B02, false, false, 8, 8, none⟩, ⟨0x0B03, true, false, 0, 0, none⟩,
  ⟨0x0B04, false, false, 16, 16, none⟩, ⟨0x0C01, true, false, 0, 0, none⟩, ⟨0x0C02, true, false, 0, 0, none⟩,
  ⟨0x0C03, false, false, 16, 16, none⟩, ⟨0x0D01, false, false, 28, 152, none⟩, ⟨0x0D02, true, false, 16, 16, none⟩,
  ⟨0x0D03, false, false, 0, 0, none⟩, ⟨0x0E01, false, false, 24, 24, none⟩, ⟨0x0E02, false, true, 16, 16, none⟩,
  ⟨0x0E03, false, false, 16, 1008, none⟩, ⟨0x0E04, false, false, 4, 4, none⟩, ⟨0x0E05, false, true, 16, 16, none⟩,
  ⟨0x0F01, false, false, 100, 100, none⟩, ⟨0x0F02, false, false, 4, 4, none⟩, ⟨0x0F03, true, true, 16, 16, none⟩,
  ⟨0x0F04, false, false, 16, 1008, none⟩]

/-- The opcodes of Table 2-7. -/
def opRows : List OpRow := opRowsLow ++ opRowsMid ++ opRowsHigh

/-- The row of an opcode; none for one that the controller does not implement (R57). -/
def opRow (op : Nat) : Option OpRow := opRows.find? (fun r => r.opcode = op)

/-- The reply is the first one to its command: ACCEPTED, or the one reply of a command of kind 1 (R44). A command of kind 2 under
`no_interim` counts as answered once it has been accepted (DESIGN CHOICE, log entry 120). -/
def Reply.first (r : Reply) : Bool := !r.final || (match opRow r.opcode with | some x => !x.twoStage | none => true)

/-- Commands of a requester in intake (R61): taken and without their first reply, be it that they wait for a fence or that the reply waits
for the standby. -/
def Dev.inIntake (d : Dev) (owner : Nat) : Nat :=
  (d.cpx.waiting.filter (fun w => w.owner = owner)).length + (d.standbyWaits.filter (fun r => r.owner = owner && r.first)).length

/-- A payload of `n` bytes fits a row (R39). -/
def OpRow.lengthOk (r : OpRow) (n : Nat) : Bool := decide (n % 4 = 0) && decide (n ≤ 1008) && decide (r.lenMin ≤ n) && decide (n ≤ r.lenMax)

/-- The result descriptor of a command marked R is right (R40): aligned and with its reserved word 0 on a ring, all zeros on UDP. -/
def descOk (p : Packet) : Bool :=
  if resultOpcode p.opcode.toNat then
    match p.cmd.via with
    | .ring _ => rd p.cmd.payload 0 8 % 8 = 0 && rd p.cmd.payload 12 4 = 0
    | .udp _ _ => rd p.cmd.payload 0 16 = 0
  else true

/-- The ready bits of Table 2-9 that hold for a command's group; `cell` is the chain of the cell that a CELL_BYPASS names. -/
def Dev.groupReady (d : Dev) (op : Nat) (b : Bytes) (cell : Option Nat) : Bool :=
  match op / 256 with
  | 2 => d.flag F.cpxReady1_rtp && d.flag F.cpxReady1_trn && d.flag F.cpxReady1_frame
  | 3 => d.flag F.cpxReady1_trn && d.flag F.cpxReady1_frame
  | 4 => d.flag F.cpxReady1_ucode && d.flag F.cpxReady1_plm
  | 5 => d.flag F.cpxReady1_plm
  | 6 => d.flag F.cpxReady1_frame
  | 7 => d.flag F.cpxReady1_cmu && d.flag F.cpxReady1_angle && (match cell with | some c => d.chainReady c | none => true)
  | 8 => d.flag F.cpxReady1_pwm
  | 9 => if op = 0x0901 ∨ op = 0x0902 then d.flag F.cpxReady1_adc else d.flag F.cpxReady1_dac
  | 10 =>
    let kind := rd b 0 1
    if op = 0x0A03 ∨ (op = 0x0A01 ∧ kind = 6) then d.flag F.cpxReady1_boot
    else d.flag F.cpxReady1_cal && (op ≠ 0x0A01 || (match kind with
      | 1 => d.flag F.cpxReady1_adc
      | 2 => d.flag F.cpxReady1_dac
      | 3 => d.flag F.cpxReady1_pwm
      | 4 | 5 => d.flag F.cpxReady1_trn
      | _ => true))
  | 13 => d.flag F.cpxReady1_ddr0 && d.flag F.cpxReady1_ddr1
  | 15 => d.flag F.cpxReady1_boot
  | _ => true

/-- The commands that optical safe refuses (R390): CIRCUIT_SET, CIRCUIT_BATCH, PORT_CEILING with `unblank`, CAL_RUN of kinds 4 and 5, and
CAL_GAP. -/
def opticalSafeRefuses (op : Nat) (b : Bytes) : Bool :=
  op = 0x0202 || op = 0x0206 || (op = 0x0205 && bit (rd b 4 1) 0) || (op = 0x0A01 && (rd b 0 1 = 4 || rd b 0 1 = 5)) || op = 0x0A02

end Sys2Proof.Machine
end

