-- ==== Sys2Proof/Machine/Cln.lean ====
section
/-! DEFINITION. The cell link (chapter 11): chain states, PERIOD, TIME, PING and CMD records, and the records that cell
nodes send. -/

namespace Sys2Proof.Machine

/-- A chain number of this block. -/
def okChain (c : Nat) : Bool := decide (c < 8)

/-- A chain's state (Table 11-4). -/
def Dev.chainState (d : Dev) (c : Nat) : Nat := d.fld (F.clnChainStat_state c)

/-- A chain enters a state. -/
def Dev.setChainState (d : Dev) (c st : Nat) : Dev :=
  (d.setFld (F.clnChainStat_state c) st).setChain c { d.chain c with stateFrom := d.now, retryAt := none }

/-- A failure: the chain returns to state 1 after 10 ms (R281). -/
def Dev.failChain (d : Dev) (c : Nat) : Dev := d.setChain c { d.chain c with retryAt := some (d.now + 10 * tickMs) }

/-- The chain that a port belongs to. -/
def Dev.portChain (d : Dev) (port : Nat) : Option Nat :=
  (List.range 8).find? (fun c => d.bitAt R.clnChainEn c && (d.chainPorts c).contains port)

/-- Two chains may be enabled together (R265): their cells do not overlap, and the return port of a ring carries no other chain. -/
def Dev.chainsAgree (d : Dev) (b n w ret k : Nat) (c : Nat) : Bool :=
  let bk := d.fld (F.clnChainCfg_base k)
  (decide (b + n ≤ bk) || decide (bk + d.fld (F.clnChainCfg_nCells k) ≤ b)) && (w ≠ 1 || !(d.chainPorts k).contains ret) && !(d.chainPorts k).contains c

/-- A chain's wiring is permitted: twin wiring while `twin` is set (R265). -/
def Dev.wiringOk (d : Dev) (c : Nat) : Bool :=
  !d.flag F.cpxReady1_twin || decide (d.fld (F.clnChainCfg_wiring c) = 2)

/-- Chain `c` of CPX.READY1. -/
def Dev.setChainReady (d : Dev) (c : Nat) (v : Bool) : Dev := d.setBitAt R.cpxReady1 (17 + c) v

/-- The first instant from `t` on that lies in a command window (R276). -/
def Dev.windowFrom (d : Dev) (t : Nat) : Nat :=
  if t < d.periodInstant 30 then d.periodInstant 30
  else if t < d.periodInstant 55 then t
  else d.periodInstant 30 + d.periodTicks

/-- A command window is open (R276). -/
def Dev.windowOpen (d : Dev) : Bool := decide (d.periodInstant 30 ≤ d.now) && decide (d.now < d.periodInstant 55)

/-! ### Enabling -/

/-- A chain's configuration conflicts with that of a chain that is enabled already (R265). -/
def Dev.chainConflicts (d : Dev) (c : Nat) : Bool :=
  (List.range 8).any (fun k => k ≠ c && d.bitAt R.clnChainEn k && !d.chainsAgree (d.fld (F.clnChainCfg_base c)) (d.fld (F.clnChainCfg_nCells c))
    (d.fld (F.clnChainCfg_wiring c)) (d.fld (F.clnChainCfg_ret c)) k c)

/-- Setting `en` of a chain (R281): the chain starts from sync where its wiring is permitted. One whose configuration conflicts with that of
an enabled chain is refused as a write of it would be (R265; DESIGN CHOICE, log entry 102). -/
def Dev.chainOn (d : Dev) (c : Nat) : Dev :=
  if d.bitAt R.clnChainEn c || d.chainConflicts c then d else
  let d1 := (d.setBitAt R.clnChainEn c true).setBitAt R.clnDrained c false
  if d1.wiringOk c then d1.setChainState c 1 else d1

/-- Clearing `en` is refused while a cell of the chain is neither `blocked` nor `bypassed` (R283). A cell that no MEAS has shown yet, or
that is `absent`, has no such state (DESIGN CHOICE, log entry 80). -/
def Dev.chainBusy (d : Dev) (c : Nat) : Bool :=
  (d.chainCells c).any (fun n => (d.cellNode n).seen && !d.flag (F.clnCellStat_absent n) && !bit (d.fld (F.clnCellStat_cstat n)) 0 &&
    !bit (d.fld (F.clnCellStat_cstat n)) 1)

/-- Clearing `en` of a chain (R283): `chain` c clears, and the chain drains; what it sent is cut short. -/
def Dev.chainOff (d : Dev) (c : Nat) : Dev :=
  if !d.bitAt R.clnChainEn c || d.chainBusy c then d else
  let d1 := (d.setBitAt R.clnChainEn c false).setChainReady c false
  ((d1.setChainState c 5).clearLevel (208 + c)).clearLevel (216 + c)

/-- The ports of a draining chain send idle pairs only: `drained`, and state 0 (R283, Table 11-4). -/
def Dev.chainDrained (d : Dev) (c : Nat) : Dev := (d.setBitAt R.clnDrained c true).setChainState c 0

/-- CHAIN_DISABLE (R283). -/
def execChainDisable (ch : Nat) (s : State) : Host.Outcome State Fault Refusal :=
  commitIf (okChain ch) "chain" s (s.dev.chainOff ch)

/-- CHAIN_ENABLE (R281). -/
def execChainEnable (ch : Nat) (s : State) : Host.Outcome State Fault Refusal :=
  commitIf (okChain ch) "chain" s (s.dev.chainOn ch)

/-! ### Sending -/

/-- The PERIOD record of one chain for S(k + 1) (R269, R270): its edges only where this unit claims and the SST is not
stopped. -/
def Dev.periodRecord (d : Dev) (c : Nat) : List Nat :=
  let edges := d.claims && decide (d.stage ≠ 0) && decide (d.chainState c = 4)
  let slots := (d.chainCells c).zipIdx.flatMap (fun x =>
    let l := if edges then (match d.cmu.edges.find? (fun e => e.1 = x.1) with | some e => e.2 | none => []) else []
    x.2 :: l.length :: l.map (fun e => e.1 + 2 ^ 18 * e.2.1 + 2 ^ 21 * b2n e.2.2))
  [(d.cmu.k + 1) % 2 ^ 32, d.nextStart / tickCount, d.nextCounts, b2n d.claims] ++ slots

/-- PERIOD records go out on a chain: in states 2 and 3 without edges, in state 4 as R270 has it (Table 11-4). -/
def Dev.sendsPeriod (d : Dev) (c : Nat) : Bool := decide (2 ≤ d.chainState c) && decide (d.chainState c ≤ 4)

/-- PERIOD_TRANSMIT (R270): the transmission phase. -/
def execPeriodTransmit (s : State) : Host.Outcome State Fault Refusal :=
  commit s (
    let d := s.dev
    let d1 := d.advance (d.periodInstant (d.fld F.cmuModCfg_txPhase))
    ((List.range 8).filter d1.sendsPeriod).foldl (fun d c => (d.chainPorts c).foldl (fun d p => d.sendCell p 0x10 (d.periodRecord c)) d) d1)

/-- A broadcast TIME on every port of a chain (R275). -/
def Dev.sendTime (d : Dev) (c : Nat) : Dev := (d.chainPorts c).foldl (fun d p => d.sendCell p 0x11 [0xFF, d.sentOn p, d.count, 0]) d

/-- TIME_BROADCAST (R275): every `time_int` ms, in the command window. -/
def execTimeBroadcast (s : State) : Host.Outcome State Fault Refusal :=
  commit s (
    let d := s.dev
    let d1 := d.advance (d.windowFrom (max d.now (d.cln.timeAt + d.fld F.clnCfg_timeInt * tickMs)))
    let d2 := ((List.range 8).filter (fun c => d1.chainState c = 4)).foldl Dev.sendTime d1
    { d2 with cln := { d2.cln with timeAt := d2.now } })

/-- 16 PINGs to every cell of a chain that is there, from every port that reaches it (R274). -/
def Dev.pingChain (d : Dev) (c : Nat) : Dev :=
  ((d.chainCells c).zipIdx.filter (fun x => !d.flag (F.clnCellStat_absent x.1))).foldl (fun d x =>
    (d.chainPorts c).foldl (fun d p => (List.range 16).foldl (fun d _ => d.sendCell p 0x12 [d.distance c p x.2, d.sentOn p]) d)
      (d.setCellNode x.1 { d.cellNode x.1 with pingsA := [], pingsB := [] })) d

/-- DELAY_REMEASURE (R274): once per second, in the command window. -/
def execDelayRemeasure (s : State) : Host.Outcome State Fault Refusal :=
  commit s (
    let d := s.dev
    let d1 := d.advance (d.windowFrom (max d.now (d.cln.remeasureAt + tickS)))
    let d2 := ((List.range 8).filter (fun c => d1.chainState c = 4)).foldl Dev.pingChain d1
    { d2 with cln := { d2.cln with remeasureAt := d2.now } })

/-- An addressed TIME record (R275). -/
def Dev.sendDelay (d : Dev) (x : TimeDue) : Dev := d.sendCell x.port 0x11 [x.dest, d.sentOn x.port, d.count, x.dly]

/-- An addressed TIME record sent at once in an open command window, and otherwise in the next one (R275, R276). -/
def Dev.tellDelay (d : Dev) (x : TimeDue) : Dev :=
  if d.windowOpen then d.sendDelay x else { d with cln := { d.cln with timesDue := d.cln.timesDue ++ [x] } }

/-- The CMD records that wait, sent (R276). -/
def Dev.sendWaiting (d : Dev) : Dev :=
  (List.range 48).foldl (fun d n =>
    let x := d.cellNode n
    x.waiting.foldl (fun d w => d.sendCellCmd n w) (d.setCellNode n { x with waiting := [] })) d

/-- The addressed TIME records that wait, sent (R276). -/
def Dev.sendDelays (d : Dev) : Dev := d.cln.timesDue.foldl Dev.sendDelay { d with cln := { d.cln with timesDue := [] } }

/-- The BLOCK of a stop (R304) or of a trip (R314) that this command window sends. -/
def Dev.sendBlock (d : Dev) : Dev :=
  match d.stage, d.cmu.blockDue with
  | 9, none => if d.cmu.rHold then
      { d with cmu := { d.cmu with blockDue := some (d.cmu.k + 1) } }.blockAll (d.nextStart / tickCount) else d
  | 10, some k => if k ≤ d.cmu.k then { d with cmu := { d.cmu with blockDue := none } }.blockAll 0 else d
  | _, _ => d

/-- The exit condition of stage 2 (Table 12-7) holds: PRECHARGE_OPEN and UNBLOCK go out for the start of stage 3. -/
def Dev.chargeDone (d : Dev) : Dev :=
  if d.stage = 2 && Frac.le (Frac.mul d.vPass (Frac.mk2 d.cmu.params.pcPct 100)) d.serviceMean then
    let next := d.nextStart / tickCount
    let l := d.inService
    { queueAll 0x02 next l (queueAll 0x05 next l d) with cmu := { d.cmu with within := 1 } }
  else d

/-- COMMAND_WINDOW (R276): at 0.30P the CMD records that wait are sent, with the BLOCK of a trip or a stop, the commands
of stage 3, and the bypasses that act at S(k + 1); addressed TIME records with them. -/
def execCommandWindow (s : State) : Host.Outcome State Fault Refusal :=
  commit s (
    let d := s.dev
    let d1 := (d.advance (d.periodInstant 30)).sendBlock.chargeDone.sendWaiting.sendBypasses.sendDelays
    { d1 with cln := { d1.cln with windowAt := d1.now } })

/-! ### Records received -/

/-- A record of the cell link that R267 accepts: type, length, check word (every byte but byte [1]), complement of
`hop`. -/
def cellRecordOk (r : WireRec) (type len : Nat) : Bool :=
  let b := r.bytes
  b.length = len && rd b 0 1 = type && rd b 1 1 / 16 = 15 - rd b 1 1 % 16 &&
    crc32c (b.take 1 ++ (b.drop 2).take (len - 6)) = rd b (len - 4) 4

/-- A record discarded (R267): counted, with its error bit and its source. -/
def Dev.discardCell (d : Dev) (c : Nat) : Dev :=
  ((d.bumpSat (F.clnCrcCount_discarded c)).setFlag (F.clnChainErr_crc c) true).raise (240 + c)

/-- The position that a record from a cell claims agrees with its `hop` and the port of arrival (R268, R273). -/
def Dev.posAgrees (d : Dev) (c port : Nat) (b : Bytes) : Bool :=
  decide (rd b 3 1 < d.fld (F.clnChainCfg_nCells c)) && decide (rd b 3 1 = d.distance c port (rd b 1 1 % 16))

/-- A record has arrived on a port: it has sync (R266). -/
def Dev.heardOn (d : Dev) (c port : Nat) : Dev :=
  if bit (d.chain c).lostPorts port then d.setChain c { d.chain c with lostPorts := setBit (d.chain c).lostPorts port false } else d

/-- The cell that a record names. -/
def Dev.recordCell (d : Dev) (c : Nat) (b : Bytes) : Nat := d.fld (F.clnChainCfg_base c) + rd b 3 1

/-- A higher-ranked unit is obeyed (R280): `rejected`, event 0x0714, source, and this unit withdraws. -/
def Dev.chainRejected (d : Dev) (c term unit : Nat) : Dev :=
  let d1 := (d.setFlag (F.clnChainStat_rejected c) true).setBitAt R.clnRejected c true
  ((d1.event 0x0714 c (le 2 term ++ le 1 unit)).raise (224 + c)).withdraw term |>.afterRole

/-- What `cstat` says of a cell's service (Tables 11-3 and 11-5, R306, R307): an own-fault bypass is told once; a cell in service leaves it, and one
that is held or lost is held no longer once it reports its bypass. `was` is its `cstat` before. -/
def Dev.followCstat (d : Dev) (n was st code : Nat) : Dev :=
  let own := fun (x : Nat) => bit x 1 && bit x 2
  let svc := d.fld (F.cmuCellSvc_svc n)
  let d1 := if own st && !own was then d.event 0x0713 n (le 1 code) else d
  if own st && svc = 0 then d1.cellOut n 2 2
  else if bit st 1 && (svc = 1 || svc = 4) then d1.setFld (F.cmuCellSvc_svc n) 2
  else d1

/-- A first valid MEAS of the period taken (R272, R273). -/
def Dev.takeMeas (d : Dev) (c n : Nat) (b : Bytes) : Dev :=
  let x := d.cellNode n
  let was := d.fld (F.clnCellStat_cstat n)
  let st := rd b 22 2
  let d1 := d.setCellNode n { x with vDc := rd b 12 2, iAc := signed 16 (rd b 14 2), iDab := signed 16 (rd b 16 2),
                                     vOut := rd b 18 2, tHot := signed 16 (rd b 20 2), faultCode := rd b 25 1, got := true, seen := true }
  let d2 := ((d1.setFld (F.clnCellStat_cstat n) st).setFld (F.clnCellStat_position n) (rd b 3 1)).setFld (F.clnCellStat_chain n) c
  let d3 := ((d2.setFld (F.clnCellStat_missed n) (rd b 24 1)).setFlag (F.clnCellStat_lost n) false).setFlag (F.clnCellStat_absent n) false
  let d4 := (d3.setFlag (F.clnChainStat_unitSeen c) (bit (rd b 2 1) 0)).setFld (F.clnChainStat_termSeen c) (rd b 4 2)
  (d4.followCstat n was st (rd b 25 1)).checkStopped

/-- Records from a port are taken: it belongs to the chain, which is in a state from `least` to 4 (Table 11-4). -/
def Dev.listens (d : Dev) (c least port : Nat) : Bool :=
  decide (least ≤ d.chainState c) && decide (d.chainState c ≤ 4) && (d.chainPorts c).contains port

/-- MEAS_RECEIVED (R273). -/
def execMeasReceived (ch port : Nat) (r : WireRec) (s : State) : Host.Outcome State Fault Refusal :=
  commitIf (okChain ch && decide (port < 8)) "chain" s (
    let d := s.dev
    let b := r.bytes
    if !d.listens ch 2 port then d
    else if !cellRecordOk r 0x20 32 then d.discardCell ch
    else if rd b 8 4 ≠ d.cmu.k % 2 ^ 32 then d
    else if !d.posAgrees ch port b then d.bumpSat (F.clnCrcCount_posErr ch)
    else
      let d := d.heardOn ch port
      let n := d.recordCell ch b
      let x := d.cellNode n
      let d1 := if x.got then d else d.takeMeas ch n b
      let y := d1.cellNode n
      let d2 := d1.setCellNode n { y with sideA := y.sideA || !bit (rd b 2 1) 1, sideB := y.sideB || bit (rd b 2 1) 1 }
      let t := rd b 4 2
      let u := rd b 2 1 % 2
      if d2.claims && outranks t u d2.term d2.unit then d2.chainRejected ch t u else d2)

/-- The one-way delay of 16 exchanges, whose round trips less `turn` are given (R274): the median of their halves, which is the mean of the
middle two, in whole bit times. -/
def medianOf (l : List Nat) : Nat :=
  let s := l.foldl (fun a x => (a.filter (fun y => decide (y ≤ x))) ++ x :: a.filter (fun y => decide (x < y))) []
  (s[7]?.getD 0 + s[8]?.getD 0) / 4

/-- A measured one-way delay of a cell from a port (R274, R275): in state 3 it is stored; a delay re-measured takes the place of the
value in use only where it differs by more than 4 bit times, with an addressed TIME and event 0x0715. -/
def Dev.newDelay (d : Dev) (c port n pos dly : Nat) : Dev :=
  let side := b2n (d.fromB c port)
  let f := if side = 0 then F.clnCellDly_a n else F.clnCellDly_b n
  let old := d.fld f
  let diff := if old < dly then dly - old else old - dly
  let again := decide (d.chainState c = 4)
  if again && decide (diff ≤ 4) then d
  else
    let d1 := d.setFld f (min dly 65535)
    let d2 := d1.setFld (F.clnChainDly_largest c) (max (d1.fld (F.clnChainDly_largest c)) (min dly 65535))
    let d3 := d2.tellDelay ⟨port, d2.distance c port pos, dly⟩
    if again then d3.event 0x0715 n (le 2 dly ++ le 1 side) else d3

/-- PONG_RECEIVED (R274): `rt` is the round trip in bit times. -/
def execPongReceived (ch port : Nat) (r : WireRec) (rt : Nat) (s : State) : Host.Outcome State Fault Refusal :=
  commitIf (okChain ch && decide (port < 8)) "chain" s (
    let d := s.dev
    let b := r.bytes
    if !d.listens ch 3 port then d
    else if !cellRecordOk r 0x21 24 then d.discardCell ch
    else if !d.posAgrees ch port b then d.bumpSat (F.clnCrcCount_posErr ch)
    else
      let n := d.recordCell ch b
      let x := d.cellNode n
      let far := d.fromB ch port
      let l := (if far then x.pingsB else x.pingsA) ++ [rt - rd b 12 4]
      let full := decide (16 ≤ l.length)
      let keep := if full then [] else l
      let d1 := d.setCellNode n (if far then { x with pingsB := keep } else { x with pingsA := keep })
      if full then d1.newDelay ch port n (rd b 3 1) (medianOf l) else d1)

/-- ACK_RECEIVED (R278, R306). -/
def execAckReceived (ch port : Nat) (r : WireRec) (s : State) : Host.Outcome State Fault Refusal :=
  commitIf (okChain ch && decide (port < 8)) "chain" s (
    let d := s.dev
    let b := r.bytes
    if !d.listens ch 3 port then d
    else if !cellRecordOk r 0x22 20 then d.discardCell ch
    else if !d.posAgrees ch port b then d.bumpSat (F.clnCrcCount_posErr ch)
    else
      let n := d.recordCell ch b
      let x := d.cellNode n
      match x.cmds.find? (fun q => q.cseq = rd b 8 4) with
      | none => d
      | some q =>
        let d1 := d.setCellNode n { x with cmds := x.cmds.filter (fun y => y.cseq ≠ q.cseq) }
        let st := rd b 12 1
        match q.oid with
        | none => d1
        | some o =>
          if st = 0 ∨ st = 3 then d1.finish o (d1.doneStatus o) (le 1 d1.setInForce)
          else d1.bypassFails n o)

/-- A CMD given up (R278): `cmd_tmo` of its chain, and the command that it serves (R306). -/
def Dev.giveUpCmd (d : Dev) (n : Nat) (q : CellCmd) : Dev :=
  let d1 := match d.cellPlace n with
    | some (c, _) => (d.setFlag (F.clnChainErr_cmdTmo c) true).raise (232 + c)
    | none => d
  match q.oid with
  | some o => d1.bypassFails n o
  | none => d1

/-- The first CMD to a cell whose ACK has not come within `cmd_tmo` periods (R278). -/
def Dev.cmdDue (d : Dev) (n : Nat) : Option CellCmd :=
  (d.cellNode n).cmds.find? (fun q => decide (q.sent + d.fld F.clnCfg_cmdTmo ≤ d.cmu.k))

/-- CMD_TIMEOUT (R278): that CMD is sent again with its `cseq`, in the command window, or given up after `cmd_retry` resends or where the
cell's chain is no longer enabled. -/
def execCmdTimeout (n : Nat) (s : State) : Host.Outcome State Fault Refusal :=
  commitIf (decide (n < 48)) "cell" s (
    let d := s.dev
    match d.cmdDue n with
    | none => d
    | some q =>
      let x := d.cellNode n
      match d.cellPlace n with
      | some (c, pos) =>
        if q.retries < d.fld F.clnCfg_cmdRetry then
          let (port, dest) := d.chainPort c pos
          let d1 := d.advance (d.windowFrom d.now)
          (d1.setCellNode n { x with cmds := x.cmds.map (fun y =>
            if y.cseq = q.cseq then { y with sent := d.cmu.k, retries := q.retries + 1 } else y) }).sendCell port 0x13 [dest, q.cseq, q.op, q.tAct]
        else (d.setCellNode n { x with cmds := x.cmds.filter (fun y => y.cseq ≠ q.cseq) }).giveUpCmd n q
      | none => (d.setCellNode n { x with cmds := x.cmds.filter (fun y => y.cseq ≠ q.cseq) }).giveUpCmd n q)

/-! ### Losses and training -/

/-- CELL_LOST (R282, R307). -/
def execCellLost (n : Nat) (s : State) : Host.Outcome State Fault Refusal :=
  commitIf (decide (n < 48)) "cell" s (
    let d := s.dev
    match d.cellPlace n with
    | some (c, _) =>
      let x := d.cellNode n
      if (d.chainState c ≠ 4 && !(d.sstUp && decide (d.fld (F.cmuCellSvc_svc n) = 0))) || d.flag (F.clnCellStat_lost n) || d.flag (F.clnCellStat_absent n) ||
          decide (x.missed < d.fld F.clnCfg_cellMiss) then d
      else
        let d1 := ((d.setFlag (F.clnCellStat_lost n) true).setFlag (F.clnChainErr_cellLost c) true).event 0x0712 n
          (le 1 (d.fld (F.clnCellStat_missed n)))
        let svc := d1.fld (F.cmuCellSvc_svc n)
        let d2 := if svc = 0 then (d1.queueCellCmd n 0x03 0 none).cellOut n 4 3 else d1
        d2.checkStopped
    | none => d)

/-- CELL_LINK_SYNC_LOSS (R266). -/
def execCellLinkSyncLoss (ch port : Nat) (s : State) : Host.Outcome State Fault Refusal :=
  commitIf (okChain ch && decide (port < 8)) "chain" s (
    let d := s.dev
    if (d.chainPorts ch).contains port then
      (d.setFlag (F.clnChainErr_sync ch) true).setChain ch { d.chain ch with lostPorts := setBit (d.chain ch).lostPorts port true }
    else d)

/-- CHAIN_LOST (R282): sync lost on every port (cause 1), or no MEAS in 3 periods (cause 2). -/
def execChainLost (ch : Nat) (s : State) : Host.Outcome State Fault Refusal :=
  commitIf (okChain ch) "chain" s (
    let d := s.dev
    let x := d.chain ch
    let sync := (d.chainPorts ch).all (fun p => bit x.lostPorts p)
    if !(decide (2 ≤ d.chainState ch) && decide (d.chainState ch ≤ 4)) || !(sync || decide (3 ≤ x.silent)) then d
    else
      let d1 := (d.setChainReady ch false).setFlag (F.clnChainErr_lost ch) true
      let d2 := (d1.setChainState ch 1).failChain ch
      let d3 := d2.setChain ch { d2.chain ch with silent := 0 }
      (d3.event 0x0710 ch (le 1 (if sync then 1 else 2))).raiseLevel (208 + ch))

/-- Every position of the chain has been heard, or 1 s has passed in state 2 (Table 11-4). -/
def Dev.discovered (d : Dev) (c : Nat) : Bool :=
  (d.chainCells c).all (fun n => (d.cellNode n).seen) || decide ((d.chain c).stateFrom + tickS ≤ d.now)

/-- The delays of the cells that are there, from every port that reaches them. -/
def Dev.chainDelays (d : Dev) (c : Nat) : List Nat :=
  ((d.chainCells c).filter (fun n => !d.flag (F.clnCellStat_absent n))).flatMap (fun n =>
    (d.chainPorts c).map (fun p => d.fld (if d.fromB c p then F.clnCellDly_b n else F.clnCellDly_a n)))

/-- State 2 entered: every port of the chain has sync, and no cell has been heard yet. -/
def Dev.beginDiscovery (d : Dev) (c : Nat) : Dev :=
  let d1 := d.setChainState c 2
  let d2 := d1.setChain c { d1.chain c with lostPorts := 0, silent := 0 }
  (d2.chainCells c).foldl (fun d n => d.setCellNode n { d.cellNode n with got := false, seen := false }) d2

/-- State 3 entered: positions unheard are marked `absent`, and the delays of the others are measured, in the command window. -/
def Dev.beginDelays (d : Dev) (c : Nat) : Dev :=
  let d1 := (d.chainCells c).foldl (fun d n => (d.setFlag (F.clnCellStat_absent n) (!(d.cellNode n).seen)).setRegN (R.clnCellDly n) 0) d
  (((d1.setFld (F.clnChainDly_largest c) 0).advance (d1.windowFrom d1.now)).setChainState c 3).pingChain c

/-- State 4 entered: `chain` c sets, with event 0x0716. -/
def Dev.chainRuns (d : Dev) (c : Nat) : Dev :=
  let heard := ((d.chainCells c).filter (fun n => !d.flag (F.clnCellStat_absent n))).length
  (((d.setChainState c 4).setChainReady c true).event 0x0716 c (le 1 heard)).clearLevel (208 + c)

/-- The exit condition of the chain's state (Table 11-4): in state 1 that every port has sync is what the row says. -/
def Dev.trainChain (d : Dev) (c : Nat) : Dev :=
  match d.chainState c with
  | 0 => if d.wiringOk c then d.setChainState c 1 else d
  | 1 => d.beginDiscovery c
  | 2 => if d.discovered c then d.beginDelays c else d
  | 3 =>
    let l := d.chainDelays c
    if l.any (fun x => decide (5000 < x)) then (d.setFlag (F.clnChainErr_tooFar c) true).failChain c
    else if l.all (fun x => x ≠ 0) then d.chainRuns c else d
  | _ => d

/-- CHAIN_TRAIN_STEP (R281): the exit condition of the chain's state holds and it passes on; from state 3 a delay over
2 µs is a failure. A draining chain passes on although its `en` is clear. -/
def execChainTrainStep (ch : Nat) (s : State) : Host.Outcome State Fault Refusal :=
  commitIf (okChain ch) "chain" s (
    let d := s.dev
    if d.chainState ch = 5 then d.chainDrained ch
    else if !d.bitAt R.clnChainEn ch || (d.chain ch).retryAt.isSome then d else d.trainChain ch)

/-- CHAIN_RETRY_TIMER (R281). -/
def execChainRetryTimer (ch : Nat) (s : State) : Host.Outcome State Fault Refusal :=
  commitIf (okChain ch) "chain" s (
    let d := s.dev
    match (d.chain ch).retryAt with
    | some t => if d.bitAt R.clnChainEn ch then (d.advance t).setChainState ch 1 else d
    | none => d)

end Sys2Proof.Machine
end

