-- ==== Sys2Proof/Machine/Ths.lean ====
section
/-! DEFINITION. The thermal and supply supervisor (chapter 18): sensors, limits, throttling, supply monitors, brown-out, and the
exit from economy mode (R27). -/

namespace Sys2Proof.Machine

/-- A sensor's state beside its registers. -/
def Dev.sensor (d : Dev) (i : Nat) : Sensor := tget (fun _ => {}) d.ths.sensors i
/-- A sensor's state replaced. -/
def Dev.setSensor (d : Dev) (i : Nat) (x : Sensor) : Dev :=
  { d with ths := { d.ths with sensors := tput (fun _ => {}) d.ths.sensors i x } }

/-- The neighbours of a sensor (Table 18-1). -/
def sensorNeighbours (i : Nat) : List Nat :=
  match i with
  | 16 => [17, 20, 22] | 17 => [16, 18, 22] | 18 => [17, 19, 22] | 19 => [18, 21, 22] | 20 => [16, 22, 23]
  | 21 => [19, 22, 23] | 22 => [5, 6, 9, 10] | 23 => [20, 21, 22] | 24 => [25, 26, 27] | 25 => [24, 26, 27]
  | 26 => [24, 25, 27] | 27 => [24, 25, 26]
  | _ => (if 4 ≤ i then [i - 4] else []) ++ (if i % 4 ≠ 0 then [i - 1] else []) ++ (if i % 4 ≠ 3 then [i + 1] else []) ++
         (if i < 12 then [i + 4] else [])

/-- A sensor's last reading in 0.01 °C. -/
def Dev.senseT (d : Dev) (i : Nat) : Int := signed 16 (d.fld (F.thsSensT_reading i))

/-- A sensor is excluded (R434). -/
def Dev.excluded (d : Dev) (i : Nat) : Bool := d.flag (F.thsSensFlags_excluded i)

/-- A sensor is valid: it has delivered a reading and is not excluded. -/
def Dev.sensorValid (d : Dev) (i : Nat) : Bool := (d.sensor i).hist ≠ [] && !d.excluded i

/-- The readings of a sensor's neighbours that are not themselves excluded (R434). -/
def Dev.neighbourReadings (d : Dev) (i : Nat) : List Int := ((sensorNeighbours i).filter d.sensorValid).map d.senseT

/-- The sum of a list. -/
def sumInt (l : List Int) : Int := l.foldl (· + ·) 0

/-- The excluded set found anew from the suspects, in ascending number (R434): at least 18 sensors of the logic die and 3 of
the companion die stay valid. -/
def Dev.setExcluded (d : Dev) : Dev :=
  let sus := (List.range 28).filter (fun i => d.flag (F.thsSensFlags_suspect i))
  let ex := (sus.filter (fun i => decide (i < 24))).take 6 ++ (sus.filter (fun i => decide (24 ≤ i))).take 1
  (List.range 28).foldl (fun d i => (d.setFlag (F.thsSensFlags_excluded i) (ex.contains i)).setBitAt R.thsExcluded i (ex.contains i)) d

/-- A sensor marked suspect, or no longer (R434): its source follows. -/
def Dev.setSuspect (d : Dev) (i : Nat) (v : Bool) : Dev :=
  let d1 := ((d.setFlag (F.thsSensFlags_suspect i) v).setBitAt R.thsSuspect i v).setExcluded
  (d1.setSensor i { d1.sensor i with goodFrom := none }).level (376 + i) v

/-- The cross-check of a new reading against its neighbours (R434). -/
def Dev.crossCheck (d : Dev) (i : Nat) : Dev :=
  let l := d.neighbourReadings i
  let n : Int := l.length
  let diff := (n * d.senseT i - sumInt l).natAbs
  if l.length < 2 then d
  else if !d.flag (F.thsSensFlags_suspect i) then (if 800 * l.length < diff then d.setSuspect i true else d)
  else if diff ≤ 400 * l.length then
    let x := d.sensor i
    let t := x.goodFrom.getD d.now
    if t + tickS ≤ d.now then d.setSuspect i false else d.setSensor i { x with goodFrom := some t }
  else d.setSensor i { d.sensor i with goodFrom := none }

/-- Readings of the 64 ms that end at tick `t`. -/
def Sensor.window (x : Sensor) (t : Int) : List Int :=
  (x.hist.filter (fun r => decide ((r.1 : Int) ≤ t) && decide (t - (64 * tickMs : Nat) < (r.1 : Int)))).map (fun r => r.2)

/-- The rate of a sensor in 0.01 °C/s (R435); none while a window holds no reading. -/
def Dev.sensorRate (d : Dev) (i : Nat) : Option Frac :=
  let a := (d.sensor i).window d.now
  let b := (d.sensor i).window ((d.now : Int) - (tickS : Nat))
  if a = [] ∨ b = [] then none else some (Frac.sub (Frac.mk2 (sumInt a) a.length) (Frac.mk2 (sumInt b) b.length))

/-- The rate warning of a sensor (R435); an excluded sensor has none. -/
def Dev.rateCheck (d : Dev) (i : Nat) : Dev :=
  let warn : Int := 25 * d.fld F.thsTempCfg_rateWarn
  let r := d.sensorRate i
  let d1 := match r with
    | some v => d.setFld (F.thsSensT_rate i) (pattern 16 (clampInt (-32768) 32767 (Frac.round v)))
    | none => d
  let was := d.flag (F.thsSensFlags_rateWarn i)
  let now := d.sensorValid i && (match r with
    | some v => if was then !Frac.lt v (Frac.ofInt (warn - 50)) else Frac.le (Frac.ofInt warn) v
    | none => was)
  if now = was then d1 else (d1.setFlag (F.thsSensFlags_rateWarn i) now).level (320 + i) now

/-- The absolute limit of a sensor (R436). -/
def Dev.absCheck (d : Dev) (i : Nat) : Dev :=
  let lim : Int := 100 * d.fld F.thsTempCfg_absLim
  let l := d.neighbourReadings i
  let two := match (d.sensor i).hist with | a :: b :: _ => decide (lim ≤ a.2) && decide (lim ≤ b.2) | _ => false
  let trust := !d.flag (F.thsSensFlags_suspect i) || (l ≠ [] && decide ((lim - 2000) * (l.length : Nat) ≤ sumInt l))
  if d.flag (F.thsSensFlags_abs i) then
    if d.senseT i < lim - 500 then (d.setFlag (F.thsSensFlags_abs i) false).clearLevel (348 + i) else d
  else if two && trust then (d.setFlag (F.thsSensFlags_abs i) true).raiseLevel (348 + i) else d

/-- The sampling rate of a sensor (R433). -/
def Dev.fastCheck (d : Dev) (i : Nat) : Dev :=
  let lim : Int := 100 * d.fld F.thsTempCfg_absLim
  let x := d.sensor i
  let d1 :=
    if lim - 1000 ≤ d.senseT i then (d.setFlag (F.thsSensFlags_fast i) true).setSensor i { x with coolFrom := none }
    else if !d.flag (F.thsSensFlags_fast i) then d
    else if lim - 1200 ≤ d.senseT i then d.setSensor i { x with coolFrom := none }
    else
      let t := x.coolFrom.getD d.now
      if t + 100 * tickMs ≤ d.now then (d.setFlag (F.thsSensFlags_fast i) false).setSensor i { x with coolFrom := none }
      else d.setSensor i { x with coolFrom := some t }
  d1.setFlag F.thsStat_fast ((List.range 28).any (fun j => d1.flag (F.thsSensFlags_fast j)))

/-! ### Throttling -/

/-- The hottest valid sensor of the logic die, the lowest number on a tie. -/
def Dev.hottest (d : Dev) : Option Nat :=
  ((List.range 24).filter d.sensorValid).foldl (fun best i => match best with
    | none => some i
    | some b => if d.senseT b < d.senseT i then some i else some b) none

/-- T in 0.01 °C (R437); far below every threshold while no sensor of the logic die is valid. -/
def Dev.tMax (d : Dev) : Int := match d.hottest with | some i => d.senseT i | none => -32768

/-- The threshold of throttle step `k` in 0.01 °C. -/
def Dev.thrStep (d : Dev) (k : Nat) : Int := 100 * (d.fld F.thsTempCfg_tThr + 5 * (k - 1) : Nat)

/-- The throttle level that the readings ask for (R437). -/
def Dev.wantedLevel (d : Dev) : Nat :=
  let t := d.tMax
  let hot := if t < d.thrStep 1 then 0 else if t < d.thrStep 2 then 1 else if t < d.thrStep 3 then 2 else 3
  max hot (b2n ((List.range 24).any (fun i => d.flag (F.thsSensFlags_rateWarn i))))

/-- The level can fall by a step: less is asked for, and T lies 2 °C below the threshold of the step being left. -/
def Dev.mayFall (d : Dev) : Bool :=
  decide (0 < d.ths.target) && decide (d.wantedLevel < d.ths.target) && decide (d.tMax < d.thrStep d.ths.target - 200)

/-- Since when the level can fall (R437). -/
def Dev.watchFall (d : Dev) : Dev :=
  { d with ths := { d.ths with belowFrom := if d.mayFall then some (d.ths.belowFrom.getD d.now) else none } }

/-- The level in force (THS.STAT): its rises and its seconds are counted (Table 18-5). -/
def Dev.setLevel (d : Dev) (v : Nat) : Dev :=
  let old := d.fld F.thsStat_level
  let d1 := d.setFld F.thsStat_level v
  let d2 := if old < v then d1.setFld F.thsThrCount_rises (d1.fld F.thsThrCount_rises + 1) else d1
  if old = 0 ∧ 0 < v then { d2 with ths := { d2.ths with secondsFrom := d2.now } }
  else if 0 < old ∧ v = 0 then
    let run := d2.ths.secondsLeft + (d2.now - d2.ths.secondsFrom)
    ({ d2 with ths := { d2.ths with secondsLeft := run % tickS } }).addSat F.thsThrCount_seconds (run / tickS)
  else d2

/-- The hold engines that are enabled (R438). -/
def Dev.holdEngines (d : Dev) : List Nat := engines.filter d.holdEngine

/-- The mode of throttling and the cap of its level (R438, R439), as they are found at a frame strobe. -/
def Dev.applyThrottle (d : Dev) : Dev :=
  let l := d.holdEngines
  let divide := decide (l.length ≤ 4)
  let fit := fun (k : Nat) => l.all (fun e => decide (d.engCost e * 2 ^ k ≤ 1080))
  let cap := if fit 3 then 3 else if fit 2 then 2 else if fit 1 then 1 else 0
  let v := if divide then min cap d.ths.target else d.ths.target
  ((d.setFlag F.thsStat_divMode divide).setFlag F.thsStat_thrLimited (divide && decide (v < d.ths.target))).setLevel v

/-- What throttling does at a frame strobe (R437, R439, R440): the level rises to its target; it is 0 while `thr_en` is 0. -/
def Dev.throttleStrobe (d : Dev) : Dev :=
  let v := if d.flag F.thsCtrl_thrEn then max d.ths.target d.wantedLevel else 0
  (({ d with ths := { d.ths with target := v } }).applyThrottle).watchFall

/-- THROTTLE_FALL (R437): 100 ms after the level could fall. Under clock division the level in force follows at the next frame strobe (R439). -/
def execThrottleFall (s : State) : Host.Outcome State Fault Refusal :=
  commit s (match s.dev.ths.belowFrom with
    | none => s.dev
    | some t =>
      let d := s.dev.advance (t + 100 * tickMs)
      let d1 := { d with ths := { d.ths with target := d.ths.target - 1, belowFrom := none } }
      (if d1.flag F.thsStat_divMode then d1 else d1.applyThrottle).watchFall)

/-- THROTTLE_DISABLE (R440): pauses and division end at the next frame strobe. -/
def execThrottleDisable (s : State) : Host.Outcome State Fault Refusal := commit s (s.dev.setFlag F.thsCtrl_thrEn false)

/-- T and the hottest sensor as THS.STAT shows them; no sensor leaves them as they are. -/
def Dev.showHottest (d : Dev) : Dev :=
  match d.hottest with
  | some i => (d.setFld F.thsStat_hottest i).setFld F.thsStat_tMax (pattern 16 (d.senseT i))
  | none => d

/-- A sensor's interval (R433). -/
def Dev.sensorInterval (d : Dev) (i : Nat) : Nat := if d.flag (F.thsSensFlags_fast i) then tickMs / 16 else tickMs

/-- The temperature in °C at a sensor of Table 18-2 (R441): its own reading, or the mean of its valid neighbours while it is excluded; none before
there is a reading. -/
def Dev.compTemp (d : Dev) (i : Nat) : Option Frac :=
  let l := if d.excluded i then d.neighbourReadings i else if (d.sensor i).hist = [] then [] else [d.senseT i]
  if l = [] then none else some (Frac.mk2 (sumInt l) (100 * l.length))

/-- The corrections after a reading (R441, Table 18-2): the RC oscillator with the sensors clock, the ADC internal reference, the DAC span
references and the PWM delay lines. The delay lines of a leg follow at its period ends. -/
def Dev.compensate (d : Dev) : Dev :=
  let c := d.ths.comp
  let pll := d.compTemp 23
  { d with ths := { d.ths with comp := { clock := pll.or c.clock, adcRef := (d.compTemp 24).or c.adcRef,
                                         dacRef := (d.compTemp 25).or c.dacRef, lines := pll.or c.lines } } }

/-- SENSOR_READING (R432 to R437, R441): sensor `i` reads `v` in 0.01 °C, one interval after its last reading. -/
def execSensorReading (i : Nat) (v : Int) (s : State) : Host.Outcome State Fault Refusal :=
  commitIf (decide (i < 28) && decide (-32768 ≤ v) && decide (v ≤ 32767)) "sensor" s (
    let x := s.dev.sensor i
    let d := if x.hist = [] then s.dev else s.dev.advance (x.readAt + s.dev.sensorInterval i)
    let keep := x.hist.take 1 ++ (x.hist.drop 1).filter (fun r => decide (d.now < r.1 + tickS + 64 * tickMs))
    let d1 := (d.setSensor i { x with readAt := d.now, hist := (d.now, v) :: keep }).setFld (F.thsSensT_reading i) (pattern 16 v)
    let d2 := if signed 16 (d1.fld (F.thsSensMax_reading i)) < v then d1.setFld (F.thsSensMax_reading i) (pattern 16 v) else d1
    ((((((d2.crossCheck i).rateCheck i).absCheck i).fastCheck i).showHottest).watchFall).compensate)

/-- A change of THS.TEMP_CFG takes effect on every sensor (R436). -/
def Dev.tempCfgChanged (d : Dev) : Dev :=
  ((List.range 28).foldl (fun d i => if (d.sensor i).hist = [] then d else ((d.rateCheck i).absCheck i).fastCheck i) d).watchFall

/-! ### Supply monitors -/

/-- A rail's state. -/
def Dev.rail (d : Dev) (r : Nat) : Rail := tget (fun _ => {}) d.ths.rails r

/-- A rail's voltage, as a magnitude in mV, within the limits of Table 18-3. -/
def Dev.railGood (d : Dev) (r mv : Nat) : Bool :=
  decide (d.fld (F.thsSupLim_under r) ≤ mv) && decide (mv ≤ d.fld (F.thsSupLim_over r))

/-- THS.SUP_V of a rail; VNEG_DAC is negative. -/
def Dev.showRail (d : Dev) (r mv : Nat) : Dev := d.setFld (F.thsSupV_mv r) (pattern 16 (if r = 10 then -(mv : Int) else mv))

/-- The contents of both DDR5 channels are as after a cold start (R443, R450): evicted loops start as for a discarded record
(Table 19-2). -/
def Dev.loseDdr (d : Dev) : Dev :=
  let out := d.driveElems.filter (fun e => (d.loop e).evicted)
  let d1 := out.foldl (fun d e => d.setLoop e { d.loop e with start := some ⟨(d.loop e).code, none⟩, i := ⟨0, -128⟩ }) d
  { d1 with mem := { d1.mem with ddr := [] } }

/-- What a rail outside its limits does beyond its source's class (R443). -/
def Dev.railOut (d : Dev) (r : Nat) : Dev :=
  match r with
  | 5 => ((((d.setFlag F.cpxReady1_ddr0 false).setFlag F.cpxReady1_ddr1 false).setDstate 0 0).setDstate 1 0).loseDdr
  | 9 | 10 => ((List.range 16).filter (fun c => d.cstate c ≠ 0)).foldl Dev.dacOff (d.setFlag F.cpxReady1_dac false)
  | 11 => d.setFlag F.cpxReady1_pwm false
  | _ => d

/-- SUPPLY_EXCURSION (R442, R443): rail `rail` has been at `mv` (a magnitude in mV), outside its limits, for 2 µs. -/
def execSupplyExcursion (rail mv : Nat) (s : State) : Host.Outcome State Fault Refusal :=
  commitIf (decide (rail < 12) && decide (mv < 32768)) "rail" s (
    let d := s.dev
    if d.railGood rail mv ∨ !bit (d.regN R.thsSupStat) rail then d
    else
      let d1 := ((d.showRail rail mv).bumpSat (F.thsSupV_excursions rail)).setBitAt R.thsSupStat rail false
      (d1.railOut rail).raiseLevel (404 + rail))

/-- What a rail back within its limits allows again (R443): the DDR5 channels train, `dac` and `pwm` set. -/
def Dev.railBack (d : Dev) (r : Nat) : Dev :=
  let boot := d.flag F.cpxReady1_boot
  match r with
  | 5 => (d.setDstate 0 1).setDstate 1 1
  | 9 | 10 => if boot && !d.present 413 && !d.present 414 then d.setFlag F.cpxReady1_dac true else d
  | 11 =>
    let d1 := if 11500 < d.fld (F.thsSupV_mv 11) then d.setFlag F.gdpStat_vgdOk true else d
    if boot && d.flag F.pwmCtrl_en && d.flag F.pwmStat_hrLock then d1.setFlag F.cpxReady1_pwm true else d1
  | _ => d

/-- SUPPLY_RECOVER (R442, R443): the rail has been back within its limits, at `mv`, for 100 µs. -/
def execSupplyRecover (rail mv : Nat) (s : State) : Host.Outcome State Fault Refusal :=
  commitIf (decide (rail < 12) && decide (mv < 32768)) "rail" s (
    let d := s.dev
    if !d.railGood rail mv then d
    else
      let d1 := ((d.showRail rail mv).setBitAt R.thsSupStat rail true).clearLevel (404 + rail)
      let d2 := { d1 with ths := { d1.ths with rails := tput (fun _ => {}) d1.ths.rails rail ⟨d1.now - 100 * tickUs⟩ } }
      (if bit (d.regN R.thsSupStat) rail && decide (rail ≠ 11) then d2 else d2.railBack rail).updateAlive)

/-- BROWN_OUT (R444): the device is held in reset as if PORST_N were low. -/
def execBrownOut (s : State) : Host.Outcome State Fault Refusal :=
  commit s (let d := s.dev.resetAll 1
            { d with mem := { d.mem with brownOut := true } })

/-- BROWN_OUT_RECOVERY (R444): a cold start with cause 0x01. -/
def execBrownOutRecovery (s : State) : Host.Outcome State Fault Refusal :=
  commit s (if s.dev.mem.brownOut then s.dev.coldStart 1 (s.dev.flag F.twnStat_unitId) else s.dev)

/-! ### Economy mode -/

/-- ECONOMY_EXIT (R27): `exit_dwell` after no trigger is present any more and the LV bus lies above `exit_v`. -/
def execEconomyExit (s : State) : Host.Outcome State Fault Refusal :=
  commit s (match s.dev.ths.dwellFrom with
    | none => s.dev
    | some t => if s.dev.economy then (s.dev.advance (t + s.dev.fld F.thsEconCtrl_exitDwell * tickMs)).leaveEconomy else s.dev)

end Sys2Proof.Machine
end

