-- ==== Sys2Proof/Machine/Mem.lean ====
section
/-! DEFINITION. The memory system (chapter 19): errors and what their readers do (Table 19-2), and the JTAG port (R471). -/

namespace Sys2Proof.Machine

/-- An evicted or resident loop's record discarded (Table 19-2): it starts from its last code as in the cold or warm start row
of Table 7-6. -/
def Dev.discardRecord (d : Dev) (el : Nat) : Dev :=
  let x := d.loop el
  d.setLoop el { x with start := some ⟨x.code, none⟩, i := ⟨0, -128⟩ }

/-- The command in progress completes with INTERNAL (Table 19-2), and source 299 asserts (Table 2-6). A move that has begun
goes on. -/
def Dev.failCommand (d : Dev) (oid : Nat) : Dev :=
  let begun := match d.findMove oid with | some m => m.elems.any (fun x => x.started) | none => false
  if (d.findOpen oid).isNone || begun then d
  else
    let d1 := match d.cal.job with | some j => if j.oid = oid then d.clearJob j false else d | none => d
    let d2 := match d1.rtp.loading with
      | some (o, _) => if o = oid then ({ d1 with rtp := { d1.rtp with loading := none } }).setFlag F.rtpMapStat_loading false else d1
      | none => d1
    (d2.closeKeyed oid St.internal).raise 299

/-- What the reader of an uncorrectable word does (Table 19-2). `reader`: 0 TRN, 1 PLM, 2 LPC, 3 the host through BAR2, 4 CPX
or supervisor, 5 any other. `arg`: descriptor, element, element, -, the command by its place among the open ones, and the
subsystem's own source where the repeated transfer fails too. -/
def Dev.readerFails (d : Dev) (reader arg : Nat) : Dev :=
  match reader with
  | 0 => match d.segDesc arg with
    | some x => { d with trn := { d.trn with descs := aput d.trn.descs arg { x with complete := false } } }
    | none => d
  | 1 => if (d.loop arg).evicted then d.discardRecord arg else d
  | 2 => (d.discardRecord arg).setLoop arg { (d.discardRecord arg).loop arg with maskAt := some d.frame }
  | 4 => match d.cpx.opened[arg]? with | some o => d.failCommand o.oid | none => d
  | 5 => if okSource arg then d.assertSource arg else d
  | _ => d

/-- The address of a channel's last error (Table 19-4). -/
def Dev.errorAt (d : Dev) (ch addr : Nat) : Dev :=
  if ch = 2 then d.setRegN R.memSramAddr addr
  else (d.setRegN (R.memDdrEaddrLo ch) addr).setRegN (R.memDdrEaddrHi ch) (addr / 2 ^ 32)

/-- A whole-register counter one up, saturating. -/
def Dev.bumpTop (d : Dev) (off : Nat) : Dev := d.setRegN off (min (d.regN off + 1) 0xFFFFFFFF)

/-- SRAM_UNCORRECTABLE (R446, R452). -/
def execSramUncorrectable (reader arg addr : Nat) (s : State) : Host.Outcome State Fault Refusal :=
  commitIf (decide (reader < 6)) "reader" s ((((s.dev.bumpTop R.memSramUe).errorAt 2 addr).readerFails reader arg).raise 418)

/-- DDR_UNCORRECTABLE (R451, R452). -/
def execDdrUncorrectable (ch reader arg addr : Nat) (s : State) : Host.Outcome State Fault Refusal :=
  commitIf (decide (ch < 2) && decide (reader < 6)) "channel or reader" s (
    (((s.dev.bumpTop (R.memDdrUe ch)).errorAt ch addr).readerFails reader arg).raise (416 + ch))

/-- ECC_CORRECTED_ERROR (R446, R451): a corrected word of a channel, or of the SRAM for `ch` 2. -/
def execEccCorrectedError (ch addr : Nat) (s : State) : Host.Outcome State Fault Refusal :=
  commitIf (decide (ch < 3)) "channel" s ((s.dev.bump (if ch = 2 then R.memSramCe else R.memDdrCe ch)).errorAt ch addr)

/-- DDR_TRAINING_FAILED (R447): an unsupported DIMM; the channel's ready bit stays 0. -/
def execDdrTrainingFailed (ch : Nat) (s : State) : Host.Outcome State Fault Refusal :=
  commitIf (decide (ch < 2)) "channel" s (
    ((s.dev.setDstate ch 4).setFlag (F.memDdrStat_spdBad ch) true).setFlag (if ch = 0 then F.cpxReady1_ddr0 else F.cpxReady1_ddr1) false)

/-- The data rate of a channel in MT/s (Table 19-4). -/
def Dev.ddrRate (d : Dev) (c : Nat) : Nat :=
  match d.fld (F.memDdrCfg_rate c) with | 1 => 4000 | 2 => 4400 | 3 => 4800 | _ => 0

/-- What the host reads at offset `x` of BAR2 (R449): the byte of the harvest region there, 8 GB long; none where BAR2, which is enabled
together with BAR0 (R74), is disabled or ends below `x`. -/
def Dev.bar2Byte (d : Dev) (x : Nat) : Option Byte :=
  if d.flag F.cpxReady1_pcie && decide (x < 2 ^ 33) then
    some ((aget d.mem.ddr (0x80000000 + x)).getD (Config.ddrPowerOn (0x80000000 + x)))
  else none

/-- MEM_STATUS (chapter 19). -/
def bodyMemStatus (d : Dev) (c : Call) : Dev × Verdict :=
  let b := c.packet.cmd.payload
  let n := rd b 0 1
  if 2 < n ∨ rd b 1 3 ≠ 0 then refuse d St.badParam
  else if n = 2 then
    (d, .final St.done (le 1 2 ++ le 1 2 ++ le 2 0 ++ le 4 (d.regN R.memSramCe) ++ le 4 (d.regN R.memSramUe) ++ le 4 0 ++
      le 8 (d.regN R.memSramAddr) ++ le 8 0))
  else
    (d, .final St.done (le 1 n ++ le 1 (d.fld (F.memDdrStat_dstate n)) ++ le 2 (d.ddrRate n) ++ le 4 (d.regN (R.memDdrCe n)) ++
      le 4 (d.regN (R.memDdrUe n)) ++ le 4 (d.scrubAt n % 2 ^ 32) ++
      le 8 (d.regN (R.memDdrEaddrLo n) + 2 ^ 32 * d.regN (R.memDdrEaddrHi n)) ++ le 8 0))

/-- The IDCODE (R471): 0x9512 in bits [27:12]; the rest is not stated. -/
def idcode : Nat := Config.idcodeRest % 16 * 2 ^ 28 + 0x9512 * 2 ^ 12 + Config.idcodeRest / 16 % 4096

/-- JTAG_INSTRUCTION (R471): 0 BYPASS, 1 IDCODE, 2 SAMPLE/PRELOAD, 3 EXTEST; any other instruction, and 2 and 3 while PORST_N is
high, behave as BYPASS. -/
def execJtagInstruction (ir : Nat) (s : State) : Host.Outcome State Fault Refusal :=
  commit s (
    let low := !s.dev.mem.porst
    let v := if ir = 1 then 1 else if low && (decide (ir = 2) || decide (ir = 3)) then ir else 0
    { s.dev with mem := { s.dev.mem with jtagIr := v } })

end Sys2Proof.Machine
end

