-- ==== Sys2Proof/Machine/View.lean ====
section
/-! DEFINITION. What a read of a register returns (R8, R11, R12): the register file with the fields that follow the clock or count
something else in the state laid over it. -/

namespace Sys2Proof.Machine

/-- The instance of a bank whose register stands at `off`. -/
def indexAt (base stride n off : Nat) : Option Nat :=
  if base ≤ off && (off - base) % stride = 0 && decide ((off - base) / stride < n) then some ((off - base) / stride) else none

/-- The fields of the register at `off` laid over its word. -/
def lay (off : Nat) (w : Word) (l : List (FieldRef × Nat)) : Word :=
  l.foldl (fun w e => if e.1.off = off then withField e.1 w e.2 else w) w

/-- A field of the CPX window that is counted. -/
def Dev.viewCpx (d : Dev) (off : Nat) (w : Word) : Word :=
  if off = R.cpxStatus then
    let held := (d.cpx.requesters.map (fun q => q.2.held.length)).foldl (· + ·) 0
    lay off w [(F.cpxStatus_accepting, b2n d.cpx.accepting), (F.cpxStatus_active, b2n d.active),
      (F.cpxStatus_requesters, countBelow 8 (fun n => (d.ring n).bound.isSome) + d.cpx.sessions.length), (F.cpxStatus_held, held)]
  else if off = R.cpxUdpStat then lay off w [(F.cpxUdpStat_sessions, d.cpx.sessions.length)]
  else match indexAt (R.cpxRingStat 0) 0x40 8 off with
    | some n => (match (d.ring n).bound with
      | some o => lay off w [(F.cpxRingStat_inIntake n, d.inIntake o)]
      | none => w)
    | none => w

/-- The number of waiting or held marks of a train. -/
def Dev.trainPending (d : Dev) (t : Nat) : Nat := (d.entriesWhere (fun e => e.key.kind = 2 && e.key.train = t)).length

/-- The TBU's counts and estimates at the read (Tables 4-6 to 4-13). -/
def Dev.viewTbu (d : Dev) (off : Nat) (w : Word) : Word :=
  if off = R.tbuFrameLo then BitVec.ofNat 32 d.localFrame
  else if off = R.tbuFrameHi then BitVec.ofNat 32 (d.localFrame / 2 ^ 32)
  else if off = R.tbuCycle then BitVec.ofNat 32 (d.count % 1000)
  else if off = R.tbuTaiLo then BitVec.ofNat 32 d.tai
  else if off = R.tbuTaiHi then BitVec.ofNat 32 (d.tai / 2 ^ 32)
  else if off = R.tbuEvseqLo then BitVec.ofNat 32 d.tbu.evseq
  else if off = R.tbuEvseqHi then BitVec.ofNat 32 (d.tbu.evseq / 2 ^ 32)
  else if off = R.tbuAngle then BitVec.ofNat 32 (d.angleAt d.now)
  else if off = R.tbuSchedStat then
    lay off w [(F.tbuSchedStat_inUse, d.tbu.sched.length), (F.tbuSchedStat_held, (d.entriesWhere (fun e => e.state = 2)).length)]
  else match indexAt (R.tbuTrainPos 0) 4 512 off with
    | none => w
    | some k =>
      let t := k / 8
      (match d.train t with
        | none => 0
        | some x => (match k % 8 with
          | 0 => BitVec.ofNat 32 (pattern 32 (x.at d.wall))
          | 1 => BitVec.ofNat 32 (pattern 32 x.speed)
          | 2 => lay off w [(F.tbuTrainTrack_track t, x.track), (F.tbuTrainTrack_confidence t, d.confidence x), (F.tbuTrainTrack_inUse t, 1)]
          | 3 => lay off w [(F.tbuTrainAge_age t, min 65535 (d.age x / 1000000).toNat), (F.tbuTrainAge_pending t, d.trainPending t)]
          | _ => w))

/-- Circuits in a state of Table 5-8. -/
def Dev.circuitsIn (d : Dev) (p : Nat → Bool) : Nat := (d.rtp.circuits.filter (fun c => p c.2.state)).length

/-- The route planner's counts (Table 5-17). -/
def Dev.viewRtp (d : Dev) (off : Nat) (w : Word) : Word :=
  lay off w [(F.rtpCircStat_live, d.circuitsIn (· = 2)), (F.rtpCircStat_pending, d.circuitsIn (fun s => s = 1 || s = 3)),
    (F.rtpCircStat_blanked, d.circuitsIn (· = 4)), (F.rtpAdopted_count, d.rtp.adopted.length)]

/-- The sample of its segment that a sluice plays. -/
def Dev.sluiceSample (d : Dev) (s : Nat) : Nat :=
  match (d.sluice s).cur with
  | some _ => (d.now - (d.sluice s).passAt) / tickSample % 512
  | none => 0

/-- The transition engine's counts (Tables 6-7 to 6-13). -/
def Dev.viewTrn (d : Dev) (off : Nat) (w : Word) : Word :=
  if off = R.trnStat then
    lay off w [(F.trnStat_inUse, d.sluicesInUse), (F.trnStat_waiting, min 65535 d.waitingElems.length)]
  else if off = R.trnSlack then BitVec.ofNat 32 d.slack
  else match indexAt (R.trnLinkStat 0) 4 32 off with
    | some l => lay off w [(F.trnLinkStat_inUse l, countBelow 64 (fun s => d.sluiceBusy s && decide (d.fld (F.trnSlState_link s) = l)))]
    | none => (match indexAt (R.trnSlPos 0) 0x10 64 off with
      | some s => if (d.sluice s).cur = none ∨ (d.sluice s).stalledAt.isSome then w
                  else lay off w [(F.trnSlPos_sample s, d.sluiceSample s)]
      | none => w)

/-- The loop cluster's counts (Tables 7-15 to 7-24). -/
def Dev.viewLpc (d : Dev) (off : Nat) (w : Word) : Word :=
  match indexAt (R.lpcEngStat 0) 0x10 16 off with
  | some e => lay off w [(F.lpcEngStat_power e, b2n (decide (14 ≤ e) && d.flag F.lpcPowerCfg_reserve && decide (d.fld (F.lpcEngStat_state e) = 2))),
      (F.lpcEngStat_blocks e, (d.blocks e).length), (F.lpcEngStat_cost e, d.engCost e)]
  | none => (match indexAt (R.lpcSlotCost 0) 0x10 64 off with
    | some s => lay off w [(F.lpcSlotCost_bound s, d.boundTo s)]
    | none => w)

/-- The placement manager's counts (Tables 9-7 to 9-10). -/
def Dev.viewPlm (d : Dev) (off : Nat) (w : Word) : Word :=
  if off = R.plmStat then
    let spare := engines.any (fun e => !d.inHoldSet e && decide (d.blocks e ≠ []))
    lay off w [(F.plmStat_placed, b2n (decide (d.plm.unplaced = []))), (F.plmStat_spareUsed, b2n spare),
      (F.plmStat_regrouping, b2n (decide (d.plm.steps ≠ [])))]
  else if off = R.plmResident then
    lay off w [(F.plmResident_resident, d.residentLoops.length), (F.plmResident_evicted, (d.driveElems.filter (fun e => (d.loop e).evicted)).length)]
  else if off = R.plmUnplaced then lay off w [(F.plmUnplaced_count, d.plm.unplaced.length)]
  else if off = R.plmPins then
    lay off w [(F.plmPins_pinned, d.plm.pins.length), (F.plmPins_broken, (d.plm.pins.filter (fun p => p.broken)).length)]
  else match indexAt (R.plmLinkWin 0) 4 32 off with
    | some l =>
      let win := d.windowOf l
      lay off w [(F.plmLinkWin_low l, win.head?.getD 0), (F.plmLinkWin_high l, win.getLast?.getD 0),
        (F.plmLinkWin_complete l, b2n (d.bracketResident l (d.bracket l)))]
    | none => w

/-- The converters' view: the deglitcher, and a slot claimed by the tracker (R354, R361). -/
def Dev.viewCvt (d : Dev) (off : Nat) (w : Word) : Word :=
  match indexAt (R.dacChStat 0) 0x20 16 off with
  | some c => lay off w [(F.dacChStat_deglitch c, b2n (decide (d.now < (tget (fun _ => ({} : DacCh)) d.dac.chans c).holdEnd)))]
  | none => (match indexAt (R.adcSlot 0 7) 0x80 6 off with
    | some p => BitVec.ofNat 32 (d.slotWord p 7)
    | none => w)

/-- The calibration manager's counts (Tables 15-10 to 15-13). -/
def Dev.viewCal (d : Dev) (off : Nat) (w : Word) : Word :=
  if off = R.calStat then
    lay off w [(F.calStat_jobBusy, b2n d.cal.job.isSome), (F.calStat_writing, b2n d.cal.written.isSome),
      (F.calStat_drained, b2n (!d.flag F.calCtrl_en && d.cal.written.isNone)), (F.calStat_queued, min 65535 d.cal.items.length)]
  else if off = R.calGapStat then lay off w [(F.calGapStat_pending, (d.cal.gaps.filter (fun g => !g.isOpen)).length)]
  else match indexAt (R.calLinkCal 0) 4 32 off with
    | some l => lay off w [(F.calLinkCal_pending l, min 255 (d.cal.items.filter (fun i => linkOf i.el = l)).length)]
    | none => w

/-- The supervisor's dwell and seconds (Tables 1-10 and 18-5). -/
def Dev.viewThs (d : Dev) (off : Nat) (w : Word) : Word :=
  if off = R.thsEconStat then
    let left := match d.ths.dwellFrom with
      | some t => (t + d.fld F.thsEconCtrl_exitDwell * tickMs - d.now + tickMs - 1) / tickMs
      | none => if d.economy then d.fld F.thsEconCtrl_exitDwell else 0
    lay off w [(F.thsEconStat_dwellLeft, left)]
  else if off = R.thsThrCount then
    let run := if d.fld F.thsStat_level = 0 then 0 else (d.ths.secondsLeft + (d.now - d.ths.secondsFrom)) / tickS
    lay off w [(F.thsThrCount_seconds, min 65535 (d.fld F.thsThrCount_seconds + run))]
  else w

/-- The scrubbers' positions (Table 19-4). -/
def Dev.viewMem (d : Dev) (off : Nat) (w : Word) : Word :=
  match indexAt (R.memScrubPos 0) 0x40 2 off with
  | some c => lay off w [(F.memScrubPos_pos c, d.scrubAt c % 2 ^ 32 / 65536), (F.memScrubPos_passes c, d.scrubAt c / 2 ^ 32)]
  | none => w

/-- The bus matrix's counters, which are free (R455 to R457). -/
def Dev.viewBmx (d : Dev) (off : Nat) (w : Word) : Word :=
  if (indexAt (R.bmxMStat 0) 0x10 13 off).isSome then BitVec.ofNat 32 (Config.busState off d.now)
  else if (indexAt (R.bmxTStat 0) 0x10 14 off).isSome then BitVec.ofNat 32 (Config.busState off d.now) &&& 0xFFFF003F#32
  else w

/-- The levels of TRIP_IN[3:0] (Table 13-10). -/
def Dev.viewGdp (d : Dev) (off : Nat) (w : Word) : Word :=
  if off = R.gdpTripStat then
    lay off w [(F.gdpTripStat_level, ((List.range 4).map (fun i => b2n (d.tripActive i) * 2 ^ i)).foldl (· + ·) 0)]
  else w

/-- The automatic restarts of the past hour (R393, Table 16-8). -/
def Dev.viewFlt (d : Dev) (off : Nat) (w : Word) : Word :=
  if off = R.fltState then lay off w [(F.fltState_restarts, min 15 d.restartsInHour)] else w

/-- What the register at `off` reads as; 0 where there is none (R11). -/
def Dev.view (d : Dev) (off : Nat) : Word :=
  let w := d.reg off
  match off / 0x10000 with
  | 0 => d.viewCpx off w
  | 2 => d.viewBmx off w
  | 3 => d.viewMem off w
  | 4 => d.viewLpc off w
  | 5 => d.viewPlm off w
  | 7 => d.viewRtp off w
  | 8 => d.viewTrn off w
  | 9 => d.viewTbu off w
  | 13 => d.viewGdp off w
  | 14 | 15 => d.viewCvt off w
  | 16 => d.viewCal off w
  | 17 => d.viewThs off w
  | 18 => d.viewFlt off w
  | _ => w

/-! ### Outputs without state of their own -/

/-- The QSPI pins (R67, Table 3-2): high impedance while PORST_N is low, then driven by boot. -/
def Dev.qspiPins (d : Dev) : Drive := if d.mem.porst then .driven else .highZ

/-- BST and SW of a leg (Table 3-2): undriven. -/
def Dev.bstSwPins (_ : Dev) (_leg : Nat) : Drive := .undriven

/-- The answer to a configuration request on PCIe (R74): none in reset, retry until `boot` sets. -/
def Dev.configAnswer (d : Dev) : ConfigAnswer :=
  if !d.mem.porst || d.mem.brownOut then .silent else if d.flag F.cpxReady1_boot then .served else .retry

/-- The low words of the 64-bit quantities held in two consecutive registers (R12). -/
def lowWord (off : Nat) : Bool :=
  [R.tbuFrameLo, R.tbuTaiLo, R.tbuEvseqLo, R.lpcSwapLo, R.calSwitchLo, R.twnPairOfsLo, R.cpxEqBaseLo].contains off ||
    (indexAt (R.elkFeIdLo 0) 0x20 32 off).isSome || (indexAt (R.memDdrEaddrLo 0) 0x40 2 off).isSome ||
    (indexAt (R.cpxSqBaseLo 0) 0x40 8 off).isSome || (indexAt (R.cpxCqBaseLo 0) 0x40 8 off).isSome

/-- A read of the register at `off` (R8, R11, R12): a low word captures its high word, which the next read of that returns. -/
def Dev.readReg (d : Dev) (off : Nat) : Word × Dev :=
  if lowWord off then (d.view off, { d with shadow := tput (fun _ => 0) d.shadow (off + 4) ((d.view (off + 4)).toNat + 1) })
  else
    let x := tget (fun _ => 0) d.shadow off
    if x = 0 then (d.view off, d) else (BitVec.ofNat 32 (x - 1), { d with shadow := tput (fun _ => 0) d.shadow off 0 })

/-- `n` registers read from `off` on (R489). -/
def readRegs : Nat → Nat → Dev → Bytes × Dev
  | 0, _, d => ([], d)
  | n + 1, off, d =>
    let (w, d1) := d.readReg off
    let (l, d2) := readRegs n (off + 4) d1
    (le 4 w.toNat ++ l, d2)

end Sys2Proof.Machine
end

