-- ==== Sys2Proof/Machine/RegWrite.lean ====
section
/-! DEFINITION. Writes of registers: by REG_WRITE to RW registers (R58), by CFG_WRITE to CW registers (R59), by ECON_CONFIG (R484), and
direct writes through BAR0 (R8 to R11). -/

namespace Sys2Proof.Machine

/-! ### What a written word must satisfy -/

/-- Fields of CW registers with the range that their field table gives. -/
def cwRanges : List (FieldRef × Nat × Nat) :=
  [ (F.tbuPtpCtrl_holdover, 1, 255), (F.trnBracketCfg_width, 4, 32), (F.trnBracketCfg_hyst, 1, 20), (F.plmCfg_spreadMax, 1, 22),
    (F.plmCfg_migMax, 2, 64), (F.plmCfg_review, 40, 4000), (F.plmEvictCfg_evictFrames, 400, 65535), (F.elkCfg_lateMax, 1, 255),
    (F.elkCfg_ctrlTmo, 3, 255), (F.elkCfg_ctrlRetry, 1, 7), (F.clnCfg_timeInt, 1, 100), (F.clnCfg_cellMiss, 3, 8), (F.clnCfg_cmdTmo, 2, 16),
    (F.clnCfg_cmdRetry, 1, 7), (F.cmuModCfg_txPhase, 55, 64), (F.cmuModCfg_mDab, 1, 3), (F.cmuModCfg_tMin, 2, 100),
    (F.cmuModCfg_mMax, 50, 100), (F.cmuCellCfg_nMin, 1, 48), (F.cmuIcatCfg_pair, 0, 5), (F.cmuLvbCfg_pair, 0, 5), (F.pwmLvpCfg_pair, 0, 5),
    (F.cmuVoutOv_voutOv, 0, 2000), (F.cmuCoast_coastMax, 1, 255), (F.cmuCoast_rtRamp, 1, 200), (F.cmuBrkCfg_brkMin, 10, 255),
    (F.calLiveCfg_liveStep, 16, 2047), (F.fltCfg_restartMs, 1, 255), (F.fltCfg_restartMax, 1, 15), (F.thsTempCfg_rateWarn, 2, 80),
    (F.thsTempCfg_tThr, 80, 135), (F.thsTempCfg_absLim, 110, 140), (F.memScrubCfg_scrubH, 1, 168), (F.bmxCtrl_ageMax, 32, 511),
    (F.twnCtrl_soloWait, 10, 255) ] ++
  (List.range 8).map (fun c => (F.clnChainCfg_nCells c, 1, 12)) ++ (List.range 4).map (fun i => (F.gdpTripCfg_filter i, 0, 1000))

/-- The mask touches a field. -/
def touches (mask : Word) (f : FieldRef) : Bool := fieldOf f mask ≠ 0

/-- Every field that the mask touches lies within its range. -/
def rangesOk (off : Nat) (v mask : Word) : Bool :=
  cwRanges.all (fun x => x.1.off ≠ off || !touches mask x.1 || (decide (x.2.1 ≤ fieldOf x.1 v) && decide (fieldOf x.1 v ≤ x.2.2)))

/-- A consumer register names an input that its pair reaches (R347). -/
def reachOk (input pair : FieldRef) (v : Word) : Bool := reaches (fieldOf pair v) (fieldOf input v)

/-- A chain's configuration is permitted (R265): `wiring` is not 3, its numbers end at 47 at most and are not those of another
enabled chain, and a ring returns by another port, which carries no chain; nor does another ring return by its own. -/
def Dev.chainCfgOk (d : Dev) (c : Nat) (v : Word) : Bool :=
  let n := fieldOf (F.clnChainCfg_nCells c) v
  let b := fieldOf (F.clnChainCfg_base c) v
  let w := fieldOf (F.clnChainCfg_wiring c) v
  let ret := fieldOf (F.clnChainCfg_ret c) v
  decide (w ≠ 3) && decide (b + n ≤ 48) && (w ≠ 1 || ret ≠ c) &&
    (List.range 8).all (fun k => k = c || !d.bitAt R.clnChainEn k || d.chainsAgree b n w ret k c)

/-- The conditions of a CW register beyond the ranges of single fields: BAD_PARAM where one fails. -/
def Dev.cwConditions (d : Dev) (off : Nat) (v mask : Word) : Bool :=
  if off = R.tbuCatCfg then catCfgOk v && reachOk F.tbuCatCfg_input F.tbuCatCfg_pair v
  else if off = R.cmuIcatCfg then reachOk F.cmuIcatCfg_input F.cmuIcatCfg_pair v
  else if off = R.cmuLvbCfg then reachOk F.cmuLvbCfg_input F.cmuLvbCfg_pair v
  else if off = R.pwmLvpCfg then reachOk F.pwmLvpCfg_input F.pwmLvpCfg_pair v
  else if off = R.trnBracketCfg then
    !touches mask F.trnBracketCfg_base || (decide (-20 ≤ signed 8 (fieldOf F.trnBracketCfg_base v)) && decide (signed 8 (fieldOf F.trnBracketCfg_base v) ≤ 100))
  else if off = R.lpcCoolerCfg then !(fieldOf F.lpcCoolerCfg_en v ≠ 0) || (d.setFilled 0x0FFF && validSet (d.coefSet 0x0FFF))
  else if off = R.plmHoldSet then decide (v.toNat % 65536 ≠ 0) && !(d.flag F.lpcPowerCfg_reserve && decide (v.toNat / 16384 % 4 ≠ 0))
  else if off = R.cmuTherm then decide (fieldOf F.cmuTherm_tLim v < fieldOf F.cmuTherm_tTrip v)
  else match (List.range 8).find? (fun c => off = R.clnChainCfg c) with
    | some c => d.chainCfgOk c v
    | none => true

/-- The further refusals that a register's own text gives (R59); DONE where there is none. -/
def Dev.cwRefusal (d : Dev) (off : Nat) (v mask : Word) : Nat :=
  if off = R.twnCtrl then St.refused
  else if off = R.lpcPowerCfg then (if touches mask F.lpcPowerCfg_reserve ∧ v.toNat % 2 = 0 ∧ d.flag F.cpxReady1_cmu then St.refused else St.done)
  else if off = R.cmuModCfg then
    (if touches mask F.cmuModCfg_mDab ∧ d.stage ≠ 0 then St.conflict else St.done)
  else match (List.range 8).find? (fun c => off = R.clnChainCfg c) with
    | some c => if d.chainState c = 0 then St.done else St.conflict
    | none => St.done

/-- The CW registers that a command of their own writes (Table 2-19). -/
def ownedCw (off : Nat) : Bool :=
  off = R.thsEconCtrl || off = R.thsEconLv || (decide (0xE0400 ≤ off) && decide (off < 0xE0700)) || (indexAt (R.adcPairCfg 0) 0x20 6 off).isSome ||
    (indexAt (R.dacChCfg 0) 0x20 16 off).isSome || (indexAt (R.pwmLegCfg 0) 0x40 8 off).isSome || (indexAt (R.pwmLegDt 0) 0x40 8 off).isSome ||
    (indexAt (R.pwmLegMp 0) 0x40 8 off).isSome || (indexAt (R.pwmLegLim 0) 0x40 8 off).isSome || (indexAt (R.pwmLegFix 0) 0x40 8 off).isSome ||
    (indexAt (R.gdpLegProt 0) 0x20 8 off).isSome || (indexAt (R.fltClass 0) 4 423 off).isSome

/-! ### What a write does -/

/-- A CW register written (R59): at once, or at the next period start for the limits of the CMU while the SST is up; a write of the value in
force there takes back one that is still to come. -/
def Dev.writeCw (d : Dev) (off : Nat) (v : Word) : Dev :=
  if off = R.tbuCatCfg then d.writeCatCfg v
  else if off = R.tbuCatScale then d.writeCatScale v
  else if off = R.memScrubCfg then ((d.syncScrub).setReg off v).syncScrub
  else if off = R.lpcPowerCfg then
    (if v.toNat % 2 = 1 ∧ !d.flag F.lpcPowerCfg_reserve then (d.setReg off v).reserveEngines else d.setReg off v)
  else if off = R.thsTempCfg then (d.setReg off v).tempCfgChanged
  else if (off = R.cmuVdcLim ∨ off = R.cmuPlim ∨ off = R.cmuIcatCfg) ∧ d.sstUp then
    { d with cmu := { d.cmu with limDue := d.cmu.limDue.filter (fun e => e.1 ≠ off) ++ (if d.reg off = v then [] else [(off, v)]) } }
  else match indexAt (R.gdpTripCfg 0) 4 4 off with
    | some i => (d.setReg off v).followTrip i (d.tripForces i)
    | none => d.setReg off v

/-- A bit-per-instance enable register written: `f` is applied to each instance whose bit changes, with its new value. -/
def changeBits (n : Nat) (old new : Nat) (f : Nat → Bool → Dev → Dev) (d : Dev) : Dev :=
  (List.range n).foldl (fun d i => if bit old i = bit new i then d else f i (bit new i) d) d

/-- The changes of enables that a write of an RW register may not make: ADC pairs in use (R358) and chains with cells that still switch
(R283) are not disabled; a chain whose configuration conflicts with that of an enabled one is not enabled (log entry 102). DONE where there
is none. -/
def Dev.rwRefusal (d : Dev) (off : Nat) (v : Word) : Nat :=
  let gone := fun (i : Nat) => d.bitAt off i && !bit v.toNat i
  if off = R.adcCtrl then (if (List.range 6).any (fun p => gone p && d.pairInUse p) then St.refused else St.done)
  else if off = R.clnChainEn then
    let new := (List.range 8).filter (fun c => !d.bitAt off c && bit v.toNat c)
    let on := new.foldl (fun d c => d.chainOn c) d
    if (List.range 8).any (fun c => gone c && d.chainBusy c) then St.refused
    else if new.any (fun c => !on.bitAt off c) then St.badParam
    else St.done
  else St.done

/-- An RW register written (R8): each bit that changes has the effect its field table states. -/
def Dev.writeRw (d : Dev) (off : Nat) (v : Word) : Dev :=
  let old := d.regN off
  let new := v.toNat
  if off = R.adcCtrl then changeBits 6 old new (fun p on d => if on then d.pairOn p else d.pairOff p) d
  else if off = R.clnChainEn then changeBits 8 old new (fun c on d => if on then d.chainOn c else d.chainOff c) d
  else if off = R.elkLinkEn then changeBits 32 old new (fun l on d => if on then d.linkOn l else d.linkOff l) d
  else if off = R.lpcEngEn then changeBits 16 old new (fun e on d => if on then d.engineOn e else d.engineOff e) d
  else if off = R.lpcPrecCfg then (if 8 ≤ new % 32 ∧ new % 32 ≤ 23 then d.setReg off v else d)
  else if off = R.memCtrl then ((d.syncScrub).setReg off v).syncScrub
  else if off = R.pwmCtrl then changeBits 1 old new (fun _ on d => if on then d.pwmOn else d.pwmOff) d
  else if off = R.trnCtrl then
    (changeBits 1 old new (fun _ on d => if on then d.trnOn else d.trnOff) d).setFlag F.trnCtrl_rakeEn (bit new 1)
  else if off = R.calCtrl then
    ((changeBits 1 old new (fun _ on d => if on then d.calOn else d.calOff) d).setFlag F.calCtrl_autoRake (bit new 1)).setFlag F.calCtrl_autoLive (bit new 2)
  else d.setReg off v

/-! ### The commands -/

/-- What a masked write of a register changes: its word, or the word that is to replace it at the next period start. -/
def Dev.writeBase (d : Dev) (off : Nat) : Word := ((d.cmu.limDue.find? (fun e => e.1 = off)).map (fun e => e.2)).getD (d.reg off)

/-- Offset, value and mask of a REG_WRITE or CFG_WRITE (R59, R489), and the word that it leaves, where its form and the fields
that it may not change are right. -/
def Dev.writeWord (d : Dev) (c : Call) (a : Access) : Option (Nat × Word × Word) :=
  let b := c.packet.cmd.payload
  let off := rd b 0 4
  let v := BitVec.ofNat 32 (rd b 4 4)
  let mask := BitVec.ofNat 32 (rd b 8 4)
  match regBankAt off with
  | none => none
  | some k =>
    let was := d.view off
    if rd b 12 4 ≠ 0 ∨ k.acc ≠ a ∨ (v ^^^ was) &&& mask &&& ~~~k.wmask ≠ 0 then none
    else some (off, (mergeWord (d.writeBase off) v (mask &&& k.wmask)), mask)

/-- REG_WRITE (R58, R489). -/
def bodyRegWrite (d : Dev) (c : Call) : Dev × Verdict :=
  match d.writeWord c .rw with
  | none => refuse d St.badParam
  | some (off, v, _) => if d.rwRefusal off v ≠ St.done then refuse d (d.rwRefusal off v) else (d.writeRw off v, .final St.done [])

/-- CFG_WRITE (R59). -/
def bodyCfgWrite (d : Dev) (c : Call) : Dev × Verdict :=
  match d.writeWord c .cw with
  | none => refuse d St.badParam
  | some (off, v, mask) =>
    if ownedCw off || !rangesOk off v mask || !d.cwConditions off v mask then refuse d St.badParam
    else if d.cwRefusal off v mask ≠ St.done then refuse d (d.cwRefusal off v mask)
    else (d.writeCw off v, .final St.done [])

/-- Parked elements follow a change of `park_idle` while economy mode is in force (DEDUCED, log entry 62). -/
def Dev.followPark (d : Dev) : Dev :=
  if !d.economy then d
  else if d.flag F.thsEconCtrl_parkIdle then d.parkIdle
  else (d.rtp.map.elems.filter (fun e => (d.loop e.1).susp.parked)).foldl (fun d e => d.parkElement e.1 false) d

/-- ECON_CONFIG (R484, Tables 1-8 and 1-9): both registers at one instant, or neither. -/
def bodyEconConfig (d : Dev) (c : Call) : Dev × Verdict :=
  let b := c.packet.cmd.payload
  let v := BitVec.ofNat 32 (rd b 0 4)
  let w := BitVec.ofNat 32 (rd b 4 4)
  let enter := fieldOf F.thsEconLv_enterV w
  if v &&& 0xFF00FFC0#32 ≠ 0 ∨ fieldOf F.thsEconCtrl_exitDwell v < 10 ∨ (enter ≠ 0 ∧ fieldOf F.thsEconLv_exitV w < enter + 100) then
    refuse d St.badParam
  else (((d.setReg R.thsEconCtrl v).setReg R.thsEconLv w).followPark, .final St.done [])

/-- REG_READ (R58, R489). -/
def bodyRegRead (d : Dev) (c : Call) : Dev × Verdict :=
  let b := c.packet.cmd.payload
  let off := rd b 16 4
  let n := rd b 20 4
  if off % 4 ≠ 0 ∨ n = 0 ∨ 64 < n ∨ 0x140000 < off + 4 * n then refuse d St.badParam
  else
    let (bytes, d1) := readRegs n off d
    (d1, .final St.done bytes)

/-! ### Direct writes -/

/-- A ring pair's configuration write ignored (R31). -/
def Dev.cfgErr (d : Dev) (n : Nat) : Dev := d.setFlag (F.cpxRingStat_cfgErr n) true

/-- A size field written: values outside 4 to 12 are ignored. -/
def sizeOk (v : Word) : Bool := decide (4 ≤ v.toNat % 16) && decide (v.toNat % 16 ≤ 12)

/-- A requester number is in use by another ring pair or a session (Table 2-17). -/
def Dev.requesterTaken (d : Dev) (q : Nat) : Bool :=
  d.isBound q || (List.range 8).any (fun m => d.flag (F.cpxRingCtrl_en m) && d.fld (F.cpxRingCtrl_requester m) = q)

/-- Registers of ring pair `n` when it is enabled (R33, R34): it serves the requester now named, from slot 0 on, with phase 1. -/
def Dev.enableRing (d : Dev) (n : Nat) : Dev :=
  let q := d.fld (F.cpxRingCtrl_requester n)
  if d.flag (F.cpxRingCtrl_en n) then d
  else if q = 0 ∨ q = 0xFFFF ∨ d.requesterTaken q ∨ (d.ring n).disabling then d.cfgErr n
  else
    let d1 := (d.setRing n { bound := some q }).setFlag (F.cpxRingCtrl_en n) true
    (((d1.setReg (R.cpxSqHead n) 0).setReg (R.cpxSqTail n) 0).setReg (R.cpxCqHead n) 0).setReg (R.cpxCqTail n) 0

/-- CPX.RING_CTRL written (Table 2-17): the requester only while the pair is disabled, then `irq_en` and `coalesce`, then `en`. -/
def Dev.writeRingCtrl (d : Dev) (n : Nat) (v : Word) : Dev :=
  let q := fieldOf (F.cpxRingCtrl_requester n) v
  let d1 := if q = d.fld (F.cpxRingCtrl_requester n) then d
    else if d.flag (F.cpxRingCtrl_en n) then d.cfgErr n else d.setFld (F.cpxRingCtrl_requester n) q
  let d2 := (d1.setFld (F.cpxRingCtrl_irqEn n) (fieldOf (F.cpxRingCtrl_irqEn n) v)).setFld (F.cpxRingCtrl_coalesce n) (fieldOf (F.cpxRingCtrl_coalesce n) v)
  let on := decide (fieldOf (F.cpxRingCtrl_en n) v ≠ 0)
  if on then d2.enableRing n else if d2.flag (F.cpxRingCtrl_en n) then d2.disableRing n else d2

/-- A configuration register of ring pair `n`, the `k`-th word of its bank, written (R31). A base that is not aligned to 4096 bytes is stored
as it is written: the rule binds the host and gives the block nothing to do (DESIGN CHOICE, log entry 124). -/
def Dev.writeRing (d : Dev) (n k : Nat) (v : Word) : Dev :=
  let off := R.cpxSqBaseLo n + 4 * k
  let size := decide (k = 2) || decide (k = 7)
  if k = 10 then d.writeRingCtrl n v
  else if k = 0 ∨ k = 1 ∨ k = 2 ∨ k = 5 ∨ k = 6 ∨ k = 7 then
    if d.flag (F.cpxRingCtrl_en n) || (size && !sizeOk v) then d.cfgErr n
    else d.setReg off (if size then v &&& 0xF else v)
  else d

/-- The event ring's entries lost are told as soon as it has room (R54). -/
def Dev.eqRoom (d : Dev) : Dev := if d.cpx.eqLost ≠ 0 ∧ d.eqOpen then d.note (.ringLoss d.now) else d

/-- CPX.EQ_SIZE written: the size only while the event ring is disabled; setting `en` starts the ring at slot 0 with phase 1 (R33). -/
def Dev.writeEqSize (d : Dev) (v : Word) : Dev :=
  let on := decide (fieldOf F.cpxEqSize_en v ≠ 0)
  let was := d.flag F.cpxEqSize_en
  let d1 := if was || !sizeOk v then d else d.setFld F.cpxEqSize_log2Slots (v.toNat % 16)
  if on && !was then
    let d2 := ((d1.setFlag F.cpxEqSize_en true).setReg R.cpxEqHead 0).setReg R.cpxEqTail 0
    ({ d2 with cpx := { d2.cpx with eqPhase := true } }).eqRoom
  else d1.setFlag F.cpxEqSize_en on

/-- A configuration register of the event ring written; it has no RING_STAT, so an ignored write leaves no mark. -/
def Dev.writeEq2 (d : Dev) (off : Nat) (v : Word) : Dev :=
  if off = R.cpxEqSize then d.writeEqSize v
  else if d.flag F.cpxEqSize_en then d else d.setReg off v

/-- CPX.CQ_HEAD written: slots are free again, and held replies go out (R33, R62). -/
def Dev.writeCqHead (d : Dev) (n : Nat) (v : Word) : Dev :=
  let d1 := d.setReg (R.cpxCqHead n) (v &&& 0xFFF)
  if d1.cqFull n then d1 else ((d1.setRing n { d1.ring n with fullSince := none }).releaseRing n).stallEnds

/-- CPX.EQ_HEAD written (R33, R54). -/
def Dev.writeEqHead (d : Dev) (v : Word) : Dev := (d.setReg R.cpxEqHead (v &&& 0xFFF)).eqRoom

/-- A W1C register written (Table 0-2): ones clear the bits; clearing `stopped` of an engine restarts it (Table 7-19). -/
def Dev.writeW1c (d : Dev) (off : Nat) (v mask : Word) : Dev :=
  match indexAt (R.lpcEngErr 0) 0x10 16 off with
  | some e =>
    if bit v.toNat 0 && d.flag (F.lpcEngErr_stopped e) then
      let (good, d1) := d.fresh 2
      d1.restartEngine e (decide (good = 1))
    else d.setReg off (d.reg off &&& ~~~(v &&& 6))
  | none =>
    let d1 := d.setReg off (d.reg off &&& ~~~(v &&& mask))
    match indexAt (R.cpxRingStat 0) 0x40 8 off with
    | some n => d1.releaseRing n
    | none => d1

/-- A D register written: it takes effect (Table 0-2); `rsvd` bits of the value are ignored (R10). -/
def Dev.writeD (d : Dev) (off : Nat) (v : Word) : Dev :=
  if off = R.pwmCommit then (bitsOf v.toNat 8).foldl (fun d l => if d.legLv l then d else d.registerCommit l) d
  else if R.cpxEqBaseLo ≤ off ∧ off ≤ R.cpxEqSize then d.writeEq2 off v
  else if off = R.cpxEqHead then d.writeEqHead v
  else if 0x100 ≤ off ∧ off < 0x300 then
    let n := (off - 0x100) / 0x40
    let k := (off - 0x100) % 0x40 / 4
    if k = 3 then d.setReg off (v &&& 0xFFF) else if k = 8 then d.writeCqHead n v else d.writeRing n k v
  else match (List.range 8).find? (fun l => off = R.pwmPerStg l || off = R.pwmDutyStg l), indexAt (R.dacQueue 0) 0x20 16 off with
    | some l, _ => d.stageWrite l (off = R.pwmPerStg l) (v.toNat % 2 ^ 19)
    | none, some ch => (d.pushDac ch (v.toNat % 65536)).2
    | none, none => match regBankAt off with
      | some k => d.setReg off (v &&& k.wmask)
      | none => d

/-- A direct write through BAR0 (R8 to R11): RO, RW and CW registers and offsets without a register keep what they hold. While BAR0
is disabled nothing arrives (R74). -/
def Dev.writeBar0 (d : Dev) (off : Nat) (v : Word) : Dev :=
  d.direct (fun d => match regBankAt off with
    | none => d
    | some k => match k.acc with
      | .d => d.writeD off v
      | .w1c => d.writeW1c off v k.wmask
      | .w1s => d.setReg off (d.reg off ||| (v &&& k.wmask))
      | _ => d)

end Sys2Proof.Machine
end

