-- ==== Sys2Proof/Machine/HostBodies.lean ====
section
/-! DEFINITION. The host groups' commands: device information and restart, subscriptions, requesters and sessions, ECHO, IMAGE_UPDATE, ATTEST
(chapters 02 and 03), and the commands of a twin pair (R431). -/

namespace Sys2Proof.Machine

/-! ### Digests and identity -/

/-- The CW registers outside the TWN window, by ascending offset (R423). -/
def cwRegs : List Nat := (List.range 19).flatMap (fun w => ((List.range 16384).map (fun i => 0x10000 * w + 4 * i)).filter isCw)

/-- The 32 bytes of a coefficient set; an empty one counts as zeros. -/
def Dev.setBytes (d : Dev) (n : Nat) : Bytes := (List.range 8).flatMap (fun j => le 4 ((d.coefSet n)[j]?.getD 0).toNat)

/-- The configuration digest (R423), 48 bytes least significant first. -/
def Dev.cfgDigest (d : Dev) : Nat :=
  let a := cwRegs.flatMap (fun o => le 4 (d.regN o))
  let b := (List.range 0x1100).flatMap d.setBytes
  let c := d.driveElems.flatMap (fun e => le 1 (d.loop e).slot ++ le 2 (d.loop e).set)
  Config.sha384 (a ++ b ++ c)

/-- The microcode digest as LPC.UCODE_DIGEST shows it (R216). -/
def Dev.ucodeBytes (d : Dev) : Bytes := (List.range 12).flatMap (fun i => le 4 (d.regN (R.lpcUcodeDigest i)))

/-- "LVN9512" and a zero byte (Table 2-23). -/
def partNumber : Bytes := [0x4C, 0x56, 0x4E, 0x39, 0x35, 0x31, 0x32, 0x00]

/-- DEV_INFO (R488, Table 2-23). -/
def bodyDevInfo (d : Dev) (_ : Call) : Dev × Verdict :=
  (d, .final St.done (partNumber ++ le 1 0x42 ++ le 1 1 ++ le 2 0 ++ le 4 d.firmware ++ d.ucodeBytes ++ le 48 d.cfgDigest))

/-- The four words of the device ID (Table 3-5). -/
def Dev.deviceId (d : Dev) : Bytes := (List.range 4).flatMap (fun i => le 4 (d.regN (R.hstDevid i)))

/-- Bytes [207:0] of the attestation report for a nonce (Table 3-3). -/
def Dev.reportHead (d : Dev) (nonce : Bytes) : Bytes :=
  let img := match d.hst.image with | some i => i.digest | none => 0
  d.deviceId ++ nonce ++ le 4 d.firmware ++ le 4 (d.regN R.hstColdCount) ++ le 1 (d.fld F.hstResetCause_cause) ++ le 1 d.hst.bootedSlot ++
    le 1 (d.fld F.hstRollback_value) ++ le 1 0 ++ le 4 d.calIdent ++ le 48 img ++ d.ucodeBytes ++ le 48 d.cfgDigest

/-- ATTEST (R75): the nonce follows the result descriptor. -/
def bodyAttest (d : Dev) (c : Call) : Dev × Verdict :=
  let b := c.packet.cmd.payload
  if b.length ≠ 48 then refuse d St.badParam
  else
    let head := d.reportHead (b.drop 16)
    let (x, odd) := Config.devicePublicKey
    (d, .final St.done (head ++ le 48 x ++ le 1 (if odd then 3 else 2) ++ le 3 0 ++ fitBytes 96 (Config.ecdsaSign head)))

/-! ### Restart, subscriptions, bindings -/

/-- Power work runs that a warm restart would end (R81): the SST, or a leg that is enabled. -/
def Dev.powerWork (d : Dev) : Bool := d.sstUp || (List.range 8).any (fun l => d.legState l = 1 || d.legState l = 2 || d.legState l = 3)

/-- DEV_RESTART (R81, R482): the restart begins once DONE has been sent. -/
def bodyDevRestart (d : Dev) (c : Call) : Dev × Verdict :=
  let b := c.packet.cmd.payload
  let mode := rd b 0 1
  let later := fun (d : Dev) => { d with cpx := { d.cpx with post := d.cpx.post ++ [.restart (decide (mode = 1))] } }
  if 1 < mode ∨ rd b 1 3 ≠ 0 then refuse d St.badParam
  else if mode = 1 ∨ !(d.active && d.powerWork) then (later d, .final St.done [])
  else if d.flag F.twnStat_peerEligible then (later d.yield.afterRole, .final St.done [])
  else refuse d St.refused

/-- EVENT_SUBSCRIBE (R483). -/
def bodyEventSubscribe (d : Dev) (c : Call) : Dev × Verdict :=
  let b := c.packet.cmd.payload
  let g := rd b 0 2
  let q := d.requester c.owner
  if 1 < rd b 2 1 ∨ rd b 3 1 ≠ 0 ∨ g % 2 = 1 ∨ (rd b 2 1 = 1 ∧ (d.sessionOf c.owner).isNone) then refuse d St.badParam
  else if rd b 2 1 = 0 then (d.setRequester c.owner { q with ringMask := g }, .final St.done (le 2 q.ringMask))
  else (d.setRequester c.owner { q with ownMask := g }, .final St.done (le 2 q.ownMask))

/-- REQ_CLOSE (R493), and SESSION_CLOSE of one's own session (R492). -/
def Dev.closeOwn (d : Dev) (c : Call) : Dev × Verdict :=
  if 1 < d.openCount c.owner then refuse d St.conflict
  else ({ d with cpx := { d.cpx with post := d.cpx.post ++ [.close c.owner] } }, .final St.done [])

/-- REQ_CLOSE (R493). -/
def bodyReqClose (d : Dev) (c : Call) : Dev × Verdict := d.closeOwn c

/-- SESSION_CLOSE (R492). -/
def bodySessionClose (d : Dev) (c : Call) : Dev × Verdict :=
  let b := c.packet.cmd.payload
  match d.cpx.sessions.find? (fun s => s.number = rd b 0 2) with
  | none => refuse d St.badParam
  | some s =>
    if rd b 2 2 ≠ 0 then refuse d St.badParam
    else if s.requester ≠ c.owner then refuse d St.refused
    else d.closeOwn c

/-- The nonce that a SESSION_OPEN signs: the words of HST.NONCE, least significant byte first. -/
def Dev.nonceBytes (d : Dev) : Bytes := (List.range 8).flatMap (fun i => le 4 (d.regN (R.hstNonce i)))

/-- The session that a UDP source holds. -/
def Dev.sessionAt (d : Dev) (addr port : Nat) : Option Session := d.cpx.sessions.find? (fun s => s.addr = addr && s.port = port)

/-- The lowest free session number (R491). -/
def Dev.freeSession (d : Dev) : Nat :=
  ((List.range 24).find? (fun n => !d.cpx.sessions.any (fun s => s.number = n))).getD 0

/-- SESSION_OPEN (R60, R491). -/
def bodySessionOpen (d : Dev) (c : Call) : Dev × Verdict :=
  let b := c.packet.cmd.payload
  let q := rd b 0 2
  match c.packet.cmd.via with
  | .ring _ => refuse d St.badParam
  | .udp addr port =>
    if q ≠ c.packet.cmd.requester.toNat ∨ rd b 2 2 ≠ 0 then refuse d St.badParam
    else if d.requesterTaken q || (d.sessionAt addr port).isSome then refuse d St.conflict
    else if 24 ≤ d.cpx.sessions.length then refuse d St.busy
    else match d.hst.ownerKey with
      | none => refuse d St.refused
      | some k =>
        let d1 := d.renewNonce
        if Config.ecdsaVerify k (d.nonceBytes ++ b.take 2) ((b.drop 4).take 96) then
          let n := d.freeSession
          let d2 := (d1.forgetRequester q)
          ({ d2 with cpx := { d2.cpx with sessions := d2.cpx.sessions ++ [⟨n, q, addr, port, 0⟩] } }, .final St.done (le 2 n ++ le 2 0))
        else refuse d1 St.refused

/-- ECHO (R490). -/
def bodyEcho (d : Dev) (c : Call) : Dev × Verdict := (d, .final St.done (c.packet.cmd.payload.drop 16))

/-- IMAGE_UPDATE (R73): the image goes to the slot that is not running; IMAGE_UPDATE_COMPLETE verifies and stages it. The payload's
layout is not given: host address [7:0], length [11:8], `rsvd` [15:12]. -/
def bodyImageUpdate (d : Dev) (c : Call) : Dev × Verdict :=
  let b := c.packet.cmd.payload
  if rd b 12 4 ≠ 0 then refuse d St.badParam
  else if d.hst.update.isSome then refuse d St.conflict
  else ({ d with hst := { d.hst with update := some (c.oid, 1 - d.hst.bootedSlot, c.packet.cmd.image) } }, .accepted [])

/-! ### Twin commands -/

/-- A DIGEST record sent to the peer (Table 17-2): what it states, with wall time at the pair count. -/
def Dev.sendDigest (d : Dev) : Dev := d.send (.twin twinDigest [d.firmware, unle d.ucodeBytes, d.cfgDigest, d.calIdent, d.tai, d.pairCount])

/-- The final result of TWIN_PAIR (R431). -/
def Dev.pairResult (d : Dev) : Bytes := le 1 (d.fld F.twnStat_role) ++ le 1 (b2n (d.flag F.twnStat_eligible)) ++ le 2 d.term ++ le 4 (d.regN R.twnElig)

/-- TWIN_PAIR (R431): pairing begins, or the digests are compared again. -/
def bodyTwinPair (d : Dev) (c : Call) : Dev × Verdict :=
  if !d.twinMode then refuse d St.refused
  else
    let d1 := { d with twn := { d.twn with pairing := d.twn.pairing ++ [c.oid] } }
    let d2 := if d1.flag F.twnStat_linkUp then d1.sendDigest else d1
    let d3 := if !d2.flag F.twnStat_paired && decide (d2.twn.resync = 0) && !d2.active then
        { d2 with twn := { d2.twn with resync := 1 } } else d2
    (d3, .accepted [])

/-- TWIN_YIELD (R431): the active unit yields; the standby asks its peer to. -/
def bodyTwinYield (d : Dev) (c : Call) : Dev × Verdict :=
  let wait := fun (d : Dev) => { d with twn := { d.twn with yieldOids := d.twn.yieldOids ++ [c.oid] } }
  if d.active && d.flag F.twnStat_peerEligible then ((wait d).yield.afterRole, .accepted [])
  else if d.standby && d.flag F.twnStat_eligible then ((wait d).send (.twin twinYield [d.term]), .accepted [])
  else refuse d St.ineligible

/-- TWIN_QUERY (R431): 64 bytes. -/
def bodyTwinQuery (d : Dev) (_ : Call) : Dev × Verdict :=
  let fl := b2n (d.flag F.twnStat_paired) + 2 * b2n (d.flag F.twnStat_eligible) + 4 * b2n (d.flag F.twnStat_peerEligible) +
    8 * b2n (d.flag F.twnStat_degraded)
  (d, .final St.done (le 1 (d.fld F.twnStat_role) ++ le 1 fl ++ le 2 d.term ++ le 4 (d.regN R.twnElig) ++ le 8 (pattern 64 d.twn.offset) ++
    le 8 (pattern 64 d.twn.timeDiff) ++ le 4 d.calIdent ++ le 4 d.twn.peerCal ++ le 4 d.firmware ++ le 4 d.twn.peerFirmware ++ le 24 0))

end Sys2Proof.Machine
end

