-- ==== Sys2Proof/Machine/Map.lean ====
section
/-! DEFINITION. Fabric maps (R115, Tables 5-2 to 5-6): reading an image, its nine checks, and putting a map in force. -/

namespace Sys2Proof.Machine

/-- The `n` records of `size` bytes at offset `off`. -/
def recordsAt (img : Bytes) (off size n : Nat) : List Bytes :=
  (List.range n).map (fun k => (img.drop (off + size * k)).take size)

/-- A reference to a cell and a side: bits [12:0] and [13]. -/
def cellRef (w : Nat) : Nat × Nat := (w % 8192, w / 8192 % 2)

/-- The path records from offset `off`; none where one lies outside the image or has a bad hop count. -/
def pathRecords (img : Bytes) (len : Nat) : Nat → Nat → Option (List Bytes)
  | 0, _ => some []
  | n + 1, off =>
    let h := rd img (off + 4) 1
    let size := (8 + 2 * h + 3) / 4 * 4
    if h = 0 ∨ 32 < h ∨ len < off + size then none
    else (pathRecords img len n (off + size)).map (fun l => (img.drop off).take (8 + 2 * h) :: l)

/-- The records of an image: elements, ports, edges, paths. -/
structure MapImage where
  elems : List Bytes
  ports : List Bytes
  edges : List Bytes
  paths : List Bytes
  deriving DecidableEq, Repr

/-- A switch cell's record. -/
def recKind (r : Bytes) : Nat := rd r 0 2 / 8192
/-- The ID of an element record. -/
def recId (r : Bytes) : Nat := rd r 0 2 % 8192

/-- The tables of an image of `len` bytes; none where one lies outside it (check 2). -/
def mapTables (img : Bytes) (len : Nat) : Option MapImage :=
  let n := rd img 12 2 + rd img 14 2
  let ports := rd img 8 2
  if len < rd img 20 4 + 8 * n ∨ len < rd img 24 4 + 16 * ports then none
  else
    let els := recordsAt img (rd img 20 4) 8 n
    let cells := (els.filter (fun r => recKind r = 1)).length
    if len < rd img 28 4 + 8 * cells then none
    else (pathRecords img len (rd img 40 2) (rd img 32 4)).map (fun ps =>
      ⟨els, recordsAt img (rd img 24 4) 16 ports, recordsAt img (rd img 28 4) 8 cells, ps⟩)

/-- The map that an image describes. -/
def mapOf (img : Bytes) (t : MapImage) : FabricMap :=
  let feed := fun (w : Nat) => if w = 0xFFFF then none else some (cellRef w)
  { topology := rd img 6 1, ports := rd img 8 2, stages := rd img 10 2, nDrive := rd img 12 2, nMon := rd img 14 2,
    mapId := rd img 16 4, darkThr := signed 16 (rd img 42 2), tripMargin := rd img 44 2, attMax := rd img 46 2,
    elems := t.elems.map (fun r => (recId r, ⟨recKind r, rd r 2 1, bit (rd r 3 1) 0, rd r 4 2, rd r 6 2 % 8192⟩)),
    portTab := t.ports.map (fun r =>
      let i := cellRef (rd r 12 2)
      let o := cellRef (rd r 14 2)
      ⟨rd r 2 2, rd r 4 2, rd r 6 2, signed 16 (rd r 8 2), signed 16 (rd r 10 2), i.1, i.2, o.1, o.2⟩),
    edges := t.edges.map (fun r => ⟨rd r 0 2 % 8192, feed (rd r 4 2), feed (rd r 6 2)⟩),
    paths := t.paths.map (fun r => ⟨rd r 0 2, rd r 2 2, rd r 5 1,
      (List.range (rd r 4 1)).map (fun k => let w := rd r (8 + 2 * k) 2; (w % 8192, bit w 13))⟩) }

/-- Check 1: the header. -/
def mapCheck1 (img : Bytes) (len : Nat) : Bool :=
  rd img 0 4 = 0x504D464C && rd img 4 2 = 1 && decide (rd img 6 1 ≤ 2) && rd img 7 1 = 0 && rd img 48 16 = 0 &&
    (rd img 6 1 = 2 || (rd img 32 4 = 0 && rd img 40 2 = 0)) && rd img 36 4 = len && decide (len ≤ 1048576)

/-- Check 2: sizes, and every table inside the image. -/
def mapCheck2 (img : Bytes) (len : Nat) : Bool :=
  decide (rd img 8 2 ≤ 512) && decide (rd img 10 2 ≤ 32) && decide (rd img 12 2 ≤ 6144) && decide (rd img 14 2 ≤ 1024) &&
    (mapTables img len).isSome

/-- Numbers that rise strictly. -/
def rising : List Nat → Bool
  | a :: b :: r => decide (a < b) && rising (b :: r)
  | _ => true

/-- Check 3: every record is well formed. Bits [15:14] of an edge's output other than 0xFFFF, which Table 5-5 does not name, must be 0
(DESIGN CHOICE, log entry 57). -/
def mapCheck3 (img : Bytes) (t : MapImage) : Bool :=
  let elem := fun (r : Bytes) =>
    let k := recKind r
    let e := recId r
    (k = 0 || (k ≤ 3 && decide (e < 6144)) || (k = 4 && decide (6144 ≤ e) && decide (e < 7168))) &&
      (if k = 1 then decide (rd r 2 1 < rd img 10 2) else rd r 2 1 = 0xFF && rd r 4 2 = 0) &&
      decide (rd r 3 1 ≤ 1) && decide (rd r 6 2 < 8192)
  let port := fun (x : Bytes × Nat) => rd x.1 0 2 = x.2 && decide (rd x.1 12 2 < 16384) && decide (rd x.1 14 2 < 16384)
  let out := fun (w : Nat) => w = 0xFFFF || decide (w < 16384)
  let edge := fun (r : Bytes) => decide (rd r 0 2 < 8192) && rd r 2 2 = 0 && out (rd r 4 2) && out (rd r 6 2)
  let path := fun (r : Bytes) => rd r 6 2 = 0 && (List.range (rd r 4 1)).all (fun k => decide (rd r (8 + 2 * k) 2 < 16384))
  rising (t.elems.map recId) && t.elems.all elem && t.ports.zipIdx.all port && t.edges.all edge && t.paths.all path

/-- Check 4: every reference names a declared element of the right kind; the edge records stand one per switch cell in
ascending order. -/
def mapCheck4 (m : FabricMap) : Bool :=
  let cell := fun (c : Nat) => m.kind c = 1
  let assoc := fun (x : Nat × MapElem) => match x.2.kind with
    | 1 => x.2.assoc = 0x1FFF
    | 2 => m.kind x.2.assoc = 4
    | 3 => cell x.2.assoc
    | 4 => x.2.assoc = 0x1FFF || m.kind x.2.assoc ≠ 0
    | _ => true
  let port := fun (p : MapPort) => m.kind p.inTap = 4 && m.kind p.outVoa = 2 && m.kind p.outTap = 4 && cell p.inCell && cell p.outCell
  let fed := fun (o : Option (Nat × Nat)) => match o with | some (c, _) => cell c | none => true
  m.elems.all assoc && m.portTab.all port && m.edges.map (fun e => e.cell) = m.cells &&
    m.edges.all (fun e => fed e.out0 && fed e.out1) && m.paths.all (fun p => p.hops.all (fun h => cell h.1))

/-- Check 5: what feeds every cell input and what every cell output feeds. -/
def mapCheck5 (m : FabricMap) : Bool :=
  let feeds := fun (c s : Nat) => (m.portTab.filter (fun p => p.inCell = c && p.inSide = s)).length +
    (m.edges.filter (fun e => e.out0 = some (c, s))).length + (m.edges.filter (fun e => e.out1 = some (c, s))).length
  let uses := fun (c s : Nat) => (m.portTab.filter (fun p => p.outCell = c && p.outSide = s)).length + b2n (m.fed c s).isSome
  let ok := fun (n : Nat) => if m.topology = 1 then decide (n ≤ 1) else n = 1
  m.cells.all (fun c => ok (feeds c 0) && ok (feeds c 1) && ok (uses c 0) && ok (uses c 1))

/-- The cells that stay once every cell fed by none of the others has been taken away, `n` times over. -/
def peel (m : FabricMap) : Nat → List Nat → List Nat
  | 0, l => l
  | n + 1, l => peel m n (l.filter (fun c => l.any (fun b =>
      (match m.fed b 0 with | some x => x.1 = c | none => false) || (match m.fed b 1 with | some x => x.1 = c | none => false))))

/-- Check 6: the graph of the edges has no cycle (R61). -/
def mapCheck6 (m : FabricMap) : Bool := peel m m.cells.length m.cells = []

/-- The cells form a Beneš network of `stages` stages from `firsts` to `lasts` (check 7). -/
def isBenes (m : FabricMap) : Nat → Nat → List Nat → List Nat → Bool
  | 0, _, _, _ => false
  | fuel + 1, stages, firsts, lasts =>
    if stages ≤ 1 then decide (firsts.length = 1) && firsts = lasts
    else
      let n := stages - 2
      let ul := upperLasts m n firsts
      let next := ((firsts.flatMap (fun c => (m.fed c 0).toList ++ (m.fed c 1).toList)).map (fun x => x.1)).eraseDups
      let prev := ((lasts.flatMap (fun c => (m.feeder c 0).toList ++ (m.feeder c 1).toList)).map (fun x => x.1)).eraseDups
      let split := fun (f : Nat → Nat → Option (Nat × Nat)) (up : Nat → Bool) (c : Nat) => match f c 0, f c 1 with
        | some a, some b => up a.1 ≠ up b.1
        | _, _ => false
      let up := inUpper m n ul
      let half := fun (l : List Nat) => 2 * l.length = firsts.length
      decide (firsts.length = lasts.length) && firsts.all (split m.fed up) && lasts.all (split m.feeder ul.contains) &&
        half (next.filter up) && half (next.filter (fun c => !up c)) &&
        half (prev.filter ul.contains) && half (prev.filter (fun c => !ul.contains c)) &&
        isBenes m fuel n (next.filter up) (prev.filter ul.contains) &&
        isBenes m fuel n (next.filter (fun c => !up c)) (prev.filter (fun c => !ul.contains c))

/-- The cells of a stage. -/
def FabricMap.stageCells (m : FabricMap) (s : Nat) : List Nat :=
  m.cells.filter (fun c => match m.elem c with | some r => r.stage = s | none => false)

/-- Check 7: the network of a map of topology 0 or 1. -/
def mapCheck7 (m : FabricMap) : Bool :=
  if m.topology = 2 then true
  else
    let k := Nat.log2 m.ports
    let per := if m.topology = 0 then m.ports / 2 else m.ports
    let stageOf := fun c => match m.elem c with | some r => r.stage | none => 0
    let rows := fun s => (m.stageCells s).map (fun c => match m.elem c with | some r => r.row | none => 0)
    let full := fun s => (rows s).length = per && (List.range per).all (fun r => (rows s).contains r)
    let step := fun (e : MapEdge) => (e.out0.toList ++ e.out1.toList).all (fun x => stageOf x.1 = stageOf e.cell + 1)
    let firsts := m.stageCells 0
    let lasts := m.stageCells (m.stages - 1)
    m.ports = 2 ^ k && decide (1 ≤ k) && m.stages = 2 * k - 1 && (List.range m.stages).all full && m.edges.all step &&
      (if m.topology = 0 then isBenes m m.stages m.stages firsts lasts
       else match firsts with
         | [] => false
         | c :: _ =>
           let la := reach m (m.stages - 1) [c]
           let fa := firsts.filter (inUpper m m.stages la)
           isBenes m m.stages m.stages fa (lasts.filter la.contains) &&
             isBenes m m.stages m.stages (firsts.filter (fun x => !fa.contains x)) (lasts.filter (fun x => !la.contains x)) &&
             2 * fa.length = per)

/-- Check 8: ceilings, trip margin and greatest attenuation. -/
def mapCheck8 (m : FabricMap) : Bool :=
  m.portTab.all (fun p => decide (p.ceilDef ≤ p.ceilMax)) && decide (10 ≤ m.tripMargin) && decide (m.tripMargin ≤ 500) &&
    decide (m.attMax ≤ 2500)

/-- The first failed check of R115, 0 where all hold, and the map. Where check 1 or 2 fails, the image has no header to read, and the result
of MAP_LOAD holds zeros (DESIGN CHOICE, log entry 57). -/
def checkMap (img : Bytes) (len : Nat) : Nat × FabricMap :=
  if !mapCheck1 img len then (1, {})
  else match (if mapCheck2 img len then mapTables img len else none) with
    | none => (2, {})
    | some t =>
      let m := mapOf img t
      (if !mapCheck3 img t then 3 else if !mapCheck4 m then 4 else if !mapCheck5 m then 5 else if !mapCheck6 m then 6
       else if !mapCheck7 m then 7 else if !mapCheck8 m then 8 else if !Config.mapFits img then 9 else 0, m)

/-- A map put in force (R117): the circuit table is empty, ceilings stand at `ceil_def`, adopted elements are released;
event 0x0201. -/
def Dev.installMap (d : Dev) (m : FabricMap) : Dev :=
  let d1 := d.releaseAllAdopted.2
  let d2 := { d1 with rtp := { d1.rtp with map := m, circuits := [], settings := [], overs := [], ceilDue := [] } }
  let d3 := ((d2.setRegN R.rtpMapId m.mapId).setFlag F.rtpMapStat_loaded true).setFld F.rtpMapStat_topology m.topology
  let d4 := ((d3.setFld F.rtpMapStat_err 0).bumpSat F.rtpMapStat_loads).setFld F.rtpMapSize_ports m.ports
  let d5 := (d4.setFld F.rtpMapSize_drive m.nDrive).setFld F.rtpMonCount_count m.nMon
  let d6 := (d5.setFld F.rtpTripMargin_tripMargin m.tripMargin).setFld F.rtpTripMargin_attMax m.attMax
  let d7 := (List.range 16).foldl (fun d w => d.setRegN (R.rtpBlanked w) 0) d6
  let d8 := (List.range 512).foldl (fun d p => match m.port p with
    | some r => d.setRegN (R.rtpCeiling p) (pattern 16 r.ceilDef + 65536 * pattern 16 r.ceilMax)
    | none => d.setRegN (R.rtpCeiling p) 0) d7
  d8.event 0x0201 0 (le 4 m.mapId)

end Sys2Proof.Machine
end

