-- ==== Sys2Proof/Machine/Rtp.lean ====
section
/-! DEFINITION. The route planner's commands and events (chapter 05), and the cancelling of moves (R485). -/

namespace Sys2Proof.Machine

/-- A refusal of group 0x02: CONFLICT refusals are counted. -/
def rtpRefuse (d : Dev) (st : Nat) (result : Bytes := []) : Dev × Verdict :=
  (if st = St.conflict then d.bump R.rtpConflCount else d, .final st result)

/-! ### Maps -/

/-- The result of MAP_LOAD (R117). -/
def mapResult (m : FabricMap) (err : Nat) : Bytes := le 4 m.mapId ++ le 2 m.ports ++ le 2 m.nDrive ++ le 2 m.nMon ++ le 1 err

/-- MAP_LOAD (R115 to R118): the map takes effect at a frame boundary. -/
def bodyMapLoad (d : Dev) (c : Call) : Dev × Verdict :=
  let p := c.packet.cmd.payload
  let len := rd p 8 4
  let img := fitBytes len c.packet.cmd.image
  let signed_ := match d.hst.ownerKey with
    | some k => Config.ecdsaVerify k img ((p.drop 16).take 96)
    | none => false
  if rd p 0 8 % 8 ≠ 0 ∨ rd p 12 4 ≠ 0 then rtpRefuse d St.badParam
  else if d.rtp.circuits ≠ [] ∨ d.rtp.moves ≠ [] ∨ d.rtp.loading.isSome then rtpRefuse d St.conflict
  else if !signed_ then rtpRefuse d St.refused
  else
    let (err, m) := checkMap img len
    if err ≠ 0 then rtpRefuse (d.setFld F.rtpMapStat_err err) St.badParam (mapResult m err)
    else
      let d1 := (d.setFlag F.rtpMapStat_loading true).releaseAllAdopted.2
      ({ d1 with rtp := { d1.rtp with loading := some (c.oid, m) } }, .accepted [])

/-- MAP_LOAD_COMPLETE (R117): at a frame boundary. -/
def execMapLoadComplete (s : State) : Host.Outcome State Fault Refusal :=
  commit s (
    let d := s.dev
    match d.rtp.loading with
    | some (oid, m) =>
      let d1 := ((d.advance (d.strobeFrom d.now)).setFlag F.rtpMapStat_loading false).installMap m |>.bindMap
      ({ d1 with rtp := { d1.rtp with loading := none } }).finish oid St.done (mapResult m 0)
    | none => d)

/-! ### Plans -/

/-- The circuits in state 3, by ID. -/
def Dev.pendingClears (d : Dev) : List Nat := (d.rtp.circuits.filter (fun x => x.2.state = 3)).map (fun x => x.1)

/-- The claimed state as a plan begins with it (R121). -/
def Dev.planStart (d : Dev) : Work :=
  let live := d.rtp.circuits.filter (fun x => x.2.state ≠ 3)
  let gone := d.rtp.circuits.filter (fun x => x.2.state = 3)
  { circs := live.map (fun x => (x.1, ⟨x.2.state, x.2.inPort, x.2.outPort, d.claimedPath x.1 x.2, false⟩)),
    heldIn := gone.map (fun x => x.2.inPort), heldOut := gone.map (fun x => x.2.outPort), cur := [], voas := [],
    order := [], born := [], cleared := [], atts := [], used := d.rtp.circuits.map (fun x => x.1) }

/-- The path that a circuit of the table has, or will have by a pending move. -/
def Dev.pathOf (d : Dev) (n : Nat) : List (Nat × Bool) :=
  match d.circuit n with | some c => d.claimedPath n c | none => []

/-- A plan completed against the claimed state (R121, R125). -/
def Dev.planFinish (d : Dev) (noDisturb : Bool) (w : Work) : Except (Nat × Nat) Plan :=
  w.finish d.rtp.map d.claimedSetting d.claimed noDisturb d.pendingClears d.pathOf d.planStart

/-- A hop that a path record of `topology` 2 may not use (R124): a pending move changes it, or it lies on the path of a circuit
in state 1 or 3, whose elements are claimed (R120). -/
def Dev.claimedHop (d : Dev) (e : Nat) : Bool :=
  d.claimed e || d.rtp.circuits.any (fun x => (x.2.state = 1 || x.2.state = 3) &&
    (d.claimedPath x.1 x.2).any (fun h => h.1 = e))

/-- A set entry planned. -/
def Dev.planSet (d : Dev) (w : Work) (k i o att : Nat) : Except Nat (Work × Nat) :=
  w.set d.rtp.map d.claimedSetting d.claimedHop k i o att

/-- A clear entry planned. -/
def Dev.planClear (d : Dev) (w : Work) (k id : Nat) : Except Nat Work :=
  let st := match d.circuit id with | some c => c.state | none => 0
  w.clear d.rtp.map k id ((st = 1 || st = 3) && (aget w.circs id).isSome || st = 3) (st = 0)

/-- The links that a plan and the output ports it sets touch (R55, R135). -/
def Dev.planLinks (d : Dev) (q : Plan) (outs : List Nat) : List Nat :=
  (q.elems.map (fun x => linkOf x.1) ++ outs.filterMap (fun o => (d.rtp.map.port o).map (fun r => linkOf r.outTap))).eraseDups

/-- Result of Table 5-11. -/
def circuitResult (id : Nat) (q : Plan) : Bytes :=
  le 2 id ++ le 2 q.dist.length ++ le 2 q.demand ++ le 2 q.waves ++
    ((q.dist ++ List.replicate 12 0xFFFF).take 12).flatMap (le 2)

/-- The move of a plan whose key stands as `ks`. -/
def Dev.moveOf (d : Dev) (c : Call) (k : Key) (w : Work) (q : Plan) (result : Bytes) (entry : Option Nat) (fire : Option Nat)
    (late : Bool) : Move :=
  { oid := c.oid, owner := c.owner, tag := c.packet.cmd.tag.toNat, opcode := c.packet.opcode.toNat, keyKind := k.kind,
    fire := fire, entry := entry, klass := if k.kind = 2 then 0 else 1, order := d.rtp.nextOrder,
    strict := flagStrict c.packet.cmd.flags, late := late, refused := false, deferred := false,
    elems := q.elems.map (fun x => ⟨x.1, x.2.1, x.2.2.1, x.2.2.2, 0, false, 0, false⟩), sets := w.born, clears := w.cleared,
    path := q.paths, atts := w.atts, dist := q.dist, result := result, settled := 0, blank := [] }

/-- The claims of an accepted move entered in the circuit table (R120); a rake of a claimed element stops (R384). -/
def Dev.claimMove (d : Dev) (m : Move) (w : Work) : Dev :=
  let d1 := m.sets.foldl (fun d n => match aget w.circs n with
    | some c => d.setCircuit n ⟨1, c.inPort, c.outPort, match m.atts.find? (fun a => a.1 = n) with | some a => a.2 | none => 0,
        c.path, false, 0, 0, 0, 0, Frac.zero⟩
    | none => d) d
  let d2 := m.clears.foldl (fun d n => match d.circuit n with | some c => d.setCircuit n { c with state := 3 } | none => d) d1
  let d3 := { d2 with rtp := { d2.rtp with moves := d2.rtp.moves ++ [m], nextOrder := d2.rtp.nextOrder + 1 } }
  d3.stopCal (fun e => m.elems.any (fun x => x.el = e))

/-- A planned move checked against its links and the calendar, then accepted (R55, R104, R129, R157, R228): run now, or left
to its key. The shapes of a deadline move are resident from now on; where the store has no room for them it is refused with NO_SLUICE (R64, R230,
log entry 136). -/
def Dev.acceptMove (d : Dev) (c : Call) (k : Key) (w : Work) (q : Plan) (outs : List Nat) (result : Bytes) : Dev × Verdict :=
  let d0 := d.bump R.rtpPlanCount
  let d1 := if q.dist = [] then d0 else d0.bump R.rtpDistCount
  let named := (q.elems.map (fun x => x.1) ++ q.paths.flatMap (fun x => x.2.map (fun h => h.1))).eraseDups
  if !(d.planLinks q outs).all d.linkReady then (d1, .final St.notReady [])
  else match d1.restoreFor named with
  | none => (d1, .final St.refused [])
  | some d1 =>
    let go := fun (entry : Option Nat) (fire : Option Nat) (late : Bool) (d2 : Dev) =>
      let m := d.moveOf c k w q result entry fire late
      if !(fire.isSome && d2.mayNotBegin m) && !d2.calendarOk [m] then (d1.bump R.trnNosluiceCount, Verdict.final St.noSluice [])
      else
        match (if m.klass = 0 then residentFor (m.elems.map (fun x => x.el)) d2 else some d2) with
        | none => (d1.bump R.trnNosluiceCount, Verdict.final St.noSluice [])
        | some d2 =>
        let d3 := d2.claimMove { m with fire := none } w
        let d4 := match entry with | some i => if late then d3.firesPassed c.oid i else d3 | none => d3
        (if fire.isSome then d4.fireMove c.oid else d4, Verdict.accepted result)
    match d1.keyState c k with
    | (.now, d2) => go none (some d.now) false d2
    | (.late i, d2) => go (some i) (some d.now) true d2
    | (.tooLate, _) => (d1, .final St.tooLate [])
    | (.full, _) => (d1, .final St.busy [])
    | (.waits i, d2) => go (some i) none false d2

/-- CIRCUIT_SET (Table 5-10, R128). -/
def bodyCircuitSet (d : Dev) (c : Call) : Dev × Verdict :=
  let p := c.packet.cmd.payload
  if 2 ≤ rd p 6 1 ∨ rd p 7 9 ≠ 0 then rtpRefuse d St.badParam
  else if d.rtp.loading.isSome then rtpRefuse d St.conflict
  else match d.planSet d.planStart 0 (rd p 0 2) (rd p 2 2) (rd p 4 2) with
    | .error st => rtpRefuse d st
    | .ok (w, id) => match d.planFinish (bit (rd p 6 1) 0) w with
      | .error (st, _) => rtpRefuse d st
      | .ok q =>
        let shown := if flagCheckOnly c.packet.cmd.flags && w.born ≠ [] then 0xFFFF else id
        d.acceptMove c (keyAt p 16) w q [rd p 2 2] (circuitResult shown q)

/-- CIRCUIT_CLEAR (R130). -/
def bodyCircuitClear (d : Dev) (c : Call) : Dev × Verdict :=
  let p := c.packet.cmd.payload
  let id := rd p 0 2
  if rd p 2 14 ≠ 0 then rtpRefuse d St.badParam
  else if id = 0xFFFF then
    let (n, d1) := d.releaseAllAdopted
    (d1.finish c.oid St.done (circuitResult id ⟨[], [], [], n, 0⟩), .accepted (circuitResult id ⟨[], [], [], n, 0⟩))
  else if d.rtp.loading.isSome then rtpRefuse d St.conflict
  else match d.planClear d.planStart 0 id with
    | .error st => rtpRefuse d st
    | .ok w => match d.planFinish false w with
      | .error (st, _) => rtpRefuse d st
      | .ok q => d.acceptMove c (keyAt p 16) w q [] (circuitResult id q)

/-- One batch entry planned (Table 5-12): the plan, the circuit of its result, the output port of a set. -/
def Dev.planEntry (d : Dev) (p : Bytes) (w : Work) (k : Nat) : Except Nat (Work × Nat × List Nat) :=
  let o := 48 + 16 * k
  let a := rd p (o + 2) 2
  if rd p (o + 1) 1 ≠ 0 ∨ rd p (o + 8) 8 ≠ 0 then .error St.badParam
  else match rd p o 1 with
    | 1 => (match d.planSet w k a (rd p (o + 4) 2) (rd p (o + 6) 2) with
      | .ok (w1, id) => .ok (w1, id, [rd p (o + 4) 2])
      | .error e => .error e)
    | 2 => if rd p (o + 4) 4 ≠ 0 then .error St.badParam else (match d.planClear w k a with
      | .ok w1 => .ok (w1, a, [])
      | .error e => .error e)
    | _ => .error St.badParam

/-- The entries of a batch applied in order (R131); on a refusal, the status and the entry. -/
def Dev.planBatch (d : Dev) (p : Bytes) : List Nat → Work → List Nat → List Nat → Except (Nat × Nat) (Work × List Nat × List Nat)
  | [], w, ids, outs => .ok (w, ids, outs)
  | k :: r, w, ids, outs => match d.planEntry p w k with
    | .error st => .error (st, k)
    | .ok (w1, id, o) => d.planBatch p r w1 (ids ++ [id]) (outs ++ o)

/-- CIRCUIT_BATCH (R131, Table 5-12). -/
def bodyCircuitBatch (d : Dev) (c : Call) : Dev × Verdict :=
  let p := c.packet.cmd.payload
  let n := rd p 32 1
  let at_ := fun (k : Nat) => le 2 n ++ le 6 0 ++ le 1 k
  if n = 0 ∨ 60 < n ∨ p.length ≠ 48 + 16 * n ∨ 2 ≤ rd p 33 1 ∨ rd p 34 14 ≠ 0 then rtpRefuse d St.badParam
  else if d.rtp.loading.isSome then rtpRefuse d St.conflict
  else match d.planBatch p (List.range n) d.planStart [] [] with
    | .error (st, k) => rtpRefuse d st (at_ k)
    | .ok (w, ids, outs) => match d.planFinish (bit (rd p 33 1) 0) w with
      | .error (st, k) => rtpRefuse d st (at_ k)
      | .ok q =>
        let fresh := flagCheckOnly c.packet.cmd.flags
        let shown := ids.map (fun i => if fresh && w.born.contains i then 0xFFFF else i)
        d.acceptMove c (keyAt p 16) w q outs (le 2 n ++ le 2 q.dist.length ++ le 2 q.demand ++ le 2 q.waves ++
          shown.flatMap (le 2) ++ q.dist.flatMap (le 2))

/-- A circuit's record (Table 5-9). -/
def Dev.circuitRecord (d : Dev) (n : Nat) : Bytes :=
  match d.circuit n with
  | none => le 2 n ++ le 30 0
  | some c =>
    let limited := bit (d.loop (d.voaOf c.outPort)).flags 15
    le 2 n ++ le 1 c.state ++ le 1 (b2n c.dark + 2 * b2n limited) ++ le 2 c.inPort ++ le 2 c.outPort ++ le 2 c.att ++
      le 2 (d.fld (F.rtpCeiling_ceiling c.outPort)) ++ le 2 (c.path.length + 1) ++ le 2 0 ++ le 4 c.setTag ++
      le 4 c.distTag ++ le 8 c.tLive

/-- CIRCUIT_QUERY (chapter 05). -/
def bodyCircuitQuery (d : Dev) (c : Call) : Dev × Verdict :=
  let p := c.packet.cmd.payload
  let first := rd p 16 2
  let n := rd p 18 2
  if n = 0 ∨ 512 < first + n then refuse d St.badParam
  else (d, .final St.done ((List.range n).flatMap (fun j => d.circuitRecord (first + j))))

/-! ### The ceiling -/

/-- A blanked port unblanked (R135): its circuit is live again, its VOA's loop starts from the `att_max` code; event
0x0203. -/
def Dev.unblank (d : Dev) (p : Nat) : Dev :=
  let d1 := d.endBlank p
  match d1.rtp.circuits.find? (fun x => x.2.outPort = p && x.2.state = 4) with
  | some (n, c) => d1.goLive n d.tai c
  | none => d1

/-- The ceiling that applies to a port from the next frame. -/
def Dev.nextCeiling (d : Dev) (p v : Nat) : Dev := { d with rtp := { d.rtp with ceilDue := aput d.rtp.ceilDue p v } }

/-- The ceilings due at this strobe in force (R135). -/
def Dev.applyCeilings (d : Dev) : Dev :=
  d.rtp.ceilDue.foldl (fun d x => d.setFld (F.rtpCeiling_ceiling x.1) x.2) { d with rtp := { d.rtp with ceilDue := [] } }

/-- PORT_CEILING (R135). It changes no circuit without `unblank`, which a running MAP_LOAD refuses (R118). -/
def bodyPortCeiling (d : Dev) (c : Call) : Dev × Verdict :=
  let b := c.packet.cmd.payload
  let p := rd b 0 2
  let ceil := signed 16 (rd b 2 2)
  let un := bit (rd b 4 1) 0
  if d.rtp.map.ports ≤ p ∨ 2 ≤ rd b 4 1 ∨ rd b 5 3 ≠ 0 then rtpRefuse d St.badParam
  else if un ∧ !d.linkReady (linkOf (d.voaOf p)) then (d, .final St.notReady [])
  else if un ∧ d.rtp.loading.isSome then rtpRefuse d St.conflict
  else if signed 16 (d.fld (F.rtpCeiling_ceilMax p)) < ceil then rtpRefuse d St.refused
  else if un ∧ !d.portBlanked p then rtpRefuse d St.conflict
  else if un ∧ ceil + (d.rtp.map.tripMargin : Int) < d.outReading p then rtpRefuse d St.refused
  else
    let d1 := d.nextCeiling p (rd b 2 2)
    (if un then d1.unblank p else d1, .final St.done [])

/-- The frames in a row, up to the last, in which a port's output tap has read above ceiling + `trip_margin` (R133). -/
def Dev.framesOver (d : Dev) (p : Nat) : Nat :=
  let x := tget (fun _ => (0, 0)) d.rtp.overs p
  if d.frame ≤ x.2 then x.1 else 0

/-- CEILING_TRIP (R133, R134): four frames in a row above ceiling + `trip_margin`. The port is measured while the link of its output tap is
up (R135). -/
def execCeilingTrip (p : Nat) (s : State) : Host.Outcome State Fault Refusal :=
  commitIf (decide (p < 512)) "port" s (
    let d := s.dev
    match d.rtp.map.port p with
    | some r => if d.linkReady (linkOf r.outTap) && decide (4 ≤ d.framesOver p) && !d.portBlanked p then
        (d.blankPort p (d.outReading p)).raiseLevel 297 else d
    | none => d)

/-! ### Moves -/

/-- MOVE_CANCEL (R485): the cancelled command's final reply follows. -/
def bodyMoveCancel (d : Dev) (c : Call) : Dev × Verdict :=
  let tag := rd c.packet.cmd.payload 0 4
  match d.rtp.moves.find? (fun m => m.owner = c.owner && m.tag = tag) with
  | none => refuse d St.badParam
  | some m =>
    if m.elems.any (fun x => x.started) then rtpRefuse d St.conflict
    else ({ d with cpx := { d.cpx with post := d.cpx.post ++ [.cancel m.oid] } }, .final St.done [])

/-- The result of SLUICE_STATUS (Table 6-5), 64 bytes. -/
def Dev.sluiceStatus (d : Dev) : Bytes :=
  let w := d.waitingElems
  let of_ := fun (k : Nat) => (w.filter (fun x => x.1 = k)).length
  let rakes := countBelow 64 (fun s => match (d.sluice s).cur with | some g => g.rake | none => false)
  let per := (List.range 16).flatMap (fun i =>
    le 1 (min 15 (d.linkCount (2 * i) d.now) + 16 * min 15 (d.linkCount (2 * i + 1) d.now)))
  le 2 d.sluicesInUse ++ le 2 (of_ 0) ++ le 2 (of_ 1) ++ le 2 rakes ++ le 4 (d.regN R.trnStallCount) ++
    le 4 (d.regN R.trnAbandonCount) ++ le 4 (d.regN R.trnLatejumpCount) ++ le 4 d.slack ++ le 8 0 ++ per ++ le 16 0

/-- SLUICE_STATUS (R485). -/
def bodySluiceStatus (d : Dev) (_ : Call) : Dev × Verdict := (d, .final St.done d.sluiceStatus)

end Sys2Proof.Machine
end

