-- ==== Sys2Proof/Machine/Cpx.lean ====
section
/-! DEFINITION. The command processor's intake (chapter 02): transports, the replay window, the checks before a command runs, its
replies, fences, and the forwarding of R421. -/

namespace Sys2Proof.Machine

/-! ### What each opcode does -/

/-- Groups 0x01 to 0x03. -/
def bodyLow (op : Nat) (d : Dev) (c : Call) : Dev × Verdict :=
  match op with
  | 0x0101 => bodyDevInfo d c
  | 0x0102 => bodyDevRestart d c
  | 0x0103 => bodyEventSubscribe d c
  | 0x0104 => bodyReqClose d c
  | 0x0105 => bodyEconConfig d c
  | 0x0201 => bodyMapLoad d c
  | 0x0202 => bodyCircuitSet d c
  | 0x0203 => bodyCircuitClear d c
  | 0x0204 => bodyCircuitQuery d c
  | 0x0205 => bodyPortCeiling d c
  | 0x0206 => bodyCircuitBatch d c
  | 0x0301 => bodyScheduleQuery d c
  | 0x0302 => bodyMoveCancel d c
  | 0x0303 => bodySluiceStatus d c
  | _ => refuse d St.badParam

/-- Groups 0x04 to 0x06. -/
def bodyLoops (op : Nat) (d : Dev) (c : Call) : Dev × Verdict :=
  match op with
  | 0x0401 => bodyLawLoad d c
  | 0x0402 => bodyLoopBind d c
  | 0x0403 => bodyCoefSwap d c
  | 0x0404 => bodySetpointSet d c
  | 0x0405 => bodyLoopQuery d c
  | 0x0501 => bodyPlacePin d c
  | 0x0502 => bodyPlaceUnpin d c
  | 0x0503 => bodyPlaceHint d c
  | 0x0504 => bodyPlaceStats d c
  | 0x0601 => bodyTrainReport d c
  | 0x0602 => bodyTrainDrop d c
  | 0x0603 => bodyWsenseConfig d c
  | 0x0604 => bodyTimeQuery d c
  | _ => refuse d St.badParam

/-- Groups 0x07 to 0x09. -/
def bodyPower (op : Nat) (d : Dev) (c : Call) : Dev × Verdict :=
  match op with
  | 0x0701 => bodySstStart d c
  | 0x0702 => bodySstStop d c
  | 0x0703 => bodyPeriodSet d c
  | 0x0704 => bodyCellBypass d c
  | 0x0705 => bodyNeutralSection d c
  | 0x0706 => bodySstQuery d c
  | 0x0801 => bodyLegConfig d c
  | 0x0802 => bodyLegEnable d c
  | 0x0803 => bodyLvReference d c
  | 0x0804 => bodyLegQuery d c
  | 0x0901 => bodyAdcConfig d c
  | 0x0902 => bodyAdcInject d c
  | 0x0903 => bodyDacConfig d c
  | 0x0904 => bodyDacEnable d c
  | _ => refuse d St.badParam

/-- Groups 0x0A to 0x0F. -/
def bodyHigh (op : Nat) (d : Dev) (c : Call) : Dev × Verdict :=
  match op with
  | 0x0A01 => bodyCalRun d c
  | 0x0A02 => bodyCalGap d c
  | 0x0A03 => bodyCalBank d c
  | 0x0B01 => bodyFaultMap d c
  | 0x0B02 => bodyFaultClear d c
  | 0x0B03 => bodyFaultORelease d c
  | 0x0B04 => bodyFaultQuery d c
  | 0x0C01 => bodyTwinPair d c
  | 0x0C02 => bodyTwinYield d c
  | 0x0C03 => bodyTwinQuery d c
  | 0x0D01 => bodyTraceArm d c
  | 0x0D02 => bodyHarvest d c
  | 0x0D03 => bodyTraceStop d c
  | 0x0E01 => bodyRegRead d c
  | 0x0E02 => bodyRegWrite d c
  | 0x0E03 => bodyEcho d c
  | 0x0E04 => bodyMemStatus d c
  | 0x0E05 => bodyCfgWrite d c
  | 0x0F01 => bodySessionOpen d c
  | 0x0F02 => bodySessionClose d c
  | 0x0F03 => bodyImageUpdate d c
  | 0x0F04 => bodyAttest d c
  | _ => refuse d St.badParam

/-- What the function of a command of Table 2-7 does. -/
def functionOf (op : Nat) (d : Dev) (c : Call) : Dev × Verdict :=
  match op / 256 with
  | 1 | 2 | 3 => bodyLow op d c
  | 4 | 5 | 6 => bodyLoops op d c
  | 7 | 8 | 9 => bodyPower op d c
  | _ => bodyHigh op d c

/-- What a command of Table 2-7 does. Optical safe refuses the commands of R390, once they are not malformed (R10). -/
def bodyOf (op : Nat) (d : Dev) (c : Call) : Dev × Verdict :=
  let r := functionOf op d c
  if opticalSafeRefuses op c.packet.cmd.payload && d.flag F.fltState_osafe && decide (r.2 ≠ .final St.badParam []) then refuse d St.refused else r

/-! ### Replies of the intake -/

/-- The CRC-32C over header bytes [7:0] and the payload (R46). -/
def packetCrc (p : Packet) : Nat :=
  crc32c (le 2 p.opcode.toNat ++ le 2 p.cmd.flags.toNat ++ le 2 p.cmd.requester.toNat ++ le 2 p.cmd.length ++ p.cmd.payload)

/-- A BUSY reply counted (Table 2-11). -/
def Dev.countBusy (d : Dev) (st : Nat) : Dev := if st = St.busy then d.bump R.cpxBusyCount else d

/-- A command's tag taken out of its window again, and the command noted as refused transiently (R45, R46, R52). -/
def Dev.forgetTag (d : Dev) (owner : Nat) (p : Packet) : Dev :=
  let q := d.requester owner
  d.setRequester owner { q with window := q.window.filter (fun e => e.tag ≠ p.cmd.tag.toNat),
                                refused := q.refused ++ [(p.cmd.tag.toNat, p.cmd.sequence.toNat)] }

/-- The window cut to the last 1024 recorded commands (R46): when a command has started and is recorded, so that a command whose refusal
turns out to be transient costs no older entry. While commands wait at a fence the window may hold their entries beyond the 1024 (DESIGN CHOICE,
log entry 120). -/
def Dev.trimWindow (d : Dev) (owner : Nat) : Dev :=
  let q := d.requester owner
  d.setRequester owner { q with window := q.window.drop (q.window.length - 1024) }

/-- The single final reply to a command that is no longer, or never was, open. -/
def Dev.close (d : Dev) (p : Packet) (owner : Nat) (recorded : Bool) (st : Nat) (result : Bytes) : Dev :=
  let r := { replyTo p owner st true result with desc := descFor p, record := recorded }
  let d1 := (d.countBusy st).answer r
  if !recorded then d1 else if transient st then d1.forgetTag owner p else d1.trimWindow owner

/-! ### Forwarding (R421) -/

/-- A command that is forwarded: those of `forwardedOpcode`, CAL_RUN of kinds 1 to 3 only. -/
def forwards (p : Packet) : Bool :=
  forwardedOpcode p.opcode.toNat && (p.opcode ≠ 0x0A01#16 || (decide (1 ≤ rd p.cmd.payload 0 1) && decide (rd p.cmd.payload 0 1 ≤ 3)))

/-- The frame of the pair count in which tick `t` lies. -/
def Dev.frameAt (d : Dev) (t : Nat) : Nat := d.pairCountAt t / 1000

/-- The boundary that the record of a forwarded command names, read from the state after the command was accepted; 0 for none. -/
def Dev.boundaryOf (d : Dev) (p : Packet) (oid : Nat) : Nat :=
  match p.opcode.toNat with
  | 0x0401 => (match d.lpc.laws.find? (fun l => l.oid = oid) with
    | some l => d.frameAt (d.lawTick l)
    | none => 0)
  | 0x0901 => d.frameAt (let t := d.strobeFrom d.now
                         if d.lpc.strobeAt < t then t else d.nextStrobe d.now)
  | 0x0403 => (match d.lpc.swaps.find? (fun s => s.oid = oid) with | some s => d.frameAt (d.swapTick s) | none => 0)
  | 0x0703 => (match d.cmu.nextPeriod with
    | some (_, _, k) => d.frameAt (d.cmu.start + (k - d.cmu.k) * d.periodTicks)
    | none => 0)
  | _ => 0

/-- Bytes cut into pieces of 1008, what a FORWARD record holds at most (Table 17-2). -/
def cutForward : Nat → Bytes → List Bytes
  | 0, _ => []
  | n + 1, b => if b.length ≤ 1008 then [b] else b.take 1008 :: cutForward n (b.drop 1008)

/-- The FORWARD records of a command, numbered after `n`: number, opcode, boundary, and the piece that each carries. The spec does not say how a command
with an image longer than a record is carried (R213); here its bytes go on in the next records (DESIGN CHOICE, log entry 144). -/
def forwardRecords (n op boundary : Nat) (b : Bytes) : List (Nat × List Nat) :=
  (cutForward (b.length / 1008 + 1) b).zipIdx.map (fun x => ((n + 1 + x.2) % 2 ^ 32, [op, boundary, x.1.length, unle x.1]))

/-- A command sent to the standby in FORWARD records, and the wait for its FRESULT begun (R421). The bytes of an image that the command names
follow its payload. -/
def Dev.forward (d : Dev) (p : Packet) (owner boundary : Nat) : Dev :=
  let l := forwardRecords d.twn.fseq p.opcode.toNat boundary (p.cmd.payload ++ p.cmd.image)
  let last := (d.twn.fseq + l.length) % 2 ^ 32
  let e : ForwardSent := ⟨last, owner, p.cmd.tag.toNat, d.now + 50 * tickMs, none, l⟩
  l.foldl (fun d x => d.send (.twin twinForward (x.1 :: x.2))) { d with twn := { d.twn with fseq := last, fwdSent := d.twn.fwdSent ++ [e] } }

/-- A status or verdict under which the command has been accepted. -/
def Verdict.accepts : Verdict → Bool
  | .final st _ => changing st
  | .accepted _ => true

/-- The active unit of a pair forwards an accepted command; `after` is the state that its body leaves. -/
def Dev.forwardIf (d after : Dev) (p : Packet) (owner oid : Nat) (v : Verdict) : Dev :=
  if d.pairedActive && forwards p && v.accepts then d.forward p owner (after.boundaryOf p oid) else d

/-! ### Running a command -/

/-- The chain of the cell that a CELL_BYPASS names (Table 2-9). -/
def Dev.namedChain (d : Dev) (p : Packet) : Option Nat :=
  if p.opcode = 0x0704#16 then (d.cellPlace (rd p.cmd.payload 0 1)).map (fun x => x.1) else none

/-- The refusal of a command before its function sees it; none where it may run. Where several apply, the model answers BAD_PARAM for
the packet and its key (R34, R39, R40, R479, R10, R57) before NOT_ACTIVE (R56) before NOT_READY (R55); what the function itself refuses
comes after these (DESIGN CHOICE, log entry 121). -/
def Dev.refusal (d : Dev) (owner : Nat) (recorded : Bool) (p : Packet) : Option Nat :=
  let op := p.opcode.toNat
  let b := p.cmd.payload
  let q := p.cmd.requester.toNat
  if recorded && decide (q ≠ owner) || q = 0 || q = 0xFFFF then some St.badParam
  else match opRow op with
    | none => some St.badParam
    | some row =>
      let key := row.key.map (keyAt b)
      let keyReady := match key with
        | some k => (k.kind ≠ 1 || d.flag F.cpxReady1_ptp) && (k.kind ≠ 3 || d.flag F.cpxReady1_angle)
        | none => true
      if !row.lengthOk p.cmd.length || flagReserved p.cmd.flags || !descOk p || (match key with | some k => keyBad k | none => false) then
        some St.badParam
      else if row.active && d.standby then some St.notActive
      else if !d.groupReady op b (d.namedChain p) || !keyReady then some St.notReady
      else none

/-- The command opened: it has a number, and no final reply yet (R44). -/
def Dev.openCmd (d : Dev) (p : Packet) (owner : Nat) : Dev :=
  { d with cpx := { d.cpx with nextOid := d.cpx.nextOid + 1, opened := d.cpx.opened ++ [⟨d.cpx.nextOid, owner, p, false⟩] } }

/-- An open command struck out. -/
def Dev.strike (d : Dev) (oid : Nat) : Dev := { d with cpx := { d.cpx with opened := d.cpx.opened.filter (fun o => o.oid ≠ oid) } }

/-- A command under `check_only` (Table 2-2): its result, and no change but the nonce that a checked SESSION_OPEN uses up (R60). -/
def Dev.checkOnly (d after : Dev) (p : Packet) (owner : Nat) (recorded : Bool) (v : Verdict) : Dev :=
  let d1 := { d with free := after.free }
  let d2 := if d.hst.nonceCount < after.hst.nonceCount then d1.renewNonce else d1
  let (st, res) := match v with | .final st res => (st, res) | .accepted res => (St.done, res)
  let r := { replyTo p owner st true res with desc := descFor p, record := recorded }
  let d3 := (d2.countBusy st).reply r
  if !recorded then d3 else if transient st then d3.forgetTag owner p else d3.trimWindow owner

/-- A command that has passed every check runs (R44): its single reply, or ACCEPTED and what its function does from then on. `arrived` is
the wall time of its arrival where it has waited. -/
def Dev.runCmd (d : Dev) (owner : Nat) (recorded : Bool) (p : Packet) (arrived : Option Int := none) : Dev :=
  let op := p.opcode.toNat
  let call : Call := ⟨d.cpx.nextOid, owner, p, arrived⟩
  let d1 := d.openCmd p owner
  let (d2, v) := bodyOf op d1 call
  if flagCheckOnly p.cmd.flags then d.checkOnly d2 p owner recorded v
  else match v with
    | .final st res => ((d2.forwardIf d2 p owner call.oid v).strike call.oid).close p owner recorded st res
    | .accepted res =>
      let d3 := d1.forwardIf d2 p owner call.oid v
      let two := match opRow op with | some r => r.twoStage | none => false
      let r := { replyTo p owner St.accepted false res with desc := descFor p, publish := false }
      let d4 := if two && !flagNoInterim p.cmd.flags then d3.answer r else d3
      (bodyOf op d4 call).1.trimWindow owner

/-- A command begins: refused, or run. -/
def Dev.startCmd (d : Dev) (owner : Nat) (recorded : Bool) (p : Packet) (arrived : Option Int := none) : Dev :=
  match d.refusal owner recorded p with
  | some st => d.close p owner recorded st []
  | none => d.runCmd owner recorded p arrived

/-! ### Fences -/

/-- A fenced command waits while a command of its requester with a lower `sequence` has no final reply (Table 2-2); behind it
wait the requester's later commands (R50) and the later commands to the same subsystem (R51). -/
def Dev.fenced (d : Dev) (owner : Nat) (p : Packet) : Bool :=
  flagFence p.cmd.flags && d.cpx.opened.any (fun o => o.owner = owner && decide (o.packet.cmd.sequence.toNat < p.cmd.sequence.toNat))

/-- The subsystem that a command is addressed to (R51): that of its group, where group 0x09 addresses the ADC or the DAC (DEDUCED, log
entry 33). -/
def subsystemOf (op : Nat) : Nat := if op = 0x0903 ∨ op = 0x0904 then 0x19 else op / 256

/-- `p` of `owner` may not overtake the waiting command `w`: they are of one requester (R50) or addressed to one subsystem (R51). -/
def waitsBehind (owner : Nat) (p : Packet) (w : WaitCmd) : Bool :=
  decide (w.owner = owner) || decide (subsystemOf w.packet.opcode.toNat = subsystemOf p.opcode.toNat)

/-- The first waiting command that may start: it stands behind no other, and its fence is clear. `seen` are those that wait before it. -/
def Dev.nextWaiting (d : Dev) : List WaitCmd → List WaitCmd → Option WaitCmd
  | [], _ => none
  | w :: r, seen => if !seen.any (waitsBehind w.owner w.packet) && !d.fenced w.owner w.packet then some w else d.nextWaiting r (w :: seen)

/-- The first waiting command equal to `w` taken out. -/
def eraseWait (w : WaitCmd) : List WaitCmd → List WaitCmd
  | [] => []
  | x :: r => if x = w then r else x :: eraseWait w r

/-- Waiting commands started as far as their fences are clear. -/
def startWaiting : Nat → Dev → Dev
  | 0, d => d
  | fuel + 1, d =>
    if !d.cpx.accepting then d
    else match d.nextWaiting d.cpx.waiting [] with
      | none => d
      | some w => startWaiting fuel (({ d with cpx := { d.cpx with waiting := eraseWait w d.cpx.waiting } }).startCmd w.owner true w.packet (some w.arrived))

/-- Every waiting command that may start has started. -/
def Dev.pump (d : Dev) : Dev := startWaiting d.cpx.waiting.length d

/-! ### Taking a command -/

/-- The answer to a duplicate (R46). -/
def Dev.answerDuplicate (d : Dev) (owner : Nat) (p : Packet) (e : WinEntry) : Dev :=
  let d1 := d.bump R.cpxDupCount
  let base := { replyTo p owner St.duplicate false [] with dup := true, record := false, publish := false }
  match e.reply with
  | some x => if x.final then
      d1.reply { base with status := x.status, final := true, lowConf := x.lowConf, result := x.result, desc := descFor p,
                           again := some (x.evseq, x.time), cut := x.cut }
    else d1.reply base
  | none => d1.reply base

/-- A sequence number noted, and a jump counted (R52). The first command of a requester has no number before it and counts no jump, and a
command that the CPX does not take as new (a tag used again with another content, a datagram answered BUSY with 512 replies held) leaves the
highest number seen as it is (DESIGN CHOICE, log entry 122). -/
def Dev.noteSequence (d : Dev) (owner : Nat) (p : Packet) : Dev :=
  let q := d.requester owner
  let me := (p.cmd.tag.toNat, p.cmd.sequence.toNat)
  if q.refused.contains me then d.setRequester owner { q with refused := q.refused.filter (fun x => x ≠ me) }
  else match q.highSeq with
    | none => d.setRequester owner { q with highSeq := some me.2 }
    | some h =>
      if me.2 = (h + 1) % 2 ^ 32 then d.setRequester owner { q with highSeq := some me.2 }
      else (d.setRequester owner { q with highSeq := some (max h me.2) }).bump R.cpxSeqGaps

/-- A new command of a requester: the 257th in intake is BUSY (R61), others enter the window, and start or wait (R46). -/
def Dev.takeNew (d : Dev) (owner : Nat) (p : Packet) : Dev :=
  let d1 := d.noteSequence owner p
  if 256 ≤ d1.inIntake owner then d1.close p owner true St.busy []
  else
    let q := d1.requester owner
    let d2 := d1.setRequester owner { q with window := q.window ++ [⟨p.cmd.tag.toNat, packetCrc p, none⟩] }
    if d2.cpx.waiting.any (waitsBehind owner p) || d2.fenced owner p then
      { d2 with cpx := { d2.cpx with waiting := d2.cpx.waiting ++ [⟨owner, p, d2.tbu.wallAt d2.now⟩] } }
    else d2.startCmd owner true p

/-- A command taken from its transport for the requester that it is bound to (R46, R480); a SESSION_OPEN from a source that holds no session
has no window. -/
def Dev.take (d : Dev) (owner : Nat) (recorded : Bool) (p : Packet) : Dev :=
  let d1 := d.bump R.cpxCmdCount
  if !recorded then d1.startCmd owner false p
  else match (d1.requester owner).window.find? (fun e => e.tag = p.cmd.tag.toNat) with
    | some e =>
      if e.crc = packetCrc p then d1.answerDuplicate owner p e
      else d1.reply { replyTo p owner St.conflict true [] with record := false }
    | none => d1.takeNew owner p

/-! ### Transports -/

/-- A datagram discarded and counted (R36, R37). -/
def Dev.discardDatagram (d : Dev) : Dev := d.bumpSat F.cpxUdpStat_badDgram

/-- 512 replies of a requester are held, so nothing more is taken from it (R62). -/
def Dev.holdsFull (d : Dev) (owner : Nat) : Bool := decide (512 ≤ (d.requester owner).held.length)

/-- The requester whose commands ring pair `n` brings; none while nothing is fetched from it. -/
def Dev.ringFetches (d : Dev) (n : Nat) : Option Nat :=
  if d.cpx.accepting && decide (n < 8) && d.flag F.cpxReady1_pcie && !d.flag (F.cpxRingStat_dmaErr n) then
    match (d.ring n).bound with
    | some q => if d.holdsFull q then none else some q
    | none => none
  else none

/-- A command that comes as a datagram (R36, R37, R62). One that finds 512 replies held is answered BUSY and not taken: it does not count in
CPX.CMD_COUNT, and neither its tag nor its sequence is noted (DESIGN CHOICE, log entry 122). -/
def Dev.takeUdp (d : Dev) (addr port : Nat) (p : Packet) : Dev :=
  if p.cmd.length ≠ p.cmd.payload.length then d.discardDatagram
  else match d.sessionAt addr port with
    | some s =>
      if s.requester ≠ p.cmd.requester.toNat then d.discardDatagram
      else if d.holdsFull s.requester then (d.countBusy St.busy).reply { replyTo p s.requester St.busy true [] with record := false }
      else d.take s.requester true p
    | none => if p.opcode = 0x0F01#16 then d.take p.cmd.requester.toNat false p else d.discardDatagram

/-- A command packet from its transport: ignored while nothing is taken from it. -/
def Dev.intake (d : Dev) (p : Packet) : Dev :=
  match p.cmd.via with
  | .ring n => (match d.ringFetches n with
    | some q => d.take q true { p with cmd := { p.cmd with payload := if p.cmd.length ≤ 1008 then fitBytes p.cmd.length p.cmd.payload else p.cmd.payload } }
    | none => d)
  | .udp addr port =>
    if !d.flag F.cpxReady1_mgmt then d
    else if !d.flag F.cpxUdpCfg_en then d.discardDatagram
    else if !d.cpx.accepting then d
    else d.takeUdp addr port p

/-! ### Fetching (R32, R50) -/

/-- A command packet read from its bytes (Table 2-1). -/
def packetOf (via : Via) (b image : Bytes) : Packet :=
  ⟨BitVec.ofNat 16 (rd b 0 2), ⟨via, BitVec.ofNat 16 (rd b 2 2), BitVec.ofNat 16 (rd b 4 2), rd b 6 2, BitVec.ofNat 32 (rd b 8 4),
    BitVec.ofNat 32 (rd b 12 4), (b.drop 16).take (rd b 6 2), image⟩⟩

/-- The slots that the command at the head of `b` occupies (R32). -/
def slotsOf (b : Bytes) : Nat := max 1 (min 16 ((16 + rd b 6 2 + 63) / 64))

/-- The slots of submission ring `n` that lie between SQ_HEAD and SQ_TAIL. -/
def Dev.sqFilled (d : Dev) (n : Nat) : Nat :=
  let size := d.slots (F.cpxSqSize_log2Slots n)
  (d.fld (F.cpxSqTail_slot n) % size + size - d.fld (F.cpxSqHead_slot n) % size) % size

/-- A restart or the end of a ring pair's binding follows the replies of this row, so nothing more is fetched from the pair. -/
def Dev.endsFetch (d : Dev) (owner : Nat) : Bool :=
  d.cpx.post.any (fun a => match a with | .close o => decide (o = owner) | .restart _ => true | .cancel _ => false)

/-- The requester of ring pair `n` where a whole command lies between SQ_HEAD and SQ_TAIL and may be fetched (R32). -/
def Dev.ringHas (d : Dev) (n : Nat) : Option Nat :=
  match d.ringFetches n with
  | none => none
  | some q =>
    let b := (d.ring n).slots
    if d.sqFilled n < slotsOf b ∨ b.length < 64 * slotsOf b ∨ d.endsFetch q then none else some q

/-- One command fetched from ring pair `n` and taken; the next turn is its neighbour's (R50). -/
def Dev.fetchOne (d : Dev) (n : Nat) : Dev :=
  let r := d.ring n
  let k := slotsOf r.slots
  let d1 := d.setFld (F.cpxSqHead_slot n) ((d.fld (F.cpxSqHead_slot n) + k) % d.slots (F.cpxSqSize_log2Slots n))
  let d2 := d1.setRing n { r with slots := r.slots.drop (64 * k), images := r.images.tail }
  ({ d2 with cpx := { d2.cpx with turn := n + 1 } }).intake (packetOf (.ring n) (r.slots.take (64 * k)) (r.images.headD []))

/-- The ring pair whose turn it is among those that have a command (R50): the participants follow one another from `turn` on, the eight
pairs and then the UDP intake, whose datagrams are taken as they arrive. -/
def Dev.nextRing (d : Dev) : Option Nat :=
  ((List.range 9).map (fun i => (d.cpx.turn + i) % 9)).find? (fun n => decide (n < 8) && (d.ringHas n).isSome)

/-- Whole commands taken from the ring pairs, one from each per turn, until none is left (R32, R50). -/
def fetchTurns : Nat → Dev → Dev
  | 0, d => d
  | fuel + 1, d => match d.nextRing with
    | some n => fetchTurns fuel (d.fetchOne n)
    | none => d

/-- Everything that the transports offer taken, and what may start started; eight rings hold 32 768 slots at most. -/
def Dev.takeAll (d : Dev) : Dev := (fetchTurns 32768 d).pump

/-- A host command arrives with its opcode, and what waited for a fence starts if it can. -/
def Dev.host (d : Dev) (op : BitVec 16) (c : Cmd) : Dev := (d.intake ⟨op, c⟩).pump

end Sys2Proof.Machine
end

