-- ==== Sys2Proof/Machine/BootRows.lean ====
section
/-! DEFINITION. Power-up, boot and readiness (chapter 03): the starts, the boot image, the ready bits, the host's links. -/

namespace Sys2Proof.Machine

/-! ### Starts -/

/-- POWER_UP (R69, R394, R460): supply group 1 has come within tolerance, and every output takes its state of Table 3-2. -/
def execPowerUp (s : State) : Host.Outcome State Fault Refusal := commit s (s.dev.resetAll 1)

/-- COLD_RESET (R67): PORST_N has been low for 1 µs. -/
def execColdReset (s : State) : Host.Outcome State Fault Refusal := commit s (s.dev.resetAll 2)

/-- COLD_START (R67): PORST_N rises; `unit` is the UNIT_ID strap (R402). A brown-out holds the device in reset all the same (R444). -/
def execColdStart (unit : Bool) (s : State) : Host.Outcome State Fault Refusal :=
  commit s (if s.dev.mem.porst || s.dev.mem.brownOut then s.dev else s.dev.coldStart s.dev.hst.nextCause unit)

/-- The sources of the monitors whose fault an automatic restart waits out (R393, R443). -/
def supplySources : List Nat := (List.range 8).map (· + 404)

/-- AUTO_RESTART (R393): `restart_ms` after device safe, or once every rail of a supply source has been back within its limits for
1 ms. -/
def execAutoRestart (s : State) : Host.Outcome State Fault Refusal :=
  commit s (
    let d := s.dev
    match d.hst.restartDue with
    | none => d
    | some t =>
      let supply := supplySources.contains (d.fld F.fltSafeCause_source)
      if supply && supplySources.any d.present then d
      else
        let ok := ((List.range 8).map (fun r => (d.rail r).okFrom + tickMs)).foldl max t
        let d1 := d.advance (if supply then ok else t)
        ({ d1 with hst := { d1.hst with restartsAt := d1.hst.restartsAt ++ [(d1.now : Int)] } }).coldStart (if supply then 6 else 5)
          (d1.flag F.twnStat_unitId))

/-! ### The boot image -/

/-- Why a slot is refused (R70, `fail_why` of Table 3-6); 0 where it is accepted. -/
def Dev.slotRefusal (d : Dev) (i : SlotImage) : Nat :=
  if !i.vendorSig then 1
  else if !i.tagOk then 2
  else if !i.digestOk then 3
  else if i.rollback < d.fld F.hstRollback_value then 4
  else if d.hst.ownerKey.isSome && i.ownerSig ≠ d.hst.ownerKey then 5
  else 0

/-- A CW register set as the configuration section has it (R59); `rsvd` bits keep their values. -/
def Dev.configure (d : Dev) (x : Nat × Word) : Dev :=
  match regBankAt x.1 with
  | some b => if b.acc = .cw then d.writeCw x.1 (mergeWord (d.reg x.1) x.2 b.wmask) else d
  | none => d

/-- The device ID is not among those that the image is bound to (R76): `foreign`, source 300, an event of group 0x0F whose number is
not stated. -/
def Dev.checkBinding (d : Dev) (i : SlotImage) : Dev :=
  if i.bind = [] ∨ i.bind.contains (unle d.deviceId) then d
  else
    let (n, d1) := (d.setFlag F.hstBootStat_foreign true).fresh 239
    (d1.event (0x0F01 + n) 0 []).raiseLevel 300

/-- A slot booted: `boot` sets, the owner key is fused where it may be (R71), the configuration section's values are set. -/
def Dev.bootSlot (d : Dev) (slot : Nat) (fallback : Bool) (i : SlotImage) : Dev :=
  let d1 := ((d.setFld F.hstBootStat_slot slot).setFlag F.hstBootStat_fallback fallback).setFlag F.cpxReady1_boot true
  let key := match d.hst.ownerKey with | some k => some k | none => i.ownerKey
  let d2 := ({ d1 with hst := { d1.hst with image := some i, bootedSlot := slot, ownerKey := key },
                       cpx := { d1.cpx with accepting := true } }).setFlag F.hstOwnerSet_fused key.isSome
  let d3 := i.cfg.foldl Dev.configure d2
  let sets := i.sets.foldl (fun t x => tput (fun _ => []) t x.1 x.2) d3.lpc.sets
  ({ d3 with lpc := { d3.lpc with sets := sets } }).checkBinding i

/-- The staged slot and what the two slots hold (R73): as IMAGE_UPDATE has left them, and otherwise as the flash was programmed. -/
def Dev.bootSlots (d : Dev) (staged : Nat) (a b : SlotImage) : Nat × SlotImage × SlotImage :=
  match d.hst.staged with
  | some (0, img) => (0, img, b)
  | some (_, img) => (1, a, img)
  | none => (staged, a, b)

/-- BOOT_VERIFY_DONE (R70, R73): the staged slot is tried first, the other second. `staged`, `a` and `b` are what the flash holds, as far as
no IMAGE_UPDATE has written it. -/
def execBootVerifyDone (staged : Nat) (a b : SlotImage) (s : State) : Host.Outcome State Fault Refusal :=
  commitIf (decide (staged < 2)) "image slot" s (
    let d := s.dev
    if !d.mem.porst || d.mem.brownOut || d.flag F.cpxReady1_boot || d.flag F.hstBootStat_noImage || d.hst.warm then d
    else
      let (n, a, b) := d.bootSlots staged a b
      let first := if n = 0 then a else b
      let other := if n = 0 then b else a
      let why := d.slotRefusal first
      if why = 0 then d.bootSlot n false first
      else
        let why2 := d.slotRefusal other
        if why2 = 0 then (d.setFld F.hstBootStat_failWhy why).bootSlot (1 - n) true other
        else (d.setFld F.hstBootStat_failWhy why2).setFlag F.hstBootStat_noImage true)

/-- IMAGE_UPDATE_COMPLETE (R73): the image written to the slot that is not running verifies and is staged, or not. -/
def execImageUpdateComplete (img : SlotImage) (s : State) : Host.Outcome State Fault Refusal :=
  commit s (
    let d := s.dev
    match d.hst.update with
    | none => d
    | some (oid, _, _) =>
      let n := 1 - d.hst.bootedSlot
      if d.slotRefusal img = 0 then
        let d1 := { d with hst := { d.hst with update := none, staged := some (n, img) } }
        (d1.send (.flash n img)).finish oid St.done (le 4 img.version)
      else ({ d with hst := { d.hst with update := none } }).finish oid St.refused [])

/-! ### What a function does as it becomes ready -/

/-- The law kinds of the vendor library (R200); 0xFF for a slot that is empty in this release (R173). -/
def vendorKind (slot : Nat) : Nat :=
  if slot ≤ 2 then slot else if slot ≤ 7 ∨ (16 ≤ slot ∧ slot ≤ 20) then 3 else if slot = 8 then 4 else 0xFF

/-- The block cost of a vendor law (Table 7-1); where the table gives a range the image's directory says which, held to it. -/
def vendorCost (slot c : Nat) : Nat :=
  match slot with
  | 0 => 34 | 1 => 32 | 2 => 26 | 7 => 24 | 8 => 40
  | _ => if slot ≤ 6 then max 24 (min 40 c) else max 60 (min 120 c)

/-- The directory's entry of a vendor slot (R173, R200): where its words stand is the image's. -/
def Dev.vendorSlot (d : Dev) (i : SlotImage) (slot : Nat) : Dev :=
  let (word, cost) := match i.dir.find? (fun x => x.1 = slot) with | some x => x.2 | none => (0, 0)
  if vendorKind slot = 0xFF then d.setSlot slot 0 0 0xFF 0 0 0
  else d.setSlot slot (word % 4096) (max 1 (word / 4096 % 1024)) (vendorKind slot) (vendorCost slot cost) 0 (i.version % 2 ^ 32)

/-- An owner law of the configuration section may be used (R209, R215): of kind 0, 2 or 3. -/
def ownerEntryOk (x : Nat × Nat × Nat) : Bool :=
  let k := x.2.1 / 2 ^ 24 % 256
  decide (48 ≤ x.1) && (k = 0 || k = 2 || k = 3)

/-- The law that a record of the NV store holds for a slot: image and signature; none where the record is not sound, or the signature does
not verify under the owner key (R215, R367). -/
def Dev.recordLaw (d : Dev) (x : Nat × Bytes) : Option Bytes :=
  match readRec (6, x.1) x.2, d.hst.ownerKey with
  | some (r, _), some k =>
    let n := r.body.length - 100
    if Config.ecdsaVerify k (r.body.take n) ((r.body.drop n).take 96) && rd r.body (n + 96) 4 = x.1 then some (r.body.take n) else none
  | _, _ => none

/-- An owner slot filled from the NV store; a record of an emptied slot leaves it empty. -/
def Dev.loadLaw (d : Dev) (slot : Nat) (img : Bytes) : Dev :=
  let n := rd img 8 2
  let base := (d.ownerSpace n).getD 3072
  let u := putWords ((List.range n).map (fun k => storedWord base (lawWord img k))) base d.lpc.ucode
  if n = 0 then d.setSlot slot 0 0 0xFF 0 (rd img 16 4) (rd img 20 4)
  else ({ d with lpc := { d.lpc with ucode := u } }).setSlot slot base n (rd img 6 1) (rd img 10 2) (rd img 16 4) (rd img 20 4)

/-- The words and directory of the microcode as the booted image and the owner's records give it (R215): a configuration-section
law only where its slot has no valid record. -/
def Dev.loadUcode (d : Dev) : Dev :=
  match d.hst.image with
  | none => d
  | some i =>
    let laws := d.hst.lawStore.filterMap (fun x => (d.recordLaw x).map (fun img => (x.1, img)))
    let own := i.dir.filter (fun x => ownerEntryOk x && !laws.any (fun l => l.1 = x.1))
    let held := fun (a : Nat) => decide (a < 3072) || own.any (fun x => decide (x.2.1 % 4096 ≤ a) && decide (a < x.2.1 % 4096 + x.2.1 / 4096 % 4096))
    let words := (i.ucode.filter (fun x => held x.1)).foldl (fun t x => tput (fun _ => 0) t x.1 x.2) []
    let d0 := (List.range 48).foldl (fun d s => d.vendorSlot i s) { d with lpc := { d.lpc with ucode := words } }
    let d1 := (List.range 16).foldl (fun d k => d.setSlot (48 + k) 0 0 0xFF 0 0 0) d0
    let d2 := own.foldl (fun d x => d.setSlot x.1 (x.2.1 % 4096) (x.2.1 / 4096 % 4096) (x.2.1 / 2 ^ 24 % 256) x.2.2 0 (i.version % 2 ^ 32)) d1
    laws.foldl (fun d x => d.loadLaw x.1 x.2) d2

/-- A LAW_LOAD that a warm restart met before its boundary (Table 8-8): it switches if its record was written by then, which is open;
otherwise the slot keeps the record that it had, and the command ends with INTERNAL. -/
def Dev.resumeLaw (d : Dev) (l : LawLoad) : Dev :=
  let (n, d1) := d.fresh 2
  if n = 1 then d1.switchLaw l
  else
    let store := if l.was = [] then d1.hst.lawStore.filter (fun x => x.1 ≠ l.slot) else aput d1.hst.lawStore l.slot l.was
    ({ d1 with lpc := { d1.lpc with laws := d1.lpc.laws.filter (fun x => x.oid ≠ l.oid) },
               hst := { d1.hst with lawStore := store } }).finish l.oid St.internal []

/-- `ucode` (R72, R215 to R217): a warm restart settles the loads that were under way; stores are loaded and checked, engines start, the
fused anti-rollback value rises to the image's. -/
def Dev.ucodeReady (d : Dev) : Dev :=
  let d1 := (((d.lpc.laws.foldl Dev.resumeLaw d).loadUcode).showOwner).ucodeDigest
  let good := (List.range 16).filter (fun e => !d1.flag (F.lpcEngErr_stopped e))
  let d2 := good.foldl (fun d e => (d.setBitAt R.lpcUcodeStat e true).setFld (F.lpcEngStat_state e) (if d.bitAt R.lpcEngEn e then 2 else 4)) d1
  match d.hst.image with
  | some i => d2.setFld F.hstRollback_value (max (d2.fld F.hstRollback_value) i.rollback)
  | none => d2

/-- A boot binding names a slot of the element's kind and a set (R173, R190). -/
def Dev.bindable (d : Dev) (x : Nat × Nat × Nat) : Bool :=
  d.isDrive x.1 && decide (x.2.1 ≤ 63) && !d.slotEmpty x.2.1 && decide (d.slotKind x.2.1 = d.rtp.map.kind x.1 - 1) && decide (x.2.2 ≤ 0x0FFE)

/-- `rtp` (R119, R190): the configuration section's map and its bindings, or the empty map; a warm restart keeps what there is. -/
def Dev.rtpReady (d : Dev) : Dev :=
  match d.hst.image with
  | none => d
  | some i =>
    let (err, m) := checkMap i.map i.map.length
    if d.hst.warm || i.map = [] then d
    else if err ≠ 0 then d.setFld F.rtpMapStat_err err
    else
      let d1 := i.bindings.foldl (fun d x => if d.bindable x then d.rebind x.1 x.2.1 x.2.2 else d) ((d.installMap m).bindMap)
      (m.elems.filter (fun e => (e.2.kind = 1 || e.2.kind = 2) && decide ((d1.loop e.1).code ≠ 0))).foldl
        (fun d e => d.adopt e.1 (d.loop e.1).code) d1

/-- `frame` (R414, R415): in single operation the unit claims with its stored term; in twin operation it becomes the standby where
its peer claims, and otherwise waits. -/
def Dev.frameReady (d : Dev) : Dev :=
  if !d.twinMode then (if d.claims then d else (d.claim 1).afterRole)
  else if d.flag F.twnStat_peerClaimIn || d.standby then
    ({ d.setRole 2 1 with twn := { d.twn with resync := 1 } }.setCause 0 true).afterRole
  else d

/-- The chains that are configured are all ready (Table 3-4). -/
def Dev.chainsReady (d : Dev) : Bool := (List.range 8).all (fun c => !d.bitAt R.clnChainEn c || d.chainReady c)

/-- What a function needs before it can be ready (Table 3-4, R67, R77). `b` numbers the bits of CPX.READY1, and from 32 on the
element links. -/
def Dev.readyNeeds (d : Dev) (b : Nat) : Bool :=
  let on := d.mem.powered && d.mem.porst && !d.mem.brownOut
  let boot := d.flag F.cpxReady1_boot
  match b with
  | 0 => on
  | 1 => d.hst.warm && d.hst.image.isSome
  | 2 | 3 | 10 | 13 => boot
  | 4 => boot && decide (d.fld (F.memDdrStat_dstate 0) ≠ 4) && !d.present 409
  | 5 => boot && decide (d.fld (F.memDdrStat_dstate 1) ≠ 4) && !d.present 409
  | 6 => d.flag F.cpxReady1_ddr0 && d.flag F.cpxReady1_ddr1
  | 7 => d.flag F.cpxReady1_ucode
  | 8 => d.flag F.cpxReady1_plm
  | 9 => d.flag F.cpxReady1_rtp && d.flag F.trnCtrl_en
  | 11 => d.flag F.cpxReady1_mgmt && decide (16 ≤ d.tbu.goodSyncs)
  | 12 => d.flag F.cpxReady1_frame && d.trackerRuns && d.flag F.tbuCatStat_locked
  | 14 => d.flag F.cpxReady1_aon && (List.range 28).all (fun i => decide (16 ≤ (tget (fun _ => ({} : Sensor)) d.ths.sensors i).hist.length))
  | 15 => d.flag F.cpxReady1_aon
  | 16 => d.flag F.twnStat_paired && d.flag F.twnStat_linkUp
  | 25 => d.flag F.cpxReady1_frame && d.chainsReady
  | 26 => d.flag F.cpxReady1_cal && d.flag F.pwmCtrl_en && !d.present 415
  | 27 => d.flag F.cpxReady1_cal && !d.present 412
  | 28 => d.flag F.cpxReady1_cal && !d.present 412 && !d.present 413 && !d.present 414
  | _ =>
    if b < 17 ∨ 63 < b then false
    else if b < 25 then d.flag F.cpxReady1_frame && d.chainState (b - 17) = 4
    else if b < 32 then false
    else d.flag F.cpxReady1_trn && d.bitAt R.elkLinkEn (b - 32) && (d.linkState (b - 32) = 6 ||
      (d.linkState (b - 32) = 5 && decide ((d.elink (b - 32)).channels ≤ (d.elink (b - 32)).read)))

/-- A DDR5 channel trained (R447): at the highest rate of its DIMM, whose size is known from the SPD; it runs. -/
def Dev.ddrTrained (d : Dev) (c : Nat) : Dev :=
  let (r, n) := Config.dimm c
  let d1 := (d.setFld (F.memDdrCfg_rate c) (1 + r % 3)).setFld (F.memDdrCfg_capacity c) (16 * 2 ^ (n % 3))
  (d1.setDstate c 2).setFlag F.memStat_sr (decide (d.fld (F.memDdrStat_dstate (1 - c)) = 3))

/-- What happens as a function becomes usable, beside its ready bit. -/
def Dev.readyEffect (d : Dev) (b : Nat) : Dev :=
  match b with
  | 1 => ({ d with cpx := { d.cpx with accepting := true } }).takeAll
  | 2 => (((List.range 8).foldl Dev.releaseRing d).eqRoom).takeAll
  | 3 => (d.cpx.sessions.filter (fun s => s.lost ≠ 0)).foldl (fun d s => d.note (.sessionLoss d.now s.number)) d.releaseUdp
  | 4 => d.ddrTrained 0
  | 5 => d.ddrTrained 1
  | 6 => d.ucodeReady
  | 8 => d.rtpReady
  | 10 => d.frameReady
  | 11 => d.setPtp
  | 13 => if d.hst.warm then d.setFlag F.cpxReady1_cal (d.flag F.calCtrl_en && d.bank.valid) else d.applyBank
  | 15 => d.updateAlive
  | 26 => (d.setFlag F.gdpStat_vgdOk true).setFlag F.pwmStat_hrLock true
  | _ => d

/-- A function becomes usable (R77): its ready bit sets. Where what it needs is missing nothing happens. -/
def Dev.functionReady (d : Dev) (b : Nat) : Dev :=
  if !d.readyNeeds b then d
  else if 32 ≤ b then (if d.linkState (b - 32) = 5 then d.linkUp (b - 32) else d.setBitAt R.cpxReady0 (b - 32) true)
  else if b = 13 then d.readyEffect b
  else (d.setBitAt R.cpxReady1 b true).readyEffect b

/-- FUNCTION_READY (R77): bit `bit` of CPX.READY1, or from 32 on of CPX.READY0. -/
def execFunctionReady (bit : Nat) (s : State) : Host.Outcome State Fault Refusal :=
  commitIf (decide (bit < 64)) "ready bit" s (s.dev.functionReady bit)

/-! ### Clock and links -/

/-- REFCLK_LOSS (R16): REFCLK has been away for more than 2 µs; source 302. -/
def execRefclkLoss (s : State) : Host.Outcome State Fault Refusal :=
  commit s ({ s.dev with mem := { s.dev.mem with refLost := true } }.raiseLevel 302)

/-- REFCLK_RESTORE (R395): source 302 is absent again. -/
def execRefclkRestore (s : State) : Host.Outcome State Fault Refusal :=
  commit s ((({ s.dev with mem := { s.dev.mem with refLost := false } }).clearLevel 302).updateAlive)

/-- PCIE_LINK_DOWN (R77, R458): `pcie` clears, and bus master 1 is reset. -/
def execPcieLinkDown (s : State) : Host.Outcome State Fault Refusal :=
  commit s (if s.dev.flag F.cpxReady1_pcie then (s.dev.setFlag F.cpxReady1_pcie false).resetMaster 1 else s.dev)

/-- MGMT_LINK_DOWN (R77): `mgmt` clears. -/
def execMgmtLinkDown (s : State) : Host.Outcome State Fault Refusal := commit s (s.dev.setFlag F.cpxReady1_mgmt false)

end Sys2Proof.Machine
end

