-- ==== Sys2Proof/Machine/CpxRows.lean ====
section
/-! DEFINITION. Rings, datagrams and direct register writes (chapter 02): what the host does at its two transports. -/

namespace Sys2Proof.Machine

/-- A ring pair number of Table 2-11. -/
def okRing (n : Nat) : Bool := decide (n < 8)

/-- SQ_TAIL_DOORBELL (R32, R50, R51): `slots` is what the ring's slots from SQ_HEAD on hold, `images` what the host addresses in their
commands hold, in order. -/
def execSqTailDoorbell (n : Nat) (tail : Word) (slots : Bytes) (images : List Bytes) (s : State) : Host.Outcome State Fault Refusal :=
  commitIf (okRing n) "ring pair" s (s.dev.direct (fun d =>
    ((d.setFld (F.cpxSqTail_slot n) tail.toNat).setRing n { d.ring n with slots := slots, images := images }).takeAll))

/-- CQ_HEAD_DOORBELL (R33, R62). -/
def execCqHeadDoorbell (n : Nat) (v : Word) (s : State) : Host.Outcome State Fault Refusal :=
  commitIf (okRing n) "ring pair" s (s.dev.direct (fun d => (d.writeCqHead n v).takeAll))

/-- EQ_HEAD_DOORBELL (R33, R54). -/
def execEqHeadDoorbell (v : Word) (s : State) : Host.Outcome State Fault Refusal :=
  commit s (s.dev.direct (fun d => d.writeEqHead v))

/-- The offset of a ring's base, size or requester register. -/
def isRingConfig (off : Nat) : Bool :=
  off % 4 = 0 && ((decide (0x100 ≤ off) && decide (off < 0x300) && [0, 1, 2, 5, 6, 7, 10].contains ((off - 0x100) % 0x40 / 4)) ||
    (decide (0x300 ≤ off) && decide (off ≤ 0x308)))

/-- RING_CONFIG_WRITE (R31). -/
def execRingConfigWrite (off : Nat) (v : Word) (s : State) : Host.Outcome State Fault Refusal :=
  commitIf (isRingConfig off) "ring register" s (s.dev.direct (fun d =>
    if 0x300 ≤ off then d.writeEq2 off v else d.writeRing ((off - 0x100) / 0x40) ((off - 0x100) % 0x40 / 4) v))

/-- RING_ENABLE (R33, R34, Table 2-17): CPX.RING_CTRL written with `en` set. -/
def execRingEnable (n : Nat) (v : Word) (s : State) : Host.Outcome State Fault Refusal :=
  commitIf (okRing n) "ring pair" s (s.dev.direct (fun d => d.writeRingCtrl n (v ||| 0x10000#32)))

/-- RING_DISABLE (R48, Table 2-17): CPX.RING_CTRL written with `en` clear. -/
def execRingDisable (n : Nat) (v : Word) (s : State) : Host.Outcome State Fault Refusal :=
  commitIf (okRing n) "ring pair" s (s.dev.direct (fun d => d.writeRingCtrl n (v &&& 0xFFFEFFFF#32)))

/-- RING_DISABLE_EFFECT (R48): every command of a pair that is being disabled has its final reply. -/
def execRingDisableEffect (n : Nat) (s : State) : Host.Outcome State Fault Refusal :=
  commitIf (okRing n) "ring pair" s (
    let d := s.dev
    if (d.ring n).disabling && d.ringIdle n then d.ringDisabled n else d)

/-- EVENT_RING_ENABLE (R33): CPX.EQ_SIZE written with `en` set. -/
def execEventRingEnable (v : Word) (s : State) : Host.Outcome State Fault Refusal :=
  commit s (s.dev.direct (fun d => d.writeEqSize (v ||| 0x10#32)))

/-- RING_DMA_ERROR (Table 2-18, R458): the pair stops, and its requests at bus master 2 are withdrawn. -/
def execRingDmaError (n : Nat) (s : State) : Host.Outcome State Fault Refusal :=
  commitIf (okRing n) "ring pair" s (
    let d := s.dev
    if d.flag (F.cpxRingCtrl_en n) then ((d.disableRing n).setFlag (F.cpxRingStat_dmaErr n) true).resetMaster 2 else d)

/-- UDP_DATAGRAM (R36, R37): `whole` says that the IP packet is not a fragment. A fragment, and a datagram too short for a header, are
discarded and counted like one of a wrong length (DESIGN CHOICE, log entry 123). -/
def execUdpDatagram (addr port : Nat) (whole : Bool) (bytes image : Bytes) (s : State) : Host.Outcome State Fault Refusal :=
  commit s (
    let d := s.dev
    if !d.flag F.cpxReady1_mgmt then d
    else if !d.flag F.cpxUdpCfg_en || !whole || decide (bytes.length < 16) || decide (bytes.length ≠ 16 + rd bytes 6 2) then d.discardDatagram
    else (({ d with cpx := { d.cpx with turn := 0 } }).intake (packetOf (.udp addr port) bytes image)).takeAll)

/-- CQ_STALL_TIMEOUT (R62): a completion ring has been full for more than 1 ms. -/
def execCqStallTimeout (n : Nat) (s : State) : Host.Outcome State Fault Refusal :=
  commitIf (okRing n) "ring pair" s (
    let d := s.dev
    match (d.ring n).fullSince with
    | some t => if d.cqFull n then ((d.advance (t + tickMs)).setFlag (F.cpxRingStat_cqStall n) true).raiseLevel 298 else d
    | none => d)

/-- MSIX_COALESCE_EXPIRY (R35): the coalescing time after the first entry not yet signalled. -/
def execMsixCoalesceExpiry (v : Nat) (s : State) : Host.Outcome State Fault Refusal :=
  commitIf (okRing v) "vector" s (
    let d := s.dev
    let r := d.ring v
    if r.unsignalled = 0 then d
    else
      let d1 := d.advance (r.firstUnsignalled + d.fld (F.cpxRingCtrl_coalesce v) * tickUs)
      (d1.setRing v { r with unsignalled := 0 }).send (.msix v))

/-- BAR0_WRITE (R8 to R11). -/
def execBar0Write (off : Nat) (v : Word) (s : State) : Host.Outcome State Fault Refusal := commit s (s.dev.writeBar0 off v)

end Sys2Proof.Machine
end

