-- ==== Sys2Proof/Machine/Twin.lean ====
section
/-! DEFINITION. The twin manager's records, timers and pins (chapter 17): heartbeats, pairing, resynchronisation, mirroring, forwarding and
the claim wiring. -/

namespace Sys2Proof.Machine

/-- PEER_CLAIM_IN is high. -/
def Dev.peerHigh (d : Dev) : Bool := d.flag F.twnStat_peerClaimIn

/-- TWIN commands that wait for the pairing or the comparison get their final reply (R431). -/
def Dev.finishPairing (d : Dev) : Dev :=
  let l := d.twn.pairing
  l.foldl (fun d o => d.finish o St.done d.pairResult) { d with twn := { d.twn with pairing := [] } }

/-- The pairing ends: `paired` and `twin` clear (R409). -/
def Dev.unpair (d : Dev) : Dev := (d.setFlag F.twnStat_paired false).setFlag F.cpxReady1_twin false

/-- Resynchronisation begins from its first step (R429); it sets cause `pairing`. -/
def Dev.beginResync (d : Dev) : Dev :=
  ({ d.unpair with twn := { d.twn with resync := 1, ofsRuns := [], items := [], digestSeen := false } }).elig 0 true

/-- A standby claims, if it may: PEER_CLAIM_IN is low (R416). -/
def Dev.tryClaim (d : Dev) (cause : Nat) : Dev := if d.standby && !d.peerHigh then (d.claim cause).afterRole else d

/-- A standby claims on its peer's yield (R416): only if it is eligible. -/
def Dev.claimOnYield (d : Dev) : Dev := if d.flag F.twnStat_eligible && d.twn.peerYield then d.tryClaim 2 else d

/-- The twin link is lost (R409): source 419, the pairing ends, event 0x0C06; the standby resynchronises once it returns. -/
def Dev.loseTwin (d : Dev) : Dev :=
  if !d.flag F.twnStat_linkUp then d
  else
    let d1 := ((d.setFlag F.twnStat_linkUp false).unpair).setFlag F.twnStat_peerEligible false
    let d2 := (d1.event 0x0C06 0 (le 1 0)).raiseLevel 419
    if d2.standby then d2.beginResync else d2

/-! ### Heartbeats -/

/-- The tick at which the next heartbeat is due (R407): the next strobe whose pair frame count is a multiple of 4; 10 µs after the last
one while the two pair counts do not agree yet. -/
def Dev.nextHeartbeat (d : Dev) : Nat :=
  if d.flag F.twnStat_paired then
    let t := d.nextMultiple 4
    if d.now < t then t else t + 4 * tickFrame
  else d.now + 10 * tickUs

/-- The first heartbeat after a loss or a start brings the link up: event 0x0C06, source 419 absent; a unit that is to pair begins. -/
def Dev.twinUp (d : Dev) : Dev :=
  let d1 := (((d.setFlag F.twnStat_linkUp true).event 0x0C06 0 (le 1 1)).clearLevel 419).clearLevel 421
  if d1.standby || (d1.twinMode && !d1.active && decide (d1.unit = 1) && d1.flag F.cpxReady1_frame) then d1.beginResync else d1

/-- One exchange of R410: the offset found, in half counts, and the one-way delay in bit times of 80 ps (Table 17-9). -/
def Dev.exchange (d : Dev) (t2 t3 : Nat) : Dev :=
  let t1 : Int := d.twn.txPair
  let t4 : Int := d.pairCount
  let half : Int := ((t2 : Int) - t1) + ((t3 : Int) - t4)
  let trip : Int := (t4 - t1) - ((t3 : Int) - (t2 : Int))
  let delay := (clampInt 0 65535 ((trip * 125 + 4) / 8)).toNat
  let d1 := d.setFld F.twnLinkDelay_delay delay
  if d1.twn.resync = 2 then { d1 with twn := { d1.twn with ofsRuns := (half :: d1.twn.ofsRuns).take 16 } } else d1

/-- What the peer's heartbeat says of it (Table 17-3), written to TWN.PEER and followed: `peer_eligible` with event 0x0C02. -/
def Dev.takePeer (d : Dev) (flags term : Nat) : Dev :=
  let d1 := ((d.setFld F.twnPeer_term term).setFlag F.twnPeer_claim (bit flags 1)).setFlag F.twnPeer_eligible (bit flags 3)
  let now := d1.active && bit flags 3 && !bit (d1.regN R.twnElig) 5
  let d2 := d1.setFlag F.twnStat_peerEligible now
  if d1.flag F.twnStat_peerEligible = now then d2 else d2.event 0x0C02 (1 - d.unit) (le 4 (d.regN R.twnElig))

/-- The pairing as the peer sees it, on a unit that is not a standby (R415, R429). -/
def Dev.followPairing (d : Dev) (paired : Bool) : Dev :=
  if d.standby || d.flag F.twnStat_paired = paired then d
  else if paired then
    (({ d with twn := { d.twn with fseq := 0 } }.setFlag F.twnStat_paired true).setFlag F.cpxReady1_twin true).finishPairing
  else d.unpair

/-- The peer's claim ends a yield, and the TWIN_YIELD commands that wait for it (R417, R431). -/
def Dev.peerClaims (d : Dev) (claim : Bool) (term : Nat) : Dev :=
  if !claim || d.active then d
  else
    let l := d.twn.yieldOids
    l.foldl (fun d o => d.finish o St.done (le 2 term)) { d with twn := { d.twn with yielding := false, yieldOids := [] } }

/-- A heartbeat of the peer (R407, R410, R415 to R417). -/
def Dev.heartbeat (d : Dev) (b : Bytes) : Dev :=
  let flags := rd b 1 1
  let term := rd b 2 2
  let twn := { d.twn with heard := some d.now, hbDue := some d.nextHeartbeat, streak := 0, rxPair := d.pairCount, peerEvseq := rd b 24 8,
                          peerMseq := rd b 32 4, peerYield := bit flags 2 }
  let d0 := if rd b 16 8 = 0 then d else d.exchange (rd b 16 8) (rd b 8 8)
  let d1 := { d0 with twn := { twn with ofsRuns := d0.twn.ofsRuns } }
  let d2 := (if d1.flag F.twnStat_linkUp then d1.clearLevel 421 else d1.twinUp).takePeer flags term
  let d3 : Dev := ((d2.followPairing (bit flags 4)).peerClaims (bit flags 1) term).claimOnYield
  if d3.twinMode && decide (d3.fld F.twnStat_role = 0) && decide (d3.unit = 0) && d3.flag F.cpxReady1_frame && bit flags 4 && !bit flags 1 &&
      !d3.peerHigh
  then (d3.claim 1).afterRole else d3

/-- HEARTBEAT_RECEIVED (R407). -/
def execHeartbeatReceived (r : WireRec) (s : State) : Host.Outcome State Fault Refusal :=
  commit s (if recOk r.bytes 40 0x71 && s.dev.twinMode then s.dev.heartbeat r.bytes else s.dev)

/-- HEARTBEAT_MISSED (R407, R409, R416): none has arrived within 1 µs of the instant at which it was due. -/
def execHeartbeatMissed (s : State) : Host.Outcome State Fault Refusal :=
  commit s (
    match s.dev.twn.hbDue with
    | none => s.dev
    | some t =>
      let d := s.dev.advance (t + tickUs)
      let n := d.twn.streak + 1
      let d1 := ({ d with twn := { d.twn with hbDue := some (t + 10 * tickUs), streak := n } }).bumpSat F.twnHbMiss_missed
      if n = 3 then (d1.loseTwin.raiseLevel 421).tryClaim 3 else d1)

/-- TWIN_LINK_LOST (R409): block lock lost on a lane. -/
def execTwinLinkLost (lane : Nat) (s : State) : Host.Outcome State Fault Refusal :=
  commitIf (decide (lane < 4)) "lane" s s.dev.loseTwin

/-- A heartbeat sent (R407). -/
def Dev.sendHeartbeat (d : Dev) : Dev :=
  let c := d.pairCount
  let flags := d.unit + 2 * b2n d.claims + 4 * b2n d.twn.yielding + 8 * b2n (d.flag F.twnStat_eligible) + 16 * b2n (d.flag F.twnStat_paired)
  ({ d with twn := { d.twn with txPair := c } }).send
    (.twin twinHeartbeat [flags, d.term, c, d.twn.rxPair, d.tbu.evseq, d.twn.mseq, d.twn.mapplied])

/-! ### Claims -/

/-- YIELD_RECEIVED (R416, R431): the standby claims; the active unit is asked to yield. -/
def execYieldReceived (r : WireRec) (s : State) : Host.Outcome State Fault Refusal :=
  commit s (
    let d := s.dev
    if !recOk r.bytes 16 0x77 || !d.twinMode then d
    else if d.active then (if d.flag F.twnStat_peerEligible then d.yield.afterRole else d)
    else ({ d with twn := { d.twn with peerYield := true } }).claimOnYield)

/-- PEER_CLAIM_IN_CHANGE (R415, R416): the level of the pin. -/
def execPeerClaimInChange (level : Bool) (s : State) : Host.Outcome State Fault Refusal :=
  commit s (
    let d := s.dev.setFlag F.twnStat_peerClaimIn level
    if s.dev.peerHigh = level then d
    else if level then
      let d1 := ({ d with twn := { d.twn with peerHighFrom := d.now } }).level 422 (d.twinMode && d.claims)
      if d1.twinMode && decide (d1.fld F.twnStat_role = 0) && d1.flag F.cpxReady1_frame then (d1.setRole 2 1).beginResync.afterRole else d1
    else
      let d1 := ({ d with twn := { d.twn with peerLowFrom := d.now } }).clearLevel 422
      let d2 := d1.claimOnYield
      if 3 ≤ d2.twn.streak then d2.tryClaim 3 else d2)

/-- PEER_CLAIM_CONFLICT (R418): PEER_CLAIM_IN has stayed high for 100 µs while this unit claims and ranks below its peer, or is unit 1 and
has heard nothing of it. -/
def execPeerClaimConflict (s : State) : Host.Outcome State Fault Refusal :=
  commit s (
    let d := s.dev
    let peer := d.fld F.twnPeer_term
    let below := match d.twn.heard with | some _ => outranks peer (1 - d.unit) d.term d.unit | none => d.unit = 1
    if d.twinMode && d.claims && d.peerHigh && below then ((d.advance (d.twn.peerHighFrom + 100 * tickUs)).withdraw peer).afterRole else d)

/-- SOLO_WAIT_EXPIRY (R415): PEER_CLAIM_IN has stayed low for `solo_wait`, and on unit 1 for 500 ms more, without a twin link. -/
def execSoloWaitExpiry (s : State) : Host.Outcome State Fault Refusal :=
  commit s (
    let d := s.dev
    if d.twinMode && decide (d.fld F.twnStat_role = 0) && d.flag F.cpxReady1_frame && !d.flag F.twnStat_linkUp && !d.peerHigh then
      let wait := d.fld F.twnCtrl_soloWait * 10 * tickMs + d.unit * 500 * tickMs
      ((d.advance (d.twn.peerLowFrom + wait)).claim 1).afterRole
    else d)

/-! ### Pairing and resynchronisation -/

/-- The median of the offsets found, in half counts, rounded to a whole count (R410): of an even number, half the sum of the two in the
middle. -/
def medianOffset (l : List Int) : Int :=
  let s := l.foldl (fun acc x => acc.filter (fun y => decide (y ≤ x)) ++ x :: acc.filter (fun y => decide (x < y))) []
  let m := (s[(s.length - 1) / 2]?.getD 0) + (s[s.length / 2]?.getD 0)
  (m + 2) / 4

/-- The pair offset changed (R410). -/
def Dev.setOffset (d : Dev) (x : Int) : Dev :=
  let d1 := { d with twn := { d.twn with offset := x } }
  let p := pattern 64 x
  (d1.setRegN R.twnPairOfsLo (p % 2 ^ 32)).setRegN R.twnPairOfsHi (p / 2 ^ 32)

/-- Every enabled link is ready, and every enabled chain is in state 4 (R429, step 5). -/
def Dev.farEndsUp (d : Dev) : Bool :=
  (List.range 32).all (fun l => !d.bitAt R.elkLinkEn l || d.linkReady l) && d.chainsReady

/-- Step 4 complete: the unit is paired; it is a standby from here on where neither unit claimed (R415). -/
def Dev.pairUp (d : Dev) : Dev :=
  let d1 := (d.setFlag F.twnStat_paired true).setFlag F.cpxReady1_twin true
  let d2 := { d1 with twn := { d1.twn with resync := 5, fapplied := 0, fwdPart := [], hbDue := d1.twn.hbDue.map (fun _ => d1.nextHeartbeat) } }
  ((if d2.fld F.twnStat_role = 0 then d2.setRole 2 1 else d2).elig 5 false).afterRole

/-- RESYNC_STEP (R429): the next step is complete, if what it needs is there. -/
def Dev.resyncStep (d : Dev) : Dev :=
  match d.twn.resync with
  | 1 => if d.flag F.twnStat_linkUp then { d with twn := { d.twn with resync := 2, ofsRuns := [] } } else d
  | 2 =>
    if d.twn.ofsRuns.length < 16 then d
    else
      let d1 := (d.setOffset (d.twn.offset + medianOffset d.twn.ofsRuns)).elig 8 false
      ({ d1 with twn := { d1.twn with resync := 3, mapplied := d1.twn.peerMseq, digestSeen := false, items := [] } }).sendDigest
  | 3 => if d.twn.digestSeen then { d with twn := { d.twn with resync := 4 } } else d
  | 4 => if [1, 2, 3, 4, 5, 6].all d.twn.items.contains || !d.flag F.twnPeer_claim then d.pairUp else d
  | 5 => if d.farEndsUp then (({ d with twn := { d.twn with resync := 0 } }).elig 0 false).finishPairing else d
  | _ => d

/-- RESYNC_STEP (R429). -/
def execResyncStep (s : State) : Host.Outcome State Fault Refusal :=
  commit s (if s.dev.twinMode && !s.dev.active then s.dev.resyncStep else s.dev)

/-- PAIR_OFFSET_CHECK (R412): the standby's measurement of every second; `drift` is the offset found less the fixed one, in counts. -/
def execPairOffsetCheck (drift : Int) (s : State) : Host.Outcome State Fault Refusal :=
  commit s (
    let d := s.dev
    if d.standby && d.flag F.twnStat_paired then (if 2 < drift.natAbs then (d.elig 8 true).beginResync else d.elig 8 false) else d)

/-- The standby's wall time follows the active unit's (R413). -/
def Dev.followWall (d : Dev) (diff : Int) : Dev :=
  if diff.natAbs ≤ 1000 then d.slewWall diff d.tbu.wallRate
  else ((d.beforeStep.rebaseWall diff d.tbu.wallRate true).event 0x0C04 d.unit (le 8 (pattern 64 diff))).afterStep

/-- DIGEST_RECEIVED (R413, R423): the peer's digests, and its TAI at its pair count. -/
def Dev.digest (d : Dev) (b : Bytes) : Dev :=
  let own : Int := d.wall - (((d.pairCount : Int) - (rd b 120 8 : Int)) * 5) / 2
  let diff : Int := (rd b 112 8 : Int) - own
  let twn := { d.twn with peerFirmware := rd b 8 4, peerCal := rd b 108 4, digestSeen := true, timeDiff := diff }
  let d1 := ({ d with twn := twn }).setRegN R.twnTimeDiff (sat32 diff)
  let judge := fun (d : Dev) =>
    (((d.elig 1 (decide (rd b 8 4 ≠ d.firmware))).elig 2 (decide (rd b 12 48 ≠ unle d.ucodeBytes))).elig 3
      (decide (rd b 60 48 ≠ d.cfgDigest))).elig 4 (decide (rd b 108 4 ≠ d.calIdent))
  let d2 : Dev := if d1.active then d1 else judge d1
  let d3 : Dev := if d2.standby && (d2.flag F.twnStat_paired || decide (2 ≤ d2.twn.resync)) then d2.followWall diff else d2
  let d4 : Dev := if !d3.flag F.twnStat_paired && !d3.standby then
      (if d3.active then d3.sendDigest.mirrorAll else d3.sendDigest)
    else d3
  if d4.flag F.twnStat_paired && decide (d4.twn.resync = 0) then d4.finishPairing else d4

/-- DIGEST_RECEIVED (R423). -/
def execDigestReceived (r : WireRec) (s : State) : Host.Outcome State Fault Refusal :=
  commit s (if recOk r.bytes 128 0x72 && s.dev.twinMode then s.dev.digest r.bytes else s.dev)

/-! ### Mirroring -/

/-- A MACK record: the last number applied, and whether a gap is open (R408). -/
def Dev.sendMack (d : Dev) (gap : Bool) : Dev := d.send (.twin twinMack [d.twn.mapplied, b2n gap])

/-- `n` lies above `m` in 32-bit sequence numbers. -/
def seqAbove (n m : Nat) : Bool :=
  let x := (n + 2 ^ 32 - m % 2 ^ 32) % 2 ^ 32
  decide (0 < x) && decide (x < 2 ^ 31)

/-- A MIRROR record (R408, R419): applied in order; stale ones acknowledged again; a gap told. -/
def Dev.mirrorRecord (d : Dev) (b : Bytes) : Dev :=
  let n := rd b 8 4
  if n = (d.twn.mapplied + 1) % 2 ^ 32 then
    let i := rd b 12 1
    let d1 := (d.putItem i (Config.mirrorItem i (b.drop 16) d.mirrored)).setRegN R.twnMseq n
    let d2 := { d1 with twn := { d1.twn with mapplied := n, gapFrom := none } }
    (if d2.twn.resync = 0 ∨ d2.twn.resync = 5 then d2.elig 5 false else d2).sendMack false
  else if seqAbove n d.twn.mapplied then
    ({ d with twn := { d.twn with gapFrom := some (d.twn.gapFrom.getD d.now) } }).sendMack true
  else d.sendMack false

/-- MIRROR_RECEIVED (R419). -/
def execMirrorReceived (r : WireRec) (s : State) : Host.Outcome State Fault Refusal :=
  commit s (
    let b := r.bytes
    if recOk b b.length 0x73 && decide (16 ≤ b.length) && decide (b.length ≤ 1024) && decide (b.length % 8 = 0) && s.dev.standby then s.dev.mirrorRecord b
    else s.dev)

/-- MIRROR_GAP_TIMEOUT (Table 17-5): a gap has been outstanding for more than 100 µs. -/
def execMirrorGapTimeout (s : State) : Host.Outcome State Fault Refusal :=
  commit s (
    match s.dev.twn.gapFrom with
    | some t => (s.dev.advance (t + 100 * tickUs)).elig 5 true
    | none => s.dev)

/-- Replies that a MACK up to `n` covers go out (R420). -/
def Dev.releaseMack (d : Dev) (n : Nat) : Dev :=
  let out := d.twn.waitMack.filter (fun w => !seqAbove w.number n)
  let twn := { d.twn with waitMack := d.twn.waitMack.filter (fun w => seqAbove w.number n),
                          mirrorSent := d.twn.mirrorSent.filter (fun m => seqAbove m.1 n) }
  out.foldl (fun d w => d.reply w.reply) { d with twn := twn }

/-- Records sent again from the first missing one (R408); MACK names no number of a FORWARD record, so those without an answer follow. -/
def Dev.resend (d : Dev) : Dev :=
  let d1 := d.twn.mirrorSent.foldl (fun d m => d.send (.twin twinMirror (m.1 :: m.2))) d
  ((d1.twn.fwdSent.filter (fun e => e.status.isNone)).flatMap (fun e => e.records)).foldl (fun d x => d.send (.twin twinForward (x.1 :: x.2))) d1

/-- MACK_RECEIVED (R408, R420). -/
def execMackReceived (r : WireRec) (s : State) : Host.Outcome State Fault Refusal :=
  commit s (
    let b := r.bytes
    if !recOk b 16 0x74 || !s.dev.active then s.dev
    else
      let d := s.dev.releaseMack (rd b 8 4)
      if bit (rd b 12 1) 0 then d.resend else if d.twn.mirrorSent = [] then d.elig 5 false else d)

/-- MIRROR_TIMEOUT (R420): 20 µs have passed without MACK; the reply goes out, and the standby counts as ineligible. -/
def execMirrorTimeout (s : State) : Host.Outcome State Fault Refusal :=
  commit s (
    match s.dev.twn.waitMack with
    | [] => s.dev
    | w :: r =>
      let d := s.dev.advance w.due
      let d1 := ({ d with twn := { d.twn with waitMack := r } }).reply w.reply
      (d1.setFlag F.twnStat_peerEligible false).elig 5 true)

/-! ### Forwarding -/

/-- An FRESULT record (R421). -/
def Dev.sendFresult (d : Dev) (n st : Nat) : Dev := ({ d with twn := { d.twn with fstatus := st } }).send (.twin twinFresult [n, st])

/-- The payload of a forwarded command and the image behind it (R421). A COEF_SWAP is as long as its whole entries. -/
def forwardParts (op : Nat) (b : Bytes) : Bytes × Bytes :=
  match opRow op with
  | none => (b, [])
  | some r => if op = 0x0403 then (b.take (16 + (b.length - 16) / 36 * 36), []) else (fitBytes r.lenMin b, b.drop r.lenMin)

/-- What a forwarded command has left to do at its boundary waits for the boundary that the record names (R213, R421): a law, a swap of coefficients,
a change of the period. -/
def Dev.nameBoundary (d : Dev) (oid boundary : Nat) : Dev :=
  if boundary = 0 then d
  else
    let laws := d.lpc.laws.map (fun l => if l.oid = oid then { l with atFrame := boundary } else l)
    let swaps := d.lpc.swaps.map (fun x => if x.oid = oid then { x with atFrame := boundary } else x)
    let d1 := { d with lpc := { d.lpc with laws := laws, swaps := swaps } }
    match d1.cmu.nextPeriod with
    | some (o, n, k) =>
      let at_ := d1.frameTick boundary
      if o = oid then
        let k1 := if at_ ≤ d1.cmu.start then k else d1.cmu.k + (at_ - d1.cmu.start) / d1.periodTicks
        { d1 with cmu := { d1.cmu with nextPeriod := some (o, n, k1) } }
      else d1
    | none => d1

/-- A forwarded command runs here as its own function has it (R421); FRESULT carries its final status. -/
def Dev.runForwarded (d : Dev) (f : Forwarded) : Dev :=
  let (p, img) := forwardParts f.opcode f.payload
  let oid := d.cpx.nextOid
  let packet : Packet := ⟨BitVec.ofNat 16 f.opcode, ⟨.udp 0 0, 0, 0, p.length, 0, 0, p, img⟩⟩
  let d1 := { d with cpx := { d.cpx with nextOid := oid + 1 }, twn := { d.twn with fwdOpen := d.twn.fwdOpen ++ [(oid, f.number)] } }
  if !forwardedOpcode f.opcode then d.sendFresult f.number St.badParam
  else match bodyOf f.opcode d1 ⟨oid, 0, packet, none⟩ with
    | (d2, .final st _) => ({ d2 with twn := { d2.twn with fwdOpen := d2.twn.fwdOpen.filter (fun x => x.1 ≠ oid) } }).sendFresult f.number st
    | (d2, .accepted _) => d2.nameBoundary oid f.boundary

/-- The bytes of a command whose image its records carry (R213): the payload, and the image as long as the payload says; 0 for a command that one
record holds. -/
def forwardTotal (op : Nat) (b : Bytes) : Nat :=
  if op = 0x0201 ∨ op = 0x0401 then (match opRow op with | some r => r.lenMin + rd b 8 4 | none => 0) else 0

/-- A forwarded command begins now, or waits for its boundary (R421). A law, a coefficient swap, a period change and a converter configuration are
prepared at once, for their boundary. -/
def Dev.startForwarded (d : Dev) (f : Forwarded) : Dev :=
  let d1 := { d with twn := { d.twn with fapplied := f.number } }
  if [0x0401, 0x0403, 0x0703, 0x0901].contains f.opcode || decide (f.boundary ≤ d.frame) then d1.runForwarded f
  else { d1 with twn := { d1.twn with forwarded := d1.twn.forwarded ++ [f] } }

/-- The next FORWARD record in order: the command begins once the last of its records is there. -/
def Dev.takeForward (d : Dev) (n op boundary : Nat) (piece : Bytes) : Dev :=
  let b := d.twn.fwdPart ++ piece
  let total := forwardTotal op b
  if b.length < total then { d with twn := { d.twn with fapplied := n, fwdPart := b } }
  else ({ d with twn := { d.twn with fwdPart := [] } }).startForwarded ⟨n, op, boundary, if total = 0 then b else b.take total⟩

/-- FORWARD_RECEIVED (R408, R421). -/
def execForwardReceived (r : WireRec) (s : State) : Host.Outcome State Fault Refusal :=
  commit s (
    let d := s.dev
    let b := r.bytes
    if !recOk b b.length 0x75 || decide (b.length < 32) || decide (1040 < b.length) || b.length % 8 ≠ 0 || !d.standby then d
    else
      let n := rd b 8 4
      if n = (d.twn.fapplied + 1) % 2 ^ 32 then d.takeForward n (rd b 12 2) (rd b 16 8) (b.drop 32)
      else if seqAbove n d.twn.fapplied then d.sendMack true
      else if d.twn.fwdOpen.any (fun x => x.2 = n) || d.twn.forwarded.any (fun f => f.number = n) then d
      else d.sendFresult n d.twn.fstatus)

/-- Forwarded commands whose boundary has come (R421, R430). -/
def Dev.dueForwarded (d : Dev) : Dev :=
  let l := d.twn.forwarded.filter (fun f => decide (f.boundary ≤ d.frame))
  l.foldl Dev.runForwarded { d with twn := { d.twn with forwarded := d.twn.forwarded.filter (fun f => !decide (f.boundary ≤ d.frame)) } }

/-- FRESULT_RECEIVED (R421): the final reply that waits for it goes out. -/
def execFresultReceived (r : WireRec) (s : State) : Host.Outcome State Fault Refusal :=
  commit s (
    let d := s.dev
    let b := r.bytes
    if !recOk b 16 0x76 then d
    else
      let n := rd b 8 4
      let st := rd b 12 1
      let l := d.twn.fwdSent.map (fun e => if e.number = n then { e with status := some st } else e)
      let out := d.twn.waitForward.filter (fun w => w.number = n)
      out.foldl (fun d w => d.reply (patchPeer (changing st) w.reply))
        { d with twn := { d.twn with fwdSent := l, waitForward := d.twn.waitForward.filter (fun w => w.number ≠ n) } })

/-- FORWARD_TIMEOUT (R421): 50 ms have passed without FRESULT, and the final reply goes out. -/
def execForwardTimeout (s : State) : Host.Outcome State Fault Refusal :=
  commit s (
    match s.dev.twn.waitForward with
    | [] => s.dev
    | w :: r =>
      let d := s.dev.advance w.due
      ({ d with twn := { d.twn with waitForward := r } }).reply (patchPeer false w.reply))

end Sys2Proof.Machine
end

