-- ==== Sys2Proof/Machine/Frame.lean ====
section
/-! DEFINITION. The frame strobe (R18 to R21, R85): what closes with the frame that ends, and what begins with the next. -/

namespace Sys2Proof.Machine

/-! ### The frame that ends -/

/-- What an engine has left of a frame, in cycles (R183): from the end of its last block, pauses not counted, to 1.85 µs; all of the
window where it has run no block. -/
def Dev.frameSlack (d : Dev) (e : Nat) : Nat :=
  let y := d.engTime e
  if y.blocks = 0 then 1100 else 1850 - (y.last - y.paused - d.lpc.strobeAt) / tickNs

/-- LPC.ENG_SLACK of an engine: the least of the last 400 frames (Table 7-14). -/
def Dev.noteSlack (d : Dev) (e : Nat) : Dev :=
  let l := (d.frameSlack e :: tget (fun _ => []) d.lpc.slacks e).take 400
  ({ d with lpc := { d.lpc with slacks := tput (fun _ => []) d.lpc.slacks e l } }).setFld (F.lpcEngSlack_slack e) (l.foldl min 1100)

/-- The frame that ends is closed: its trace record where no block is placed, the last code records (R20, R250), the engines' slack. -/
def Dev.closeFrame (d : Dev) : Dev :=
  let d1 := engines.foldl Dev.noteSlack (d.traceFrame.applyCodes)
  { d1 with lpc := { d1.lpc with eng := [] } }

/-! ### The PIC cooler -/

/-- The mean PIC temperature of the links whose `temp_stale` is 0, in °C (R177); with none the spec states no mean. -/
def Dev.meanTemp (d : Dev) : Frac × Dev :=
  let l := (List.range 32).filter (fun l => !d.flag (F.trnLinkStat_tempStale l))
  if l = [] then
    let (n, d1) := d.fresh 65536
    (Frac.mk2 (signed 16 n) 100, d1)
  else (Frac.mk2 ((l.map d.picTemp).foldl (· + ·) 0) (100 * l.length), d)

/-- Law 8 (R177): an evaluation on every frame that is a multiple of 400; its value goes to the queue of the named DAC channel, and is
counted where that drops it. Its block is reported under engine 0, which the spec leaves open (DESIGN CHOICE, log entry 133). -/
def Dev.cooler (d : Dev) : Dev :=
  if !d.flag F.lpcCoolerCfg_en ∨ d.frame % 400 ≠ 0 then d
  else
    let (t, d1) := d.meanTemp
    let set := Frac.mk2 (signed 16 (d.fld F.lpcCoolerCfg_setpoint)) 100
    let c := d1.coef 0x0FFF
    let law : LaneLaw := { err := Frac.sub set t, f := Frac.zero, g := Frac.one, kp := c 0, ki := c 1, closed := true, flags := 0, target := set }
    let x := d1.loop coolerLoop
    match oneLane law (d1.fld F.lpcPrecCfg_minBits) (extValue x.i) with
    | some o =>
      let y := epilogue (c 2) (c 3) (c 4) false false o x
      let d2 := ((d1.setLoop coolerLoop y).countLane x.flags y.flags).setFld F.lpcCoolerStat_code y.code
      let d3 := if bit y.flags 8 then d2.reportOvf 0 0xFFFF else d2
      let (ok, d4) := d3.pushDac (d.fld F.lpcCoolerCfg_dacCh) y.code
      if ok then d4 else d4.bumpSat F.lpcCoolerStat_dropped
    | none => d1

/-! ### The frame that begins -/

/-- The links at a strobe (R245, R259, R425). -/
def Dev.linkStrobe (d : Dev) : Dev :=
  ((List.range 32).foldl (fun d l => (d.closeLinkFrame l).checkLinkDrained l) d).switchStrobe

/-- The converters at a strobe (R354, R355); the power consumers take theirs at a period start. -/
def Dev.adcStrobe (d : Dev) : Dev :=
  let d1 := (List.range 6).foldl Dev.applyAdcCfg d
  let d2 := d1.checkConsumers [0, 1]
  if d2.now = d2.cmu.start then d2.checkConsumers [2, 3] else d2

/-- The twin manager at a strobe (R407, R413, R421): a heartbeat every fourth frame, a digest every second, the commands whose boundary
has come. -/
def Dev.twinStrobe (d : Dev) : Dev :=
  if !d.twinMode then d
  else
    let d1 := if d.frame % 4 = 0 then d.sendHeartbeat else d
    let d2 := if d1.flag F.twnStat_paired && decide (d1.twn.digestAt + tickS ≤ d1.now) then
        ({ d1 with twn := { d1.twn with digestAt := d1.now } }).sendDigest
      else d1
    d2.dueForwarded

/-- The instant of the next strobe: the first one at or after now that has not been yet. -/
def Dev.strobeInstant (d : Dev) : Nat := let t := d.strobeFrom d.now; if d.lpc.strobeAt < t then t else d.nextStrobe d.now

/-- The frame begins at this instant: its count, the ceilings due (R135), the links, bindings and setpoints (R190, R191), hand-backs (R21,
R147), the cooler, the converters, the twin link, throttling (R437), and commands that a fence no longer holds. -/
def Dev.openFrame (d : Dev) : Dev :=
  let d1 := { d with lpc := { d.lpc with strobeAt := d.now, codesDue := d.lpc.codesNext, codesNext := [] } }
  let d2 := ((d1.applyCeilings.linkStrobe.applyBinds.handBacks).cooler).adcStrobe
  (d2.twinStrobe.throttleStrobe).pump

/-- The frame strobe F(n), n the next pair frame count (R85, R411). -/
def Dev.frameStrobe (d : Dev) : Dev := ((d.closeFrame).advance d.strobeInstant).openFrame

/-- FRAME_STROBE (R18, R85): none while the device is held in reset. -/
def execFrameStrobe (s : State) : Host.Outcome State Fault Refusal :=
  commit s (if s.dev.mem.porst && !s.dev.mem.brownOut then s.dev.frameStrobe else s.dev)

end Sys2Proof.Machine
end

