-- ==== Sys2Proof/Machine/HostRows.lean ====
section
/-! DEFINITION. The host's commands as they arrive (Table 2-7): each packet goes through the intake of `Cpx.lean`, which runs the body that
its opcode names. -/

namespace Sys2Proof.Machine

/-- DEV_INFO (R488). -/
def execDevInfo (c : Cmd) (s : State) : Host.Outcome State Fault Refusal := commit s (s.dev.host 0x0101 c)

/-- DEV_RESTART (R482). -/
def execDevRestart (c : Cmd) (s : State) : Host.Outcome State Fault Refusal := commit s (s.dev.host 0x0102 c)

/-- EVENT_SUBSCRIBE (R483). -/
def execEventSubscribe (c : Cmd) (s : State) : Host.Outcome State Fault Refusal := commit s (s.dev.host 0x0103 c)

/-- REQ_CLOSE (R493). -/
def execReqClose (c : Cmd) (s : State) : Host.Outcome State Fault Refusal := commit s (s.dev.host 0x0104 c)

/-- ECON_CONFIG (R484). -/
def execEconConfig (c : Cmd) (s : State) : Host.Outcome State Fault Refusal := commit s (s.dev.host 0x0105 c)

/-- MAP_LOAD (R115). -/
def execMapLoad (c : Cmd) (s : State) : Host.Outcome State Fault Refusal := commit s (s.dev.host 0x0201 c)

/-- CIRCUIT_SET (R128). -/
def execCircuitSet (c : Cmd) (s : State) : Host.Outcome State Fault Refusal := commit s (s.dev.host 0x0202 c)

/-- CIRCUIT_CLEAR (R130). -/
def execCircuitClear (c : Cmd) (s : State) : Host.Outcome State Fault Refusal := commit s (s.dev.host 0x0203 c)

/-- CIRCUIT_QUERY (R120). -/
def execCircuitQuery (c : Cmd) (s : State) : Host.Outcome State Fault Refusal := commit s (s.dev.host 0x0204 c)

/-- PORT_CEILING (R135). -/
def execPortCeiling (c : Cmd) (s : State) : Host.Outcome State Fault Refusal := commit s (s.dev.host 0x0205 c)

/-- CIRCUIT_BATCH (R131). -/
def execCircuitBatch (c : Cmd) (s : State) : Host.Outcome State Fault Refusal := commit s (s.dev.host 0x0206 c)

/-- SCHEDULE_QUERY (R104). -/
def execScheduleQuery (c : Cmd) (s : State) : Host.Outcome State Fault Refusal := commit s (s.dev.host 0x0301 c)

/-- MOVE_CANCEL (R485). -/
def execMoveCancel (c : Cmd) (s : State) : Host.Outcome State Fault Refusal := commit s (s.dev.host 0x0302 c)

/-- SLUICE_STATUS (R485). -/
def execSluiceStatus (c : Cmd) (s : State) : Host.Outcome State Fault Refusal := commit s (s.dev.host 0x0303 c)

/-- LAW_LOAD (R210). -/
def execLawLoad (c : Cmd) (s : State) : Host.Outcome State Fault Refusal := commit s (s.dev.host 0x0401 c)

/-- LOOP_BIND (R190). -/
def execLoopBind (c : Cmd) (s : State) : Host.Outcome State Fault Refusal := commit s (s.dev.host 0x0402 c)

/-- COEF_SWAP (R192). -/
def execCoefSwap (c : Cmd) (s : State) : Host.Outcome State Fault Refusal := commit s (s.dev.host 0x0403 c)

/-- SETPOINT_SET (R191). -/
def execSetpointSet (c : Cmd) (s : State) : Host.Outcome State Fault Refusal := commit s (s.dev.host 0x0404 c)

/-- LOOP_QUERY (R192). -/
def execLoopQuery (c : Cmd) (s : State) : Host.Outcome State Fault Refusal := commit s (s.dev.host 0x0405 c)

/-- PLACE_PIN (R232). -/
def execPlacePin (c : Cmd) (s : State) : Host.Outcome State Fault Refusal := commit s (s.dev.host 0x0501 c)

/-- PLACE_UNPIN (R233). -/
def execPlaceUnpin (c : Cmd) (s : State) : Host.Outcome State Fault Refusal := commit s (s.dev.host 0x0502 c)

/-- PLACE_HINT (R234). -/
def execPlaceHint (c : Cmd) (s : State) : Host.Outcome State Fault Refusal := commit s (s.dev.host 0x0503 c)

/-- PLACE_STATS (R234). -/
def execPlaceStats (c : Cmd) (s : State) : Host.Outcome State Fault Refusal := commit s (s.dev.host 0x0504 c)

/-- TRAIN_REPORT (R92). -/
def execTrainReport (c : Cmd) (s : State) : Host.Outcome State Fault Refusal := commit s (s.dev.host 0x0601 c)

/-- TRAIN_DROP (R104). -/
def execTrainDrop (c : Cmd) (s : State) : Host.Outcome State Fault Refusal := commit s (s.dev.host 0x0602 c)

/-- WSENSE_CONFIG (R96). -/
def execWsenseConfig (c : Cmd) (s : State) : Host.Outcome State Fault Refusal := commit s (s.dev.host 0x0603 c)

/-- TIME_QUERY (R111). -/
def execTimeQuery (c : Cmd) (s : State) : Host.Outcome State Fault Refusal := commit s (s.dev.host 0x0604 c)

/-- SST_START (R301). -/
def execSstStart (c : Cmd) (s : State) : Host.Outcome State Fault Refusal := commit s (s.dev.host 0x0701 c)

/-- SST_STOP (R304). -/
def execSstStop (c : Cmd) (s : State) : Host.Outcome State Fault Refusal := commit s (s.dev.host 0x0702 c)

/-- PERIOD_SET (R305). -/
def execPeriodSet (c : Cmd) (s : State) : Host.Outcome State Fault Refusal := commit s (s.dev.host 0x0703 c)

/-- CELL_BYPASS (R306). -/
def execCellBypass (c : Cmd) (s : State) : Host.Outcome State Fault Refusal := commit s (s.dev.host 0x0704 c)

/-- NEUTRAL_SECTION (R309). -/
def execNeutralSection (c : Cmd) (s : State) : Host.Outcome State Fault Refusal := commit s (s.dev.host 0x0705 c)

/-- SST_QUERY (R317). -/
def execSstQuery (c : Cmd) (s : State) : Host.Outcome State Fault Refusal := commit s (s.dev.host 0x0706 c)

/-- LEG_CONFIG (R345). -/
def execLegConfig (c : Cmd) (s : State) : Host.Outcome State Fault Refusal := commit s (s.dev.host 0x0801 c)

/-- LEG_ENABLE (R342). -/
def execLegEnable (c : Cmd) (s : State) : Host.Outcome State Fault Refusal := commit s (s.dev.host 0x0802 c)

/-- LV_REFERENCE (R331). -/
def execLvReference (c : Cmd) (s : State) : Host.Outcome State Fault Refusal := commit s (s.dev.host 0x0803 c)

/-- LEG_QUERY (R345). -/
def execLegQuery (c : Cmd) (s : State) : Host.Outcome State Fault Refusal := commit s (s.dev.host 0x0804 c)

/-- ADC_CONFIG (R355). -/
def execAdcConfig (c : Cmd) (s : State) : Host.Outcome State Fault Refusal := commit s (s.dev.host 0x0901 c)

/-- ADC_INJECT (R356). -/
def execAdcInject (c : Cmd) (s : State) : Host.Outcome State Fault Refusal := commit s (s.dev.host 0x0902 c)

/-- DAC_CONFIG (R364). -/
def execDacConfig (c : Cmd) (s : State) : Host.Outcome State Fault Refusal := commit s (s.dev.host 0x0903 c)

/-- DAC_ENABLE (R362). -/
def execDacEnable (c : Cmd) (s : State) : Host.Outcome State Fault Refusal := commit s (s.dev.host 0x0904 c)

/-- CAL_RUN (R376). -/
def execCalRun (c : Cmd) (s : State) : Host.Outcome State Fault Refusal := commit s (s.dev.host 0x0A01 c)

/-- CAL_GAP (R381). -/
def execCalGap (c : Cmd) (s : State) : Host.Outcome State Fault Refusal := commit s (s.dev.host 0x0A02 c)

/-- CAL_BANK (R370). -/
def execCalBank (c : Cmd) (s : State) : Host.Outcome State Fault Refusal := commit s (s.dev.host 0x0A03 c)

/-- FAULT_MAP (R397). -/
def execFaultMap (c : Cmd) (s : State) : Host.Outcome State Fault Refusal := commit s (s.dev.host 0x0B01 c)

/-- FAULT_CLEAR (R398). -/
def execFaultClear (c : Cmd) (s : State) : Host.Outcome State Fault Refusal := commit s (s.dev.host 0x0B02 c)

/-- FAULT_O_RELEASE (R394). -/
def execFaultORelease (c : Cmd) (s : State) : Host.Outcome State Fault Refusal := commit s (s.dev.host 0x0B03 c)

/-- FAULT_QUERY (R401). -/
def execFaultQuery (c : Cmd) (s : State) : Host.Outcome State Fault Refusal := commit s (s.dev.host 0x0B04 c)

/-- TWIN_PAIR (R431). -/
def execTwinPair (c : Cmd) (s : State) : Host.Outcome State Fault Refusal := commit s (s.dev.host 0x0C01 c)

/-- TWIN_YIELD (R431). -/
def execTwinYield (c : Cmd) (s : State) : Host.Outcome State Fault Refusal := commit s (s.dev.host 0x0C02 c)

/-- TWIN_QUERY (R431). -/
def execTwinQuery (c : Cmd) (s : State) : Host.Outcome State Fault Refusal := commit s (s.dev.host 0x0C03 c)

/-- TRACE_ARM (R194). -/
def execTraceArm (c : Cmd) (s : State) : Host.Outcome State Fault Refusal := commit s (s.dev.host 0x0D01 c)

/-- HARVEST (R195). -/
def execHarvest (c : Cmd) (s : State) : Host.Outcome State Fault Refusal := commit s (s.dev.host 0x0D02 c)

/-- TRACE_STOP (R194). -/
def execTraceStop (c : Cmd) (s : State) : Host.Outcome State Fault Refusal := commit s (s.dev.host 0x0D03 c)

/-- REG_READ (R489). -/
def execRegRead (c : Cmd) (s : State) : Host.Outcome State Fault Refusal := commit s (s.dev.host 0x0E01 c)

/-- REG_WRITE (R58). -/
def execRegWrite (c : Cmd) (s : State) : Host.Outcome State Fault Refusal := commit s (s.dev.host 0x0E02 c)

/-- ECHO (R490). -/
def execEcho (c : Cmd) (s : State) : Host.Outcome State Fault Refusal := commit s (s.dev.host 0x0E03 c)

/-- MEM_STATUS (R452). -/
def execMemStatus (c : Cmd) (s : State) : Host.Outcome State Fault Refusal := commit s (s.dev.host 0x0E04 c)

/-- CFG_WRITE (R59). -/
def execCfgWrite (c : Cmd) (s : State) : Host.Outcome State Fault Refusal := commit s (s.dev.host 0x0E05 c)

/-- SESSION_OPEN (R491). -/
def execSessionOpen (c : Cmd) (s : State) : Host.Outcome State Fault Refusal := commit s (s.dev.host 0x0F01 c)

/-- SESSION_CLOSE (R492). -/
def execSessionClose (c : Cmd) (s : State) : Host.Outcome State Fault Refusal := commit s (s.dev.host 0x0F02 c)

/-- IMAGE_UPDATE (R73). -/
def execImageUpdate (c : Cmd) (s : State) : Host.Outcome State Fault Refusal := commit s (s.dev.host 0x0F03 c)

/-- ATTEST (R75). -/
def execAttest (c : Cmd) (s : State) : Host.Outcome State Fault Refusal := commit s (s.dev.host 0x0F04 c)

end Sys2Proof.Machine
end

