-- ==== Sys2Proof/Machine/Dispatch.lean ====
section
/-! DEFINITION. One arm per command: its meaning, one direct call each. -/

namespace Sys2Proof.Machine

/-- The effect of a command on everything but the queue. -/
def exec (i : Instr) (s : State) : Host.Outcome State Fault Refusal :=
  match i with
  | .powerUp => Sys2Proof.Machine.execPowerUp s
  | .coldStart unit => Sys2Proof.Machine.execColdStart unit s
  | .coldReset => Sys2Proof.Machine.execColdReset s
  | .bootVerifyDone staged a b => Sys2Proof.Machine.execBootVerifyDone staged a b s
  | .functionReady bit => Sys2Proof.Machine.execFunctionReady bit s
  | .brownOut => Sys2Proof.Machine.execBrownOut s
  | .refclkLoss => Sys2Proof.Machine.execRefclkLoss s
  | .supplyExcursion rail mv => Sys2Proof.Machine.execSupplyExcursion rail mv s
  | .supplyRecover rail mv => Sys2Proof.Machine.execSupplyRecover rail mv s
  | .autoRestart => Sys2Proof.Machine.execAutoRestart s
  | .sqTailDoorbell n tail slots images => Sys2Proof.Machine.execSqTailDoorbell n tail slots images s
  | .cqHeadDoorbell n v => Sys2Proof.Machine.execCqHeadDoorbell n v s
  | .eqHeadDoorbell v => Sys2Proof.Machine.execEqHeadDoorbell v s
  | .ringConfigWrite off v => Sys2Proof.Machine.execRingConfigWrite off v s
  | .ringEnable n v => Sys2Proof.Machine.execRingEnable n v s
  | .ringDisable n v => Sys2Proof.Machine.execRingDisable n v s
  | .ringDisableEffect n => Sys2Proof.Machine.execRingDisableEffect n s
  | .eventRingEnable v => Sys2Proof.Machine.execEventRingEnable v s
  | .ringDmaError n => Sys2Proof.Machine.execRingDmaError n s
  | .udpDatagram addr port whole bytes image => Sys2Proof.Machine.execUdpDatagram addr port whole bytes image s
  | .cqStallTimeout n => Sys2Proof.Machine.execCqStallTimeout n s
  | .msixCoalesceExpiry v => Sys2Proof.Machine.execMsixCoalesceExpiry v s
  | .bar0Write off v => Sys2Proof.Machine.execBar0Write off v s
  | .devInfo c => Sys2Proof.Machine.execDevInfo c s
  | .devRestart c => Sys2Proof.Machine.execDevRestart c s
  | .eventSubscribe c => Sys2Proof.Machine.execEventSubscribe c s
  | .reqClose c => Sys2Proof.Machine.execReqClose c s
  | .econConfig c => Sys2Proof.Machine.execEconConfig c s
  | .mapLoad c => Sys2Proof.Machine.execMapLoad c s
  | .mapLoadComplete => Sys2Proof.Machine.execMapLoadComplete s
  | .circuitSet c => Sys2Proof.Machine.execCircuitSet c s
  | .circuitClear c => Sys2Proof.Machine.execCircuitClear c s
  | .circuitQuery c => Sys2Proof.Machine.execCircuitQuery c s
  | .portCeiling c => Sys2Proof.Machine.execPortCeiling c s
  | .circuitBatch c => Sys2Proof.Machine.execCircuitBatch c s
  | .scheduleQuery c => Sys2Proof.Machine.execScheduleQuery c s
  | .moveCancel c => Sys2Proof.Machine.execMoveCancel c s
  | .sluiceStatus c => Sys2Proof.Machine.execSluiceStatus c s
  | .lawLoad c => Sys2Proof.Machine.execLawLoad c s
  | .lawSwitch slot => Sys2Proof.Machine.execLawSwitch slot s
  | .loopBind c => Sys2Proof.Machine.execLoopBind c s
  | .coefSwap c => Sys2Proof.Machine.execCoefSwap c s
  | .coefSwapBoundary => Sys2Proof.Machine.execCoefSwapBoundary s
  | .setpointSet c => Sys2Proof.Machine.execSetpointSet c s
  | .loopQuery c => Sys2Proof.Machine.execLoopQuery c s
  | .placePin c => Sys2Proof.Machine.execPlacePin c s
  | .placeUnpin c => Sys2Proof.Machine.execPlaceUnpin c s
  | .placeHint c => Sys2Proof.Machine.execPlaceHint c s
  | .placeStats c => Sys2Proof.Machine.execPlaceStats c s
  | .trainReport c => Sys2Proof.Machine.execTrainReport c s
  | .trainDrop c => Sys2Proof.Machine.execTrainDrop c s
  | .wsenseConfig c => Sys2Proof.Machine.execWsenseConfig c s
  | .timeQuery c => Sys2Proof.Machine.execTimeQuery c s
  | .sstStart c => Sys2Proof.Machine.execSstStart c s
  | .sstStop c => Sys2Proof.Machine.execSstStop c s
  | .periodSet c => Sys2Proof.Machine.execPeriodSet c s
  | .cellBypass c => Sys2Proof.Machine.execCellBypass c s
  | .neutralSection c => Sys2Proof.Machine.execNeutralSection c s
  | .sstQuery c => Sys2Proof.Machine.execSstQuery c s
  | .legConfig c => Sys2Proof.Machine.execLegConfig c s
  | .legEnable c => Sys2Proof.Machine.execLegEnable c s
  | .lvReference c => Sys2Proof.Machine.execLvReference c s
  | .legQuery c => Sys2Proof.Machine.execLegQuery c s
  | .adcConfig c => Sys2Proof.Machine.execAdcConfig c s
  | .adcInject c => Sys2Proof.Machine.execAdcInject c s
  | .dacConfig c => Sys2Proof.Machine.execDacConfig c s
  | .dacEnable c => Sys2Proof.Machine.execDacEnable c s
  | .calRun c => Sys2Proof.Machine.execCalRun c s
  | .calGap c => Sys2Proof.Machine.execCalGap c s
  | .calBank c => Sys2Proof.Machine.execCalBank c s
  | .faultMap c => Sys2Proof.Machine.execFaultMap c s
  | .faultClear c => Sys2Proof.Machine.execFaultClear c s
  | .faultORelease c => Sys2Proof.Machine.execFaultORelease c s
  | .faultQuery c => Sys2Proof.Machine.execFaultQuery c s
  | .twinPair c => Sys2Proof.Machine.execTwinPair c s
  | .twinYield c => Sys2Proof.Machine.execTwinYield c s
  | .twinQuery c => Sys2Proof.Machine.execTwinQuery c s
  | .traceArm c => Sys2Proof.Machine.execTraceArm c s
  | .traceTrigger => Sys2Proof.Machine.execTraceTrigger s
  | .traceCaptureComplete => Sys2Proof.Machine.execTraceCaptureComplete s
  | .harvest c => Sys2Proof.Machine.execHarvest c s
  | .harvestComplete => Sys2Proof.Machine.execHarvestComplete s
  | .traceStop c => Sys2Proof.Machine.execTraceStop c s
  | .regRead c => Sys2Proof.Machine.execRegRead c s
  | .regWrite c => Sys2Proof.Machine.execRegWrite c s
  | .echo c => Sys2Proof.Machine.execEcho c s
  | .memStatus c => Sys2Proof.Machine.execMemStatus c s
  | .cfgWrite c => Sys2Proof.Machine.execCfgWrite c s
  | .sessionOpen c => Sys2Proof.Machine.execSessionOpen c s
  | .sessionClose c => Sys2Proof.Machine.execSessionClose c s
  | .imageUpdate c => Sys2Proof.Machine.execImageUpdate c s
  | .attest c => Sys2Proof.Machine.execAttest c s
  | .engineDisable e => Sys2Proof.Machine.execEngineDisable e s
  | .engineEnable e => Sys2Proof.Machine.execEngineEnable e s
  | .engineRestart e good => Sys2Proof.Machine.execEngineRestart e good s
  | .engineParityError e lane => Sys2Proof.Machine.execEngineParityError e lane s
  | .trnDisable => Sys2Proof.Machine.execTrnDisable s
  | .trnEnable => Sys2Proof.Machine.execTrnEnable s
  | .rakeAdmissionSet en => Sys2Proof.Machine.execRakeAdmissionSet en s
  | .linkDisable l => Sys2Proof.Machine.execLinkDisable l s
  | .linkEnable l => Sys2Proof.Machine.execLinkEnable l s
  | .chainDisable ch => Sys2Proof.Machine.execChainDisable ch s
  | .chainEnable ch => Sys2Proof.Machine.execChainEnable ch s
  | .adcPairDisable p => Sys2Proof.Machine.execAdcPairDisable p s
  | .adcPairEnable p => Sys2Proof.Machine.execAdcPairEnable p s
  | .pwmDisable => Sys2Proof.Machine.execPwmDisable s
  | .pwmEnable => Sys2Proof.Machine.execPwmEnable s
  | .calDisable => Sys2Proof.Machine.execCalDisable s
  | .calEnable => Sys2Proof.Machine.execCalEnable s
  | .regroupDisable => Sys2Proof.Machine.execRegroupDisable s
  | .evictDisable => Sys2Proof.Machine.execEvictDisable s
  | .throttleDisable => Sys2Proof.Machine.execThrottleDisable s
  | .pwmCommit v => Sys2Proof.Machine.execPwmCommit v s
  | .pwmStageWrite off v => Sys2Proof.Machine.execPwmStageWrite off v s
  | .dacQueuePush ch v => Sys2Proof.Machine.execDacQueuePush ch v s
  | .catCfgWrite v => Sys2Proof.Machine.execCatCfgWrite v s
  | .powerReserveClear => Sys2Proof.Machine.execPowerReserveClear s
  | .frameStrobe => Sys2Proof.Machine.execFrameStrobe s
  | .sampleCutoff => Sys2Proof.Machine.execSampleCutoff s
  | .blockEvaluate e b => Sys2Proof.Machine.execBlockEvaluate e b s
  | .ptpSync m => Sys2Proof.Machine.execPtpSync m s
  | .ptpHoldoverEnter => Sys2Proof.Machine.execPtpHoldoverEnter s
  | .ptpHoldoverExpiry => Sys2Proof.Machine.execPtpHoldoverExpiry s
  | .angleLock angle freq amp => Sys2Proof.Machine.execAngleLock angle freq amp s
  | .catenaryLoss amp => Sys2Proof.Machine.execCatenaryLoss amp s
  | .lossOfLock freq => Sys2Proof.Machine.execLossOfLock freq s
  | .flywheelExpiry => Sys2Proof.Machine.execFlywheelExpiry s
  | .economyExit => Sys2Proof.Machine.execEconomyExit s
  | .markFire entry => Sys2Proof.Machine.execMarkFire entry s
  | .angleMarkFire entry => Sys2Proof.Machine.execAngleMarkFire entry s
  | .trainConfidenceFall t => Sys2Proof.Machine.execTrainConfidenceFall t s
  | .wheelPulse k => Sys2Proof.Machine.execWheelPulse k s
  | .ceilingTrip p => Sys2Proof.Machine.execCeilingTrip p s
  | .sluiceGrant => Sys2Proof.Machine.execSluiceGrant s
  | .sluiceStart sl => Sys2Proof.Machine.execSluiceStart sl s
  | .segmentEnd e => Sys2Proof.Machine.execSegmentEnd e s
  | .sluiceRearmEnd sl => Sys2Proof.Machine.execSluiceRearmEnd sl s
  | .stallAbandon sl => Sys2Proof.Machine.execStallAbandon sl s
  | .segmentWrite w => Sys2Proof.Machine.execSegmentWrite w s
  | .measurementCutoff => Sys2Proof.Machine.execMeasurementCutoff s
  | .powerPublish => Sys2Proof.Machine.execPowerPublish s
  | .dutyWrite => Sys2Proof.Machine.execDutyWrite s
  | .periodStart => Sys2Proof.Machine.execPeriodStart s
  | .periodTransmit => Sys2Proof.Machine.execPeriodTransmit s
  | .timeBroadcast => Sys2Proof.Machine.execTimeBroadcast s
  | .delayRemeasure => Sys2Proof.Machine.execDelayRemeasure s
  | .sstStartTimeout => Sys2Proof.Machine.execSstStartTimeout s
  | .coastExpiry => Sys2Proof.Machine.execCoastExpiry s
  | .brkTripRelease => Sys2Proof.Machine.execBrkTripRelease s
  | .periodWatchdog => Sys2Proof.Machine.execPeriodWatchdog s
  | .measReceived ch port r => Sys2Proof.Machine.execMeasReceived ch port r s
  | .pongReceived ch port r rt => Sys2Proof.Machine.execPongReceived ch port r rt s
  | .ackReceived ch port r => Sys2Proof.Machine.execAckReceived ch port r s
  | .cmdTimeout n => Sys2Proof.Machine.execCmdTimeout n s
  | .cellLost n => Sys2Proof.Machine.execCellLost n s
  | .chainLost ch => Sys2Proof.Machine.execChainLost ch s
  | .chainTrainStep ch => Sys2Proof.Machine.execChainTrainStep ch s
  | .chainRetryTimer ch => Sys2Proof.Machine.execChainRetryTimer ch s
  | .pwmBoundary leg => Sys2Proof.Machine.execPwmBoundary leg s
  | .refreshPulse leg => Sys2Proof.Machine.execRefreshPulse leg s
  | .legPrechargeEnd leg => Sys2Proof.Machine.execLegPrechargeEnd leg s
  | .pwmTriggerPulse leg b => Sys2Proof.Machine.execPwmTriggerPulse leg b s
  | .mainComparatorTrip leg => Sys2Proof.Machine.execMainComparatorTrip leg s
  | .hardComparatorTrip leg => Sys2Proof.Machine.execHardComparatorTrip leg s
  | .shootThroughBlock leg => Sys2Proof.Machine.execShootThroughBlock leg s
  | .tripInAssert k level => Sys2Proof.Machine.execTripInAssert k level s
  | .drvEnFall => Sys2Proof.Machine.execDrvEnFall s
  | .drvEnRise main hard => Sys2Proof.Machine.execDrvEnRise main hard s
  | .vgdUndervoltage => Sys2Proof.Machine.execVgdUndervoltage s
  | .bootstrapUndervoltage leg low => Sys2Proof.Machine.execBootstrapUndervoltage leg low s
  | .adcSlotFire p slot => Sys2Proof.Machine.execAdcSlotFire p slot s
  | .adcConversionDone p b code => Sys2Proof.Machine.execAdcConversionDone p b code s
  | .adcRefSettled p => Sys2Proof.Machine.execAdcRefSettled p s
  | .adcInjectTimeout p => Sys2Proof.Machine.execAdcInjectTimeout p s
  | .dacSampleTick ch => Sys2Proof.Machine.execDacSampleTick ch s
  | .dacEnableSettle ch => Sys2Proof.Machine.execDacEnableSettle ch s
  | .dacDrainDone ch => Sys2Proof.Machine.execDacDrainDone ch s
  | .dacSpanRelaySettle ch => Sys2Proof.Machine.execDacSpanRelaySettle ch s
  | .rakeComplete e r => Sys2Proof.Machine.execRakeComplete e r s
  | .liveStepComplete r => Sys2Proof.Machine.execLiveStepComplete r s
  | .gapOpen k => Sys2Proof.Machine.execGapOpen k s
  | .detectedGapOpen circ => Sys2Proof.Machine.execDetectedGapOpen circ s
  | .calCommit stored => Sys2Proof.Machine.execCalCommit stored s
  | .calJobComplete good stored recs => Sys2Proof.Machine.execCalJobComplete good stored recs s
  | .bankSwitch => Sys2Proof.Machine.execBankSwitch s
  | .nvHourlyCheck okA okB => Sys2Proof.Machine.execNvHourlyCheck okA okB s
  | .placementReview => Sys2Proof.Machine.execPlacementReview s
  | .migrationStep => Sys2Proof.Machine.execMigrationStep s
  | .loopRestore el => Sys2Proof.Machine.execLoopRestore el s
  | .samplesReceived l r => Sys2Proof.Machine.execSamplesReceived l r s
  | .fastupReceived l r => Sys2Proof.Machine.execFastupReceived l r s
  | .respReceived l r rt => Sys2Proof.Machine.execRespReceived l r rt s
  | .ctrlTimeout l => Sys2Proof.Machine.execCtrlTimeout l s
  | .linkLost l why => Sys2Proof.Machine.execLinkLost l why s
  | .linkLate l => Sys2Proof.Machine.execLinkLate l s
  | .linkTrainStep l => Sys2Proof.Machine.execLinkTrainStep l s
  | .linkRetryTimer l => Sys2Proof.Machine.execLinkRetryTimer l s
  | .faultSourceAssert src => Sys2Proof.Machine.execFaultSourceAssert src s
  | .faultOHoldExpiry => Sys2Proof.Machine.execFaultOHoldExpiry s
  | .fltSelfCheckFail kind => Sys2Proof.Machine.execFltSelfCheckFail kind s
  | .sensorReading k v => Sys2Proof.Machine.execSensorReading k v s
  | .throttleFall => Sys2Proof.Machine.execThrottleFall s
  | .sramUncorrectable reader arg addr => Sys2Proof.Machine.execSramUncorrectable reader arg addr s
  | .ddrUncorrectable ch reader arg addr => Sys2Proof.Machine.execDdrUncorrectable ch reader arg addr s
  | .heartbeatReceived r => Sys2Proof.Machine.execHeartbeatReceived r s
  | .heartbeatMissed => Sys2Proof.Machine.execHeartbeatMissed s
  | .twinLinkLost lane => Sys2Proof.Machine.execTwinLinkLost lane s
  | .mirrorReceived r => Sys2Proof.Machine.execMirrorReceived r s
  | .mackReceived r => Sys2Proof.Machine.execMackReceived r s
  | .mirrorTimeout => Sys2Proof.Machine.execMirrorTimeout s
  | .forwardReceived r => Sys2Proof.Machine.execForwardReceived r s
  | .fresultReceived r => Sys2Proof.Machine.execFresultReceived r s
  | .forwardTimeout => Sys2Proof.Machine.execForwardTimeout s
  | .yieldReceived r => Sys2Proof.Machine.execYieldReceived r s
  | .digestReceived r => Sys2Proof.Machine.execDigestReceived r s
  | .pairOffsetCheck drift => Sys2Proof.Machine.execPairOffsetCheck drift s
  | .peerClaimConflict => Sys2Proof.Machine.execPeerClaimConflict s
  | .soloWaitExpiry => Sys2Proof.Machine.execSoloWaitExpiry s
  | .resyncStep => Sys2Proof.Machine.execResyncStep s
  | .pcieLinkDown => Sys2Proof.Machine.execPcieLinkDown s
  | .mgmtLinkDown => Sys2Proof.Machine.execMgmtLinkDown s
  | .refclkRestore => Sys2Proof.Machine.execRefclkRestore s
  | .peerClaimInChange level => Sys2Proof.Machine.execPeerClaimInChange level s
  | .cellLinkSyncLoss ch port => Sys2Proof.Machine.execCellLinkSyncLoss ch port s
  | .commandWindow => Sys2Proof.Machine.execCommandWindow s
  | .declaredGapClose k => Sys2Proof.Machine.execDeclaredGapClose k s
  | .mirrorGapTimeout => Sys2Proof.Machine.execMirrorGapTimeout s
  | .imageUpdateComplete img => Sys2Proof.Machine.execImageUpdateComplete img s
  | .brownOutRecovery => Sys2Proof.Machine.execBrownOutRecovery s
  | .ddrTrainingFailed ch => Sys2Proof.Machine.execDdrTrainingFailed ch s
  | .eccCorrectedError ch addr => Sys2Proof.Machine.execEccCorrectedError ch addr s
  | .jtagInstruction ir => Sys2Proof.Machine.execJtagInstruction ir s

end Sys2Proof.Machine
end

