-- ==== Sys2Proof/Machine/Step.lean ====
section
/-! DEFINITION. One step of the block: the command at the front of the queue. -/

namespace Sys2Proof.Machine

/-- One timebase count passes (R15, R85) while the device is out of reset and its REFCLK runs; nothing else happens. -/
def Dev.tick (d : Dev) : Dev :=
  if d.mem.porst && !d.mem.brownOut && !d.mem.refLost then { d with now := d.now + tickCount } else d

/-- The block takes the command that has waited longest and does what it says, with the rest of the queue. On an empty queue the
timebase counts once. -/
def step (s : State) : Host.Outcome State Fault Refusal :=
  match s.pending with
  | [] => .next { s with dev := s.dev.tick }
  | c :: rest => exec c { s with pending := rest }

/-- A command put at the front of the queue. -/
def State.withFront (s : State) (c : Instr) : State := { s with pending := c :: s.pending }

/-- The state with the command that a word spells at the front of its queue; unchanged where the word spells none. -/
def State.withFetchWord (s : State) (nbits w : Nat) : State :=
  match decodeTableWord nbits w with
  | some c => s.withFront c
  | none => s

end Sys2Proof.Machine
end

