-- ==== Sys2Proof/WellFormed.lean ====
section
/-! DEFINITION. Which commands are well formed: every instance, number and record of a command fits the block's own ranges. -/

namespace Sys2Proof

/-- A transport of the block: one of eight ring pairs (R31), or an IPv4 source address and port (R36). -/
def Via.wf : Via → Bool
  | .ring n => decide (n < 8)
  | .udp addr port => decide (addr < 2 ^ 32) && decide (port < 2 ^ 16)

/-- A packet fits its `length` field and the longest payload (Table 2-1, R39). -/
def Cmd.wf (c : Cmd) : Bool := c.via.wf && decide (c.length < 2 ^ 16) && decide (c.payload.length ≤ 1008)

/-- A record fits the longest record of the links (Table 17-2). -/
def WireRec.wf (r : WireRec) : Bool := decide (r.bytes.length ≤ 1040) && decide (r.bytes.length % 4 = 0)

/-- What is written to the shaping store: a part of a shape of one of 16 brackets (R138, R367), or codes of 16 bits with a repeat and a jump
of Table 6-1. -/
def SegSource.wf : SegSource → Bool
  | .library el bracket _ part => decide (el < 6144) && decide (bracket < 16) && decide (part < 4)
  | .sweep el _ rep jump codes => decide (el < 6144) && decide (rep < 2 ^ 8) && decide (jump < 2 ^ 15) && codes.all (fun x => decide (x < 2 ^ 16))
  | .step el => decide (el < 6144)

/-- A write to the shaping store fits the fields of Table 6-1. -/
def SegWrite.wf (w : SegWrite) : Bool :=
  decide (w.desc < 2 ^ 15) && decide (w.base < 2 ^ 18) && decide (w.next < 2 ^ 15) && w.source.wf

/-- A measured result fits an element's entries (Table 15-3). -/
def RakeResult.wf (r : RakeResult) : Bool :=
  decide (r.element < 6144) && decide (r.entry.length ≤ 128) && decide (r.rise.length ≤ 8) && decide (r.fall.length ≤ 8)

/-- A record of the NV store fits its header (Table 15-2). -/
def NvRec.wf (r : NvRec) : Bool := decide (r.rtype < 2 ^ 8) && decide (r.rsub < 2 ^ 32)

/-- A boot image's numbers fit its header; every owner slot, offset and word of its configuration section fits (R59, R70). -/
def SlotImage.wf (i : SlotImage) : Bool :=
  decide (i.version < 2 ^ 32) && decide (i.rollback < 2 ^ 8) && decide (i.digest < 2 ^ 384) && i.cfg.all (fun x => decide (x.1 < 2 ^ 22)) &&
    i.sets.all (fun x => decide (x.1 < 0x1100)) && i.ucode.all (fun x => decide (x.1 < 4096)) && i.dir.all (fun x => decide (x.1 < 64))

/-- A ring register that RING_CONFIG_WRITE names (R31, Tables 2-15 to 2-18). -/
def ringConfigOffset (off : Nat) : Bool :=
  off % 4 = 0 && ((decide (0x100 ≤ off) && decide (off < 0x300) && [0, 1, 2, 5, 6, 7, 10].contains ((off - 0x100) % 0x40 / 4)) ||
    (decide (0x300 ≤ off) && decide (off ≤ 0x308)))

/-- A staging register of a leg (R326). -/
def stagingOffset (off : Nat) : Bool := (List.range 8).any (fun l => off = 0xC0114 + l * 0x40 || off = 0xC0118 + l * 0x40)

/-- A command is well formed. -/
def Instr.wf : Instr → Bool
  | .powerUp => true
  | .coldStart _ => true
  | .coldReset => true
  | .bootVerifyDone staged a b => decide (staged < 2) && a.wf && b.wf
  | .functionReady bit => decide (bit < 64)
  | .brownOut => true
  | .refclkLoss => true
  | .supplyExcursion rail mv => decide (rail < 12) && decide (mv < 32768)
  | .supplyRecover rail mv => decide (rail < 12) && decide (mv < 32768)
  | .autoRestart => true
  | .sqTailDoorbell n _ _ _ => decide (n < 8)
  | .cqHeadDoorbell n _ => decide (n < 8)
  | .eqHeadDoorbell _ => true
  | .ringConfigWrite off _ => ringConfigOffset off
  | .ringEnable n _ => decide (n < 8)
  | .ringDisable n _ => decide (n < 8)
  | .ringDisableEffect n => decide (n < 8)
  | .eventRingEnable _ => true
  | .ringDmaError n => decide (n < 8)
  | .udpDatagram addr port _ _ _ => (Via.udp addr port).wf
  | .cqStallTimeout n => decide (n < 8)
  | .msixCoalesceExpiry v => decide (v < 8)
  | .bar0Write off _ => decide (off < 2 ^ 22) && decide (off % 4 = 0)
  | .devInfo c => c.wf
  | .devRestart c => c.wf
  | .eventSubscribe c => c.wf
  | .reqClose c => c.wf
  | .econConfig c => c.wf
  | .mapLoad c => c.wf
  | .mapLoadComplete => true
  | .circuitSet c => c.wf
  | .circuitClear c => c.wf
  | .circuitQuery c => c.wf
  | .portCeiling c => c.wf
  | .circuitBatch c => c.wf
  | .scheduleQuery c => c.wf
  | .moveCancel c => c.wf
  | .sluiceStatus c => c.wf
  | .lawLoad c => c.wf
  | .lawSwitch slot => decide (48 ≤ slot) && decide (slot < 64)
  | .loopBind c => c.wf
  | .coefSwap c => c.wf
  | .coefSwapBoundary => true
  | .setpointSet c => c.wf
  | .loopQuery c => c.wf
  | .placePin c => c.wf
  | .placeUnpin c => c.wf
  | .placeHint c => c.wf
  | .placeStats c => c.wf
  | .trainReport c => c.wf
  | .trainDrop c => c.wf
  | .wsenseConfig c => c.wf
  | .timeQuery c => c.wf
  | .sstStart c => c.wf
  | .sstStop c => c.wf
  | .periodSet c => c.wf
  | .cellBypass c => c.wf
  | .neutralSection c => c.wf
  | .sstQuery c => c.wf
  | .legConfig c => c.wf
  | .legEnable c => c.wf
  | .lvReference c => c.wf
  | .legQuery c => c.wf
  | .adcConfig c => c.wf
  | .adcInject c => c.wf
  | .dacConfig c => c.wf
  | .dacEnable c => c.wf
  | .calRun c => c.wf
  | .calGap c => c.wf
  | .calBank c => c.wf
  | .faultMap c => c.wf
  | .faultClear c => c.wf
  | .faultORelease c => c.wf
  | .faultQuery c => c.wf
  | .twinPair c => c.wf
  | .twinYield c => c.wf
  | .twinQuery c => c.wf
  | .traceArm c => c.wf
  | .traceTrigger => true
  | .traceCaptureComplete => true
  | .harvest c => c.wf
  | .harvestComplete => true
  | .traceStop c => c.wf
  | .regRead c => c.wf
  | .regWrite c => c.wf
  | .echo c => c.wf
  | .memStatus c => c.wf
  | .cfgWrite c => c.wf
  | .sessionOpen c => c.wf
  | .sessionClose c => c.wf
  | .imageUpdate c => c.wf
  | .attest c => c.wf
  | .engineDisable e => decide (e < 16)
  | .engineEnable e => decide (e < 16)
  | .engineRestart e _ => decide (e < 16)
  | .engineParityError e _ => decide (e < 16)
  | .trnDisable => true
  | .trnEnable => true
  | .rakeAdmissionSet _ => true
  | .linkDisable l => decide (l < 32)
  | .linkEnable l => decide (l < 32)
  | .chainDisable ch => decide (ch < 8)
  | .chainEnable ch => decide (ch < 8)
  | .adcPairDisable p => decide (p < 6)
  | .adcPairEnable p => decide (p < 6)
  | .pwmDisable => true
  | .pwmEnable => true
  | .calDisable => true
  | .calEnable => true
  | .regroupDisable => true
  | .evictDisable => true
  | .throttleDisable => true
  | .pwmCommit _ => true
  | .pwmStageWrite off _ => stagingOffset off
  | .dacQueuePush ch _ => decide (ch < 16)
  | .catCfgWrite _ => true
  | .powerReserveClear => true
  | .frameStrobe => true
  | .sampleCutoff => true
  | .blockEvaluate e b => decide (e < 16) && decide (b < 68)
  | .ptpSync _ => true
  | .ptpHoldoverEnter => true
  | .ptpHoldoverExpiry => true
  | .angleLock angle freq amp => decide (angle < 2 ^ 32) && decide (freq < 2 ^ 32) && decide (amp < 2 ^ 32)
  | .catenaryLoss amp => decide (amp < 2 ^ 32)
  | .lossOfLock freq => decide (freq < 2 ^ 32)
  | .flywheelExpiry => true
  | .economyExit => true
  | .markFire entry => decide (entry < 4096)
  | .angleMarkFire entry => decide (entry < 4096)
  | .trainConfidenceFall t => decide (t < 64)
  | .wheelPulse i => decide (i < 8)
  | .ceilingTrip p => decide (p < 512)
  | .sluiceGrant => true
  | .sluiceStart sl => decide (sl < 64)
  | .segmentEnd e => decide (e.sluice < 64)
  | .sluiceRearmEnd sl => decide (sl < 64)
  | .stallAbandon sl => decide (sl < 64)
  | .segmentWrite w => w.wf
  | .measurementCutoff => true
  | .powerPublish => true
  | .dutyWrite => true
  | .periodStart => true
  | .periodTransmit => true
  | .timeBroadcast => true
  | .delayRemeasure => true
  | .sstStartTimeout => true
  | .coastExpiry => true
  | .brkTripRelease => true
  | .periodWatchdog => true
  | .measReceived ch port r => decide (ch < 8) && decide (port < 8) && r.wf
  | .pongReceived ch port r _ => decide (ch < 8) && decide (port < 8) && r.wf
  | .ackReceived ch port r => decide (ch < 8) && decide (port < 8) && r.wf
  | .cmdTimeout n => decide (n < 48)
  | .cellLost n => decide (n < 48)
  | .chainLost ch => decide (ch < 8)
  | .chainTrainStep ch => decide (ch < 8)
  | .chainRetryTimer ch => decide (ch < 8)
  | .pwmBoundary leg => decide (leg < 8)
  | .refreshPulse leg => decide (leg < 8)
  | .legPrechargeEnd leg => decide (leg < 8)
  | .pwmTriggerPulse leg _ => decide (leg < 8)
  | .mainComparatorTrip leg => decide (leg < 8)
  | .hardComparatorTrip leg => decide (leg < 8)
  | .shootThroughBlock leg => decide (leg < 8)
  | .tripInAssert i _ => decide (i < 4)
  | .drvEnFall => true
  | .drvEnRise main hard => decide (main < 2 ^ 8) && decide (hard < 2 ^ 8)
  | .vgdUndervoltage => true
  | .bootstrapUndervoltage leg _ => decide (leg < 8)
  | .adcSlotFire p slot => decide (p < 6) && decide (slot < 8)
  | .adcConversionDone p _ code => decide (p < 6) && decide (code < 2 ^ 16)
  | .adcRefSettled p => decide (p < 6)
  | .adcInjectTimeout p => decide (p < 6)
  | .dacSampleTick ch => decide (ch < 16)
  | .dacEnableSettle ch => decide (ch < 16)
  | .dacDrainDone ch => decide (ch < 16)
  | .dacSpanRelaySettle ch => decide (ch < 16)
  | .rakeComplete e r => decide (e.sluice < 64) && r.wf && (match e.jump with | some j => decide (j < 64) | none => true)
  | .liveStepComplete r => r.wf
  | .gapOpen _ => true
  | .detectedGapOpen circ => decide (circ < 1024)
  | .calCommit _ => true
  | .calJobComplete _ _ recs => recs.all NvRec.wf
  | .bankSwitch => true
  | .nvHourlyCheck _ _ => true
  | .placementReview => true
  | .migrationStep => true
  | .loopRestore el => decide (el < 6144)
  | .samplesReceived l r => decide (l < 32) && r.wf
  | .fastupReceived l r => decide (l < 32) && r.wf
  | .respReceived l r _ => decide (l < 32) && r.wf
  | .ctrlTimeout l => decide (l < 32)
  | .linkLost l why => decide (l < 32) && decide (1 ≤ why) && decide (why ≤ 2)
  | .linkLate l => decide (l < 32)
  | .linkTrainStep l => decide (l < 32)
  | .linkRetryTimer l => decide (l < 32)
  | .faultSourceAssert src => decide (src < 423)
  | .faultOHoldExpiry => true
  | .fltSelfCheckFail kind => decide (kind < 3)
  | .sensorReading i v => decide (i < 28) && decide (-32768 ≤ v) && decide (v ≤ 32767)
  | .throttleFall => true
  | .sramUncorrectable reader _ addr => decide (reader < 6) && decide (addr < 2 ^ 32)
  | .ddrUncorrectable ch reader _ addr => decide (ch < 2) && decide (reader < 6) && decide (addr < 2 ^ 32)
  | .heartbeatReceived r => r.wf
  | .heartbeatMissed => true
  | .twinLinkLost lane => decide (lane < 4)
  | .mirrorReceived r => r.wf
  | .mackReceived r => r.wf
  | .mirrorTimeout => true
  | .forwardReceived r => r.wf
  | .fresultReceived r => r.wf
  | .forwardTimeout => true
  | .yieldReceived r => r.wf
  | .digestReceived r => r.wf
  | .pairOffsetCheck _ => true
  | .peerClaimConflict => true
  | .soloWaitExpiry => true
  | .resyncStep => true
  | .pcieLinkDown => true
  | .mgmtLinkDown => true
  | .refclkRestore => true
  | .peerClaimInChange _ => true
  | .cellLinkSyncLoss ch port => decide (ch < 8) && decide (port < 8)
  | .commandWindow => true
  | .declaredGapClose _ => true
  | .mirrorGapTimeout => true
  | .imageUpdateComplete img => img.wf
  | .brownOutRecovery => true
  | .ddrTrainingFailed ch => decide (ch < 2)
  | .eccCorrectedError ch addr => decide (ch < 3) && decide (addr < 2 ^ 32)
  | .jtagInstruction _ => true

end Sys2Proof
end

