-- ==== Sys2Proof/Safety.lean ====
section
/-! DEFINITION. What counts as a safe state and a safe run of the block, in the terms that the statements use. -/

namespace Sys2Proof.Machine

/-- The cause bits of THS.ECON_STAT show exactly the economy triggers that are present, and economy mode is in force while there is one
(R26, Table 1-10). -/
def State.econOk (s : State) : Prop :=
  s.dev.regN R.thsEconStat / 2 % 16 = s.dev.econCauses ∧ (s.dev.econCauses ≠ 0 → s.dev.economy = true)

/-- Everything that a row has had to say has gone out: nothing is left to be numbered. -/
def State.quiet (s : State) : Prop := s.dev.cpx.emissions = []

/-- What stands outside the command processor: everything but its own state, the registers, the record of what has been sent, and the
next event number. -/
def Dev.rest (d : Dev) : Dev := { d with cpx := {}, out := [], regs := [], tbu := { d.tbu with evseq := 1 } }

/-- `b` differs from `a` in what the sending of replies and events changes, and in nothing else: every register outside the window of the
command processor reads the same, and so do the commands that wait, run or are still to be done. -/
structure Dev.SentFrom (a b : Dev) : Prop where
  rest : b.rest = a.rest
  regs : ∀ off, 0x10000 ≤ off → b.reg off = a.reg off
  opened : b.cpx.opened = a.cpx.opened
  waiting : b.cpx.waiting = a.cpx.waiting
  nextOid : b.cpx.nextOid = a.cpx.nextOid
  accepting : b.cpx.accepting = a.cpx.accepting
  post : b.cpx.post = a.cpx.post
  emissions : b.cpx.emissions = a.cpx.emissions

/-- `b` agrees with `a` on everything outside the command processor, but for THS.ECON_STAT and the dwell of economy mode. -/
structure Dev.Keeps (a b : Dev) : Prop where
  rest : { b.rest with ths := { b.ths with dwellFrom := none } } = { a.rest with ths := { a.ths with dwellFrom := none } }
  regs : ∀ off, 0x10000 ≤ off → off ≠ R.thsEconStat → b.reg off = a.reg off

/-! ### A host command that is taken and runs -/

/-- The device once the command processor has taken a new packet of requester `q`: the command is counted (Table 2-11), its sequence
number noted (R52) and its tag entered in the replay window (R46). -/
def Dev.entered (d : Dev) (q : Nat) (p : Packet) : Dev :=
  let d1 := (d.bump R.cpxCmdCount).noteSequence q p
  let w := d1.requester q
  d1.setRequester q { w with window := w.window ++ [⟨p.cmd.tag.toNat, packetCrc p, none⟩] }

/-- The packet with opcode `op` is taken from the ring pair of requester `q` and its command runs at once: the ring is fetched, the
packet is whole, its tag is new, there is room in intake, no command waits that it may not overtake, the packet carries neither `fence` nor
`check_only`, it passes every check that stands before its function (R39, R40, R55, R56, R10, R480), and optical safe does not refuse it
(R390). -/
structure Starts (d : Dev) (op : BitVec 16) (c : Cmd) (q : Nat) : Prop where
  fetched : ∃ n, c.via = .ring n ∧ d.ringFetches n = some q
  whole : c.length = c.payload.length
  newTag : ∀ e ∈ (d.requester q).window, e.tag ≠ c.tag.toNat
  room : d.inIntake q < 256
  alone : ∀ w ∈ d.cpx.waiting, waitsBehind q ⟨op, c⟩ w = false
  noFence : flagFence c.flags = false
  real : flagCheckOnly c.flags = false
  passes : (d.entered q ⟨op, c⟩).refusal q true ⟨op, c⟩ = none
  permitted : (opticalSafeRefuses op.toNat c.payload && d.flag F.fltState_osafe) = false

/-- The same for a SESSION_OPEN datagram from a source that holds no session (R37, R491): the management port is up and takes datagrams,
and the packet passes the checks. -/
structure StartsUnbound (d : Dev) (op : BitVec 16) (c : Cmd) (addr port : Nat) : Prop where
  source : c.via = .udp addr port
  ready : d.flag F.cpxReady1_mgmt = true
  listens : d.flag F.cpxUdpCfg_en = true
  accepting : d.cpx.accepting = true
  whole : c.length = c.payload.length
  unknown : d.sessionAt addr port = none
  real : flagCheckOnly c.flags = false
  passes : (d.bump R.cpxCmdCount).refusal c.requester.toNat false ⟨op, c⟩ = none

/-- The command under execution, as its function sees it. -/
def callOf (a : Dev) (op : BitVec 16) (c : Cmd) (q : Nat) : Call := ⟨a.cpx.nextOid, q, ⟨op, c⟩, none⟩

/-- The command under execution when the packet is taken by `d`. -/
def Dev.nextCall (d : Dev) (op : BitVec 16) (c : Cmd) (q : Nat) : Call := callOf (d.entered q ⟨op, c⟩) op c q

/-- The command opened in the device that has taken it: its function acts on this. -/
def Dev.opened (d : Dev) (op : BitVec 16) (c : Cmd) (q : Nat) : Dev := (d.entered q ⟨op, c⟩).openCmd ⟨op, c⟩ q

/-- The end of a command with one reply: `d` is what its function leaves, and the final reply with `st` and `result` goes out. The active
unit of a pair forwards it first where R421 says so. What waited for its fence starts. -/
def Dev.replied (d : Dev) (op : BitVec 16) (c : Cmd) (q oid st : Nat) (result : Bytes) : Dev :=
  (((d.forwardIf d ⟨op, c⟩ q oid (.final st result)).strike oid).close ⟨op, c⟩ q true st result).pump

/-- The device with the ACCEPTED reply of a two-stage command given out, unless the packet says `no_interim` (R44, Table 2-2). -/
def Dev.interim (d : Dev) (op : BitVec 16) (c : Cmd) (q : Nat) (result : Bytes) : Dev :=
  if (match opRow op.toNat with | some r => r.twoStage | none => false) && !flagNoInterim c.flags then
    d.reply { replyTo ⟨op, c⟩ q St.accepted false result with desc := descFor ⟨op, c⟩, publish := false }
  else d

/-- The device on which the function of a two-stage command acts once ACCEPTED has been given (R44); `after` is what it leaves. -/
def Dev.acceptedFor (d after : Dev) (op : BitVec 16) (c : Cmd) (q oid : Nat) (result : Bytes) : Dev :=
  let d1 := d.forwardIf after ⟨op, c⟩ q oid (.accepted result)
  if (match opRow op.toNat with | some r => r.twoStage | none => false) && !flagNoInterim c.flags then
    d1.answer { replyTo ⟨op, c⟩ q St.accepted false result with desc := descFor ⟨op, c⟩, publish := false }
  else d1

/-- The end of the row of a two-stage command: the replay window is cut to its length, and what waited for a fence starts. -/
def Dev.goesOn (d : Dev) (q : Nat) : Dev := (d.trimWindow q).pump

/-- The canonical form of the DDR5 cells that the block has written: addresses strictly rising. An address that is not listed holds no
value that the spec states, so none is given to it. -/
abbrev Memory.wf (m : List (Nat × Byte)) : Prop := m.Pairwise (fun a b => a.1 < b.1)

/-- A run of well-formed commands: the block answers a next state for each. -/
def runs : List Instr → State → Option State
  | [], s => some s
  | c :: r, s => match exec c s with
    | .next t => runs r t
    | _ => none

end Sys2Proof.Machine
end

