-- ==== Sys2Proof/Certificates/Slice0/Obligations.lean ====
section
/-! DEFINITION. What is claimed of the block: the statements for the provers. Each gives the state that a row leaves in the shared operations of
the model, so its frame is said with it: `State.after` is the end of every row, of which `EndOfRowKeepsEffect` says what it keeps. `o` is the device that has
taken and opened the command (and given ACCEPTED, where the command has two replies). -/

open Sys2Proof Sys2Proof.Machine

/-! ### The block as a whole -/

/-- A step takes the command that has waited longest: with `c` at the front of the queue, the step is `exec` of `c` on the state with the rest of the
queue.
Where the rules leave a choice the statement follows the model's: log entry 2. -/
def Obligations.StepRunsFrontCommand : Prop :=
  ∀ (c : Instr) (s : State), step { s with pending := c :: s.pending } = exec c s

/-- On an empty queue the timebase counts once, by 20 ticks of 125 ps, while PORST_N is high, there is no brown-out and REFCLK runs, and nothing else
changes; otherwise nothing changes at all. That the block does this on an empty queue is the model's choice (log entry 1). -/
def Obligations.IdleStepCountsTimebaseOnce : Prop :=
  ∀ s : State, s.pending = [] →
    (s.dev.mem.porst = true ∧ s.dev.mem.brownOut = false ∧ s.dev.mem.refLost = false →
      step s = .next { s with dev := { s.dev with now := s.dev.now + 20 } }) ∧
    (s.dev.mem.porst = false ∨ s.dev.mem.brownOut = true ∨ s.dev.mem.refLost = true → step s = .next s)

/-- After reset the queue is empty, every register reads its reset value, and economy mode shows no cause.
Where the rules leave a choice the statement follows the model's: log entries 11, 12, 13, 14. -/
def Obligations.ResetStateReadsResetValues : Prop :=
  State.reset.pending = [] ∧ (∀ off, State.reset.dev.reg off = regReset off) ∧ State.reset.econOk ∧ State.reset.quiet ∧
    Memory.wf State.reset.dev.mem.ddr ∧ tableWf regReset State.reset.dev.regs = true ∧
    State.reset.dev.fld F.hstResetCause_cause = 1 ∧ State.reset.dev.regN R.hstColdCount = 0 ∧ State.reset.dev.regN R.cpxReady0 = 0 ∧
    State.reset.dev.regN R.cpxReady1 = 0 ∧ State.reset.dev.fld F.twnStat_role = 0

/-- Every step keeps what THS.ECON_STAT shows true, and leaves nothing unsent: its cause bits are the triggers that are present, economy mode is in
force while there is one (R26, Table 1-10), and every reply and event of the row has been numbered (R25). -/
def Obligations.EveryStepShowsEconomyCausesAndSendsAll : Prop :=
  ∀ s t : State, s.econOk ∧ s.quiet → step s = .next t → t.econOk ∧ t.quiet

/-- Every well-formed command has its effect in every state: the block answers a next state, and the commands that wait behind it stay as they were. A
fault names an instance that the block does not have, so the command was not well formed; no command is refused.
Where the rules leave a choice the statement follows the model's: log entry 5. -/
def Obligations.WellFormedCommandsComplete : Prop :=
  (∀ (c : Instr) (s : State), c.wf = true → ∃ t, exec c s = .next t) ∧
  (∀ (c : Instr) (s t : State), exec c s = .next t → t.pending = s.pending) ∧
  (∀ (c : Instr) (s : State) (f : Fault), exec c s = .fault f → c.wf = false) ∧
  (∀ (c : Instr) (s : State) (r : Refusal), exec c s ≠ .refused r)

/-- What the end of every row leaves of its effect `d` where no twin follows, nothing waits for the replies and no trigger of economy mode has arisen:
everything outside the command processor is as in `d`, but for THS.ECON_STAT and the dwell; so are the commands that wait and run. The replies and
events of the row have been sent.
Where the rules leave a choice the statement follows the model's: log entry 6. -/
def Obligations.EndOfRowKeepsEffect : Prop :=
  ∀ (s : State) (d : Dev), d.pairedActive = false → (d.standby && d.flag F.twnStat_paired) = false → d.cpx.post = [] →
    (d.econCauses = 0 ∨ d.economy = true) →
    d.Keeps (s.after d).dev ∧ (s.after d).pending = s.pending ∧ (s.after d).dev.cpx.opened = d.cpx.opened ∧
      (s.after d).dev.cpx.waiting = d.cpx.waiting ∧ (s.after d).dev.cpx.nextOid = d.cpx.nextOid ∧ (s.after d).quiet

/-- R25: what a row has to say is sorted by timebase count, then in the order of the groups (power first, then optical, then all others), then by the
source number, replies before events, then by `sequence` or event code; nothing is lost or added, and equals keep their order. -/
def Obligations.EmissionsNumberedInOrder : Prop :=
  ∀ l : List Emission, (sortEmissions l).Perm l ∧ (sortEmissions l).Pairwise (fun a b => keyLt b.sortKey a.sortKey = false) ∧
    ∀ k, (sortEmissions l).filter (fun e => e.sortKey = k) = l.filter (fun e => e.sortKey = k)

/-! ### The host's queries -/

/-- DEV_INFO, ATTEST, ECHO, MEM_STATUS and REG_READ that run answer DONE with the result that the spec lays out, and change nothing but what the taking
of a command changes; REG_READ also the captured high words (R12). Here `o` is the device that has taken and opened the command. The queries of the
functions that run answer DONE with the records of their chapter, and change nothing but what the taking of a command changes: TIME_QUERY,
CIRCUIT_QUERY, SCHEDULE_QUERY, LOOP_QUERY, PLACE_STATS, SLUICE_STATUS, SST_QUERY, LEG_QUERY, FAULT_QUERY, TWIN_QUERY and CAL_BANK.
Where the rules leave a choice the statement follows the model's: log entries 28, 39, 91. -/
def Obligations.QueriesAnswer : Prop :=
  ((∀ (s : State) (c : Cmd) (q : Nat), Starts s.dev 0x0101 c q →
    let o := s.dev.opened 0x0101 c q
    exec (.devInfo c) s = .next (s.after (o.replied 0x0101 c q (s.dev.nextCall 0x0101 c q).oid St.done
      (partNumber ++ le 1 0x42 ++ le 1 1 ++ le 2 0 ++ le 4 o.firmware ++ o.ucodeBytes ++ le 48 o.cfgDigest)))) ∧
  (∀ (s : State) (c : Cmd) (q : Nat), Starts s.dev 0x0F04 c q → c.payload.length = 48 →
    let o := s.dev.opened 0x0F04 c q
    let head := o.reportHead (c.payload.drop 16)
    exec (.attest c) s = .next (s.after (o.replied 0x0F04 c q (s.dev.nextCall 0x0F04 c q).oid St.done
      (head ++ le 48 Config.devicePublicKey.1 ++ le 1 (if Config.devicePublicKey.2 then 3 else 2) ++ le 3 0 ++
        fitBytes 96 (Config.ecdsaSign head))))) ∧
  (∀ (s : State) (c : Cmd) (q : Nat), Starts s.dev 0x0E03 c q →
    exec (.echo c) s = .next (s.after ((s.dev.opened 0x0E03 c q).replied 0x0E03 c q (s.dev.nextCall 0x0E03 c q).oid St.done
      (c.payload.drop 16)))) ∧
  (∀ (s : State) (c : Cmd) (q : Nat), Starts s.dev 0x0E04 c q → rd c.payload 0 1 = 2 → rd c.payload 1 3 = 0 →
    let o := s.dev.opened 0x0E04 c q
    exec (.memStatus c) s = .next (s.after (o.replied 0x0E04 c q (s.dev.nextCall 0x0E04 c q).oid St.done
      (le 1 2 ++ le 1 2 ++ le 2 0 ++ le 4 (o.regN R.memSramCe) ++ le 4 (o.regN R.memSramUe) ++ le 4 0 ++
        le 8 (o.regN R.memSramAddr) ++ le 8 0)))) ∧
  (∀ (s : State) (c : Cmd) (q n : Nat), Starts s.dev 0x0E04 c q → rd c.payload 0 1 = n → n < 2 → rd c.payload 1 3 = 0 →
    let o := s.dev.opened 0x0E04 c q
    exec (.memStatus c) s = .next (s.after (o.replied 0x0E04 c q (s.dev.nextCall 0x0E04 c q).oid St.done
      (le 1 n ++ le 1 (o.fld (F.memDdrStat_dstate n)) ++ le 2 (o.ddrRate n) ++ le 4 (o.regN (R.memDdrCe n)) ++
        le 4 (o.regN (R.memDdrUe n)) ++ le 4 (o.scrubAt n % 2 ^ 32) ++
        le 8 (o.regN (R.memDdrEaddrLo n) + 2 ^ 32 * o.regN (R.memDdrEaddrHi n)) ++ le 8 0)))) ∧
  (∀ (s : State) (c : Cmd) (q off n : Nat), Starts s.dev 0x0E01 c q → rd c.payload 16 4 = off → rd c.payload 20 4 = n →
    off % 4 = 0 → 1 ≤ n → n ≤ 64 → off + 4 * n ≤ 0x140000 →
    let o := s.dev.opened 0x0E01 c q
    exec (.regRead c) s = .next (s.after ((readRegs n off o).2.replied 0x0E01 c q (s.dev.nextCall 0x0E01 c q).oid St.done
      (readRegs n off o).1)))) ∧
  (∀ (s : State) (c : Cmd) (q : Nat),
  (Starts s.dev 0x0604 c q →
    let o := s.dev.opened 0x0604 c q
    exec (.timeQuery c) s = .next (s.after (o.replied 0x0604 c q (s.dev.nextCall 0x0604 c q).oid St.done
      (le 8 o.tai ++ le 8 o.frame ++ le 4 (o.regN R.tbuPtpOffset) ++ le 4 (o.angleAt o.now) ++ le 4 (o.regN R.tbuFreq) ++
        le 1 (b2n (o.flag F.cpxReady1_ptp) + 2 * b2n (o.flag F.cpxReady1_angle) + 4 * b2n (o.flag F.tbuCatStat_flywheel) +
          8 * b2n (o.flag F.tbuCatStat_lost)) ++ le 3 0)))) ∧
  (Starts s.dev 0x0204 c q → 1 ≤ rd c.payload 18 2 → rd c.payload 16 2 + rd c.payload 18 2 ≤ 512 →
    let o := s.dev.opened 0x0204 c q
    exec (.circuitQuery c) s = .next (s.after (o.replied 0x0204 c q (s.dev.nextCall 0x0204 c q).oid St.done
      ((List.range (rd c.payload 18 2)).flatMap (fun j => o.circuitRecord (rd c.payload 16 2 + j)))))) ∧
  (Starts s.dev 0x0301 c q → 1 ≤ rd c.payload 18 2 → rd c.payload 16 2 + rd c.payload 18 2 ≤ 4096 →
    let o := s.dev.opened 0x0301 c q
    exec (.scheduleQuery c) s = .next (s.after (o.replied 0x0301 c q (s.dev.nextCall 0x0301 c q).oid St.done
      ((List.range (rd c.payload 18 2)).flatMap (fun j => o.entryRecord (rd c.payload 16 2 + j)))))) ∧
  (Starts s.dev 0x0405 c q → 1 ≤ rd c.payload 18 2 → rd c.payload 18 2 ≤ 1024 → rd c.payload 16 2 + rd c.payload 18 2 ≤ 6144 →
    let o := s.dev.opened 0x0405 c q
    (∀ j < rd c.payload 18 2, o.isDrive (rd c.payload 16 2 + j) = true → o.linkReady (linkOf (rd c.payload 16 2 + j)) = true) →
    exec (.loopQuery c) s = .next (s.after (o.replied 0x0405 c q (s.dev.nextCall 0x0405 c q).oid St.done
      ((List.range (rd c.payload 18 2)).flatMap (fun j => o.loopRecord (rd c.payload 16 2 + j)))))) ∧
  (Starts s.dev 0x0504 c q →
    let o := s.dev.opened 0x0504 c q
    exec (.placeStats c) s = .next (s.after (o.replied 0x0504 c q (s.dev.nextCall 0x0504 c q).oid St.done o.placeStats))) ∧
  (Starts s.dev 0x0303 c q →
    let o := s.dev.opened 0x0303 c q
    exec (.sluiceStatus c) s = .next (s.after (o.replied 0x0303 c q (s.dev.nextCall 0x0303 c q).oid St.done o.sluiceStatus))) ∧
  (Starts s.dev 0x0706 c q →
    let o := s.dev.opened 0x0706 c q
    exec (.sstQuery c) s = .next (s.after (o.replied 0x0706 c q (s.dev.nextCall 0x0706 c q).oid St.done
      (le 1 o.stage ++ le 1 o.setInForce ++ le 1 (o.fld F.cmuSstStat_nSvc) ++ le 1 (o.fld F.cmuSstStat_sel) ++ le 4 (o.regN R.cmuPsel) ++
        (List.range 5).flatMap (fun i => le 4 (o.regN (R.cmuCand i))) ++ le 4 (o.regN R.cmuVdcMean) ++
        (List.range 48).flatMap (fun n => le 2 (o.fld (F.clnCellStat_cstat n)) ++ le 1 (o.fld (F.cmuCellSvc_svc n)) ++ le 1 0 ++
          le 2 (o.fld (F.cmuCellMod_m n)) ++ le 2 (o.fld (F.cmuCellMod_phi n))))))) ∧
  (∀ l, Starts s.dev 0x0804 c q → rd c.payload 0 1 = l → l ≤ 7 → rd c.payload 1 3 = 0 →
    let o := s.dev.opened 0x0804 c q
    exec (.legQuery c) s = .next (s.after (o.replied 0x0804 c q (s.dev.nextCall 0x0804 c q).oid St.done
      (le 1 l ++ le 1 (o.legState l) ++ le 2 (o.regN (R.gdpLegLatch l)) ++ le 4 (o.fld (F.pwmPerAct_v l)) ++
        le 4 (o.fld (F.pwmDutyAct_v l)) ++ le 4 (o.regN (R.pwmLegFlags l)) ++ le 4 ((o.leg l).commits % 65536) ++
        le 4 (if o.legLv l then o.regN R.pwmLvD else 0) ++ le 8 0)))) ∧
  (Starts s.dev 0x0B04 c q →
    let o := s.dev.opened 0x0B04 c q
    exec (.faultQuery c) s = .next (s.after (o.replied 0x0B04 c q (s.dev.nextCall 0x0B04 c q).oid St.done
      (le 4 (o.regN R.fltState) ++ le 4 0 ++ (List.range 14).flatMap (fun i => le 4 (o.regN (R.fltSticky i))) ++
        (List.range 14).flatMap (fun i => le 4 (o.regN (R.fltPresent i))) ++
        (List.range 448).flatMap (fun k => if k < sourceCount then le 1 (o.regN (R.fltClass k) % 256) else le 1 0))))) ∧
  (Starts s.dev 0x0C03 c q →
    let o := s.dev.opened 0x0C03 c q
    exec (.twinQuery c) s = .next (s.after (o.replied 0x0C03 c q (s.dev.nextCall 0x0C03 c q).oid St.done
      (le 1 (o.fld F.twnStat_role) ++ le 1 (b2n (o.flag F.twnStat_paired) + 2 * b2n (o.flag F.twnStat_eligible) +
        4 * b2n (o.flag F.twnStat_peerEligible) + 8 * b2n (o.flag F.twnStat_degraded)) ++ le 2 o.term ++ le 4 (o.regN R.twnElig) ++
        le 8 (pattern 64 o.twn.offset) ++ le 8 (pattern 64 o.twn.timeDiff) ++ le 4 o.calIdent ++ le 4 o.twn.peerCal ++ le 4 o.firmware ++
        le 4 o.twn.peerFirmware ++ le 24 0)))) ∧
  (Starts s.dev 0x0A03 c q →
    let o := s.dev.opened 0x0A03 c q
    exec (.calBank c) s = .next (s.after (o.replied 0x0A03 c q (s.dev.nextCall 0x0A03 c q).oid St.done
      (le 1 (o.fld F.calStat_active) ++ le 3 0 ++ le 4 (o.regN R.calIdA) ++ le 4 (o.regN R.calIdB))))))

/-! ### Device, requester, session, register and fault commands -/

/-- EVENT_SUBSCRIBE (R483) with its reserved byte 0 that runs sets the requester's mask for the destination it names and answers DONE with the mask it
replaces; a `dest` above 1, bit 0 of `gmask`, and `dest` 1 of a requester without a session are answered BAD_PARAM and set no mask. A reserved byte that
is not 0 is answered BAD_PARAM too (R10). -/
def Obligations.EventSubscribeReplacesMask : Prop :=
  ∀ (s : State) (c : Cmd) (q g dest : Nat), Starts s.dev 0x0103 c q → rd c.payload 0 2 = g → rd c.payload 2 1 = dest →
    let o := s.dev.opened 0x0103 c q
    let oid := (s.dev.nextCall 0x0103 c q).oid
    (rd c.payload 3 1 = 0 → dest = 0 → g % 2 = 0 →
      exec (.eventSubscribe c) s = .next (s.after
        ((o.setRequester q { o.requester q with ringMask := g }).replied 0x0103 c q oid St.done (le 2 (o.requester q).ringMask)))) ∧
    (rd c.payload 3 1 = 0 → dest = 1 → g % 2 = 0 → (o.sessionOf q).isSome →
      exec (.eventSubscribe c) s = .next (s.after
        ((o.setRequester q { o.requester q with ownMask := g }).replied 0x0103 c q oid St.done (le 2 (o.requester q).ownMask)))) ∧
    (rd c.payload 3 1 ≠ 0 ∨ 1 < dest ∨ g % 2 = 1 ∨ (dest = 1 ∧ o.sessionOf q = none) →
      exec (.eventSubscribe c) s = .next (s.after (o.replied 0x0103 c q oid St.badParam [])))

/-- DEV_RESTART (R482): a cold restart, and a warm restart that ends no power work on the active unit, are noted to begin once DONE has been sent; where
there is power work, the active unit yields first to an eligible peer and is refused without one (R81). A `mode` above 1 is refused. REQ_CLOSE
(R493) while it is its requester's only open command, and SESSION_CLOSE of one's own session likewise (R492), note the end of the binding to come
once DONE has been sent; while another command of the requester is open each answers CONFLICT. Where no twin follows, the end of a row whose effect
has noted one action for after the replies does that action when they have been sent: a cold restart is a cold start with cause 3, a warm restart
drains the device, a closed binding ends. `d` is the effect; `f` is the device once its replies have been sent.
Where the rules leave a choice the statement follows the model's: log entries 6, 50. -/
def Obligations.RestartAndCloseFollowTheirReply : Prop :=
  (∀ (s : State) (c : Cmd) (q : Nat),
  (Starts s.dev 0x0102 c q → rd c.payload 1 3 = 0 →
    let o := s.dev.opened 0x0102 c q
    let oid := (s.dev.nextCall 0x0102 c q).oid
    (rd c.payload 0 1 = 1 →
      exec (.devRestart c) s = .next (s.after (({ o with cpx := { o.cpx with post := o.cpx.post ++ [.restart true] } } : Dev).replied 0x0102 c q
        oid St.done []))) ∧
    (rd c.payload 0 1 = 0 → (o.active && o.powerWork) = false →
      exec (.devRestart c) s = .next (s.after (({ o with cpx := { o.cpx with post := o.cpx.post ++ [.restart false] } } : Dev).replied 0x0102 c q
        oid St.done []))) ∧
    (rd c.payload 0 1 = 0 → (o.active && o.powerWork) = true → o.flag F.twnStat_peerEligible = true →
      exec (.devRestart c) s = .next (s.after (({ o.yield.afterRole with cpx := { o.yield.afterRole.cpx with
        post := o.yield.afterRole.cpx.post ++ [.restart false] } } : Dev).replied 0x0102 c q oid St.done []))) ∧
    (rd c.payload 0 1 = 0 → (o.active && o.powerWork) = true → o.flag F.twnStat_peerEligible = false →
      exec (.devRestart c) s = .next (s.after (o.replied 0x0102 c q oid St.refused []))) ∧
    (1 < rd c.payload 0 1 → exec (.devRestart c) s = .next (s.after (o.replied 0x0102 c q oid St.badParam [])))) ∧
  (Starts s.dev 0x0104 c q →
    let o := s.dev.opened 0x0104 c q
    (o.openCount q ≤ 1 →
      exec (.reqClose c) s = .next (s.after (({ o with cpx := { o.cpx with post := o.cpx.post ++ [.close q] } } : Dev).replied 0x0104 c q
        (s.dev.nextCall 0x0104 c q).oid St.done []))) ∧
    (1 < o.openCount q →
      exec (.reqClose c) s = .next (s.after (o.replied 0x0104 c q (s.dev.nextCall 0x0104 c q).oid St.conflict [])))) ∧
  (∀ n u, Starts s.dev 0x0F02 c q → rd c.payload 0 2 = n → rd c.payload 2 2 = 0 →
    let o := s.dev.opened 0x0F02 c q
    o.cpx.sessions.find? (fun x => x.number = n) = some u → u.requester = q →
    (o.openCount q ≤ 1 →
      exec (.sessionClose c) s = .next (s.after (({ o with cpx := { o.cpx with post := o.cpx.post ++ [.close q] } } : Dev).replied 0x0F02 c q
        (s.dev.nextCall 0x0F02 c q).oid St.done []))) ∧
    (1 < o.openCount q →
      exec (.sessionClose c) s = .next (s.after (o.replied 0x0F02 c q (s.dev.nextCall 0x0F02 c q).oid St.conflict []))))) ∧
  (∀ (s : State) (d : Dev), d.pairedActive = false → (d.standby && d.flag F.twnStat_paired) = false →
    let f : Dev := { d.settle.flush with cpx := { d.settle.flush.cpx with post := [] } }
    (d.cpx.post = [.restart true] → (s.after d).dev = ((f.coldStart 3 (f.flag F.twnStat_unitId)).settle).flush) ∧
    (d.cpx.post = [.restart false] → (s.after d).dev = (f.warmRestart.settle).flush) ∧
    (∀ q, d.cpx.post = [.close q] → (s.after d).dev = ((f.closeBinding q).settle).flush))

/-- R484: a command ECON_CONFIG is 8 bytes long. ECON_CONFIG (R484) writes both registers at one instant where both values satisfy Tables 1-8 and 1-9,
and parked elements follow while economy mode is in force; otherwise it is refused with BAD_PARAM and neither register is written.
Where the rules leave a choice the statement follows the model's: log entry 62. -/
def Obligations.EconConfigWritesBothRegistersOrNeither : Prop :=
  (∀ row n, opRow 0x0105 = some row → (row.lengthOk n = true ↔ n = 8)) ∧
  ∀ (s : State) (c : Cmd) (q : Nat) (v w : Word), Starts s.dev 0x0105 c q → BitVec.ofNat 32 (rd c.payload 0 4) = v →
    BitVec.ofNat 32 (rd c.payload 4 4) = w →
    let o := s.dev.opened 0x0105 c q
    let oid := (s.dev.nextCall 0x0105 c q).oid
    let legal := v &&& 0xFF00FFC0#32 = 0 ∧ 10 ≤ fieldOf F.thsEconCtrl_exitDwell v ∧
      (fieldOf F.thsEconLv_enterV w = 0 ∨ fieldOf F.thsEconLv_enterV w + 100 ≤ fieldOf F.thsEconLv_exitV w)
    (legal → exec (.econConfig c) s = .next (s.after
      (((o.setReg R.thsEconCtrl v).setReg R.thsEconLv w).followPark.replied 0x0105 c q oid St.done []))) ∧
    (¬ legal → exec (.econConfig c) s = .next (s.after (o.replied 0x0105 c q oid St.badParam [])))

/-- REG_WRITE (R58) and CFG_WRITE (R59) with a reserved word of 0 that satisfy every condition write the masked writable bits of the register and answer
DONE; another access code, an offset without a register, a masked read-only bit that differs, and for CFG_WRITE a register that a command of its own
writes, are answered BAD_PARAM, and nothing is written. `base` is the word that the masked bits replace: that of the register, or the one which is to
replace it at the next period start.
Where the rules leave a choice the statement follows the model's: log entry 38. -/
def Obligations.RegisterWriteCommandsWriteMaskedBits : Prop :=
  ∀ (s : State) (c : Cmd) (q off : Nat) (k : RegBank) (v m : Word), rd c.payload 0 4 = off → BitVec.ofNat 32 (rd c.payload 4 4) = v →
    BitVec.ofNat 32 (rd c.payload 8 4) = m → rd c.payload 12 4 = 0 →
    (Starts s.dev 0x0E02 c q →
      let o := s.dev.opened 0x0E02 c q
      let oid := (s.dev.nextCall 0x0E02 c q).oid
      let base := o.writeBase off
      let new := mergeWord base v (m &&& k.wmask)
      (regBankAt off = some k → k.acc = .rw → (v ^^^ o.view off) &&& m &&& ~~~k.wmask = 0 → o.rwRefusal off new = St.done →
        exec (.regWrite c) s = .next (s.after ((o.writeRw off new).replied 0x0E02 c q oid St.done []))) ∧
      (regBankAt off = none ∨ (regBankAt off = some k ∧ (k.acc ≠ .rw ∨ (v ^^^ o.view off) &&& m &&& ~~~k.wmask ≠ 0)) →
        exec (.regWrite c) s = .next (s.after (o.replied 0x0E02 c q oid St.badParam [])))) ∧
    (Starts s.dev 0x0E05 c q →
      let o := s.dev.opened 0x0E05 c q
      let oid := (s.dev.nextCall 0x0E05 c q).oid
      let base := o.writeBase off
      let new := mergeWord base v (m &&& k.wmask)
      (regBankAt off = some k → k.acc = .cw → (v ^^^ o.view off) &&& m &&& ~~~k.wmask = 0 → ownedCw off = false → rangesOk off new m = true →
        o.cwConditions off new m = true → o.cwRefusal off new m = St.done →
        exec (.cfgWrite c) s = .next (s.after ((o.writeCw off new).replied 0x0E05 c q oid St.done []))) ∧
      (regBankAt off = none ∨ (regBankAt off = some k ∧ (k.acc ≠ .cw ∨ (v ^^^ o.view off) &&& m &&& ~~~k.wmask ≠ 0 ∨ ownedCw off = true)) →
        exec (.cfgWrite c) s = .next (s.after (o.replied 0x0E05 c q oid St.badParam []))))

/-- SESSION_OPEN (R491) from a source without a session, for a requester that is free, while fewer than 24 sessions are open and the signature verifies
under the owner key: the nonce is drawn anew, and the requester is bound to the source under the lowest free number, which the result gives.
Where the rules leave a choice the statement follows the model's: log entry 35. -/
def Obligations.SessionOpenBindsLowestFreeNumber : Prop :=
  ∀ (s : State) (c : Cmd) (addr port key : Nat), StartsUnbound s.dev 0x0F01 c addr port →
    let q := c.requester.toNat
    let a := s.dev.bump R.cpxCmdCount
    let o := a.openCmd ⟨0x0F01, c⟩ q
    rd c.payload 0 2 = q → rd c.payload 2 2 = 0 → o.requesterTaken q = false → o.cpx.sessions.length < 24 → o.hst.ownerKey = some key →
    Config.ecdsaVerify key (o.nonceBytes ++ c.payload.take 2) ((c.payload.drop 4).take 96) = true →
    let b := o.renewNonce.forgetRequester q
    let d2 : Dev := { b with cpx := { b.cpx with sessions := b.cpx.sessions ++ [⟨o.freeSession, q, addr, port, 0⟩] } }
    (∀ u ∈ o.cpx.sessions, u.number ≠ o.freeSession) ∧ o.freeSession < 24 ∧ (∀ n < o.freeSession, ∃ u ∈ o.cpx.sessions, u.number = n) ∧
    exec (.sessionOpen c) s = .next (s.after
      (((d2.strike a.cpx.nextOid).close ⟨0x0F01, c⟩ q false St.done (le 2 o.freeSession ++ le 2 0)).pump))

/-- The two-stage commands of the host group and of a twin pair that are accepted: IMAGE_UPDATE (R73) begins to write the slot that is not running,
TWIN_PAIR (R431) notes that its final reply waits for the pairing and sends a DIGEST while the twin link is up, and TWIN_YIELD sent to an eligible
standby asks the peer to yield. Sent to an active unit with an eligible standby it yields.
Where the rules leave a choice the statement follows the model's: log entries 39, 107. -/
def Obligations.HostTwoStageCommandsBegin : Prop :=
  ∀ (s : State) (c : Cmd) (q : Nat),
  (Starts s.dev 0x0F03 c q → rd c.payload 12 4 = 0 →
    let o := (s.dev.opened 0x0F03 c q).interim 0x0F03 c q []
    o.hst.update = none →
    exec (.imageUpdate c) s = .next (s.after
      (({ o with hst := { o.hst with update := some ((s.dev.nextCall 0x0F03 c q).oid, 1 - o.hst.bootedSlot, c.image) } } : Dev).goesOn q))) ∧
  (Starts s.dev 0x0C01 c q →
    let o := (s.dev.opened 0x0C01 c q).interim 0x0C01 c q []
    let d1 : Dev := { o with twn := { o.twn with pairing := o.twn.pairing ++ [(s.dev.nextCall 0x0C01 c q).oid] } }
    let d2 := if o.flag F.twnStat_linkUp then d1.sendDigest else d1
    o.twinMode = true →
    (o.flag F.twnStat_paired = true ∨ o.twn.resync ≠ 0 ∨ o.active = true →
      exec (.twinPair c) s = .next (s.after (d2.goesOn q))) ∧
    (o.flag F.twnStat_paired = false → o.twn.resync = 0 → o.active = false →
      exec (.twinPair c) s = .next (s.after (({ d2 with twn := { d2.twn with resync := 1 } } : Dev).goesOn q)))) ∧
  (Starts s.dev 0x0C02 c q →
    let o := (s.dev.opened 0x0C02 c q).interim 0x0C02 c q []
    let d1 : Dev := { o with twn := { o.twn with yieldOids := o.twn.yieldOids ++ [(s.dev.nextCall 0x0C02 c q).oid] } }
    (o.active = true → o.flag F.twnStat_peerEligible = true →
      exec (.twinYield c) s = .next (s.after (d1.yield.afterRole.goesOn q))) ∧
    (o.standby = true → o.flag F.twnStat_eligible = true →
      exec (.twinYield c) s = .next (s.after ((d1.send (.twin twinYield [o.term])).goesOn q))))

/-- FAULT_MAP (R397) of a mappable source to a class at or above its floor sets the class and answers the class it had; a change that causes a reaction
of a sticky source enters it at once. A class below the floor is refused with REFUSED. FAULT_CLEAR (R398) clears the sticky bits of `mask` whose
source is not present, and answers which it has cleared and which stay because their condition is present. FAULT_O_RELEASE (R394) outside optical
safe and device safe makes FAULT_O fall at once where its 100 µs are over, and waits for their end where they are not.
Where the rules leave a choice the statement follows the model's: log entry 93. -/
def Obligations.FaultCommandsTakeEffect : Prop :=
  (∀ (s : State) (c : Cmd) (q src k : Nat), Starts s.dev 0x0B01 c q → rd c.payload 0 2 = src → rd c.payload 2 1 = k → rd c.payload 3 1 = 0 →
    src ≤ 422 → reservedSource src = false → k ≤ 5 →
    let o := s.dev.opened 0x0B01 c q
    let oid := (s.dev.nextCall 0x0B01 c q).oid
    let d1 := o.setFld (F.fltClass_class src) k
    (o.fld (F.fltClass_floor src) ≤ k → (o.sticky src = false ∨ k = o.sourceClass src ∨ (k ≠ 4 ∧ k ≠ 5)) →
      exec (.faultMap c) s = .next (s.after (((d1.updateStates).updateRelinq).refreshElig.replied 0x0B01 c q oid St.done
        (le 1 (o.sourceClass src))))) ∧
    (o.fld (F.fltClass_floor src) ≤ k → o.sticky src = true → k ≠ o.sourceClass src → k = 5 →
      exec (.faultMap c) s = .next (s.after ((((d1.deviceSafe src).updateStates).updateRelinq).refreshElig.replied 0x0B01 c q oid St.done
        (le 1 (o.sourceClass src))))) ∧
    (o.fld (F.fltClass_floor src) ≤ k → o.sticky src = true → k ≠ o.sourceClass src → k = 4 →
      exec (.faultMap c) s = .next (s.after (((d1.relinquish.updateStates).updateRelinq).refreshElig.replied 0x0B01 c q oid St.done
        (le 1 (o.sourceClass src))))) ∧
    (k < o.fld (F.fltClass_floor src) → exec (.faultMap c) s = .next (s.after (o.replied 0x0B01 c q oid St.refused [])))) ∧
  (∀ (s : State) (c : Cmd) (q : Nat),
  (∀ i mask, Starts s.dev 0x0B02 c q → rd c.payload 0 1 = i → i ≤ 13 → rd c.payload 1 3 = 0 → rd c.payload 4 4 = mask →
    let o := s.dev.opened 0x0B02 c q
    let sticky := o.regN (R.fltSticky i)
    let present := Nat.land (Nat.land mask sticky) (o.regN (R.fltPresent i))
    let cleared := andNot (Nat.land mask sticky) present
    let d1 := o.setRegN (R.fltSticky i) (andNot sticky cleared)
    let d2 := if i = 7 then (d1.clearProt cleared).leaveTrip else d1
    exec (.faultClear c) s = .next (s.after (((((d2.updateStates).updateAlive).updateRelinq).refreshElig).replied 0x0B02 c q
      (s.dev.nextCall 0x0B02 c q).oid St.done (le 4 cleared ++ le 4 present)))) ∧
  (Starts s.dev 0x0B03 c q →
    let o := (s.dev.opened 0x0B03 c q).interim 0x0B03 c q []
    let d1 : Dev := { o with flt := { o.flt with release := o.flt.release ++ [(s.dev.nextCall 0x0B03 c q).oid] } }
    o.flag F.fltState_osafe = false → o.flag F.fltState_dsafe = false →
    (o.flt.holdUntil ≤ o.now → exec (.faultORelease c) s = .next (s.after (d1.dropFaultO.goesOn q))) ∧
    (o.now < o.flt.holdUntil → exec (.faultORelease c) s = .next (s.after (d1.goesOn q)))))

/-! ### Maps, circuits and moves (chapters 05 and 06) -/

/-- A planned move whose links are ready and whose elements fit, with a key that waits in schedule entry `i` or one that runs now, is accepted: it is
entered behind the pending moves, left to its entry or run at once. Where the move sets one circuit or clears one, that circuit is then in state 1
with the plan's path, or in state 3 (R104, R120, R129). `d3` is the device once the shapes of a deadline move are resident.
Where the rules leave a choice the statement follows the model's: log entries 32, 56, 58, 136. -/
def Obligations.AcceptedMoveClaimsItsPlan : Prop :=
  ∀ (d d1 d2 : Dev) (c : Call) (k : Key) (w : Work) (p : Plan) (outs : List Nat) (result : Bytes),
    let named := (p.elems.map (fun x => x.1) ++ p.paths.flatMap (fun x => x.2.map (fun h => h.1))).eraseDups
    let counted := if p.dist = [] then d.bump R.rtpPlanCount else (d.bump R.rtpPlanCount).bump R.rtpDistCount
    (∀ l ∈ d.planLinks p outs, d.linkReady l = true) → counted.restoreFor named = some d1 →
    (∀ i d3, d1.keyState c k = (.waits i, d2) →
      let m := d.moveOf c k w p result (some i) none false
      d2.calendarOk [m] = true → (if m.klass = 0 then residentFor (m.elems.map (fun x => x.el)) d2 else some d2) = some d3 →
      d.acceptMove c k w p outs result = (d3.claimMove m w, .accepted result)) ∧
    (∀ d3, d1.keyState c k = (.now, d2) →
      let m := d.moveOf c k w p result none (some d.now) false
      d2.mayNotBegin m = true ∨ d2.calendarOk [m] = true →
        (if m.klass = 0 then residentFor (m.elems.map (fun x => x.el)) d2 else some d2) = some d3 →
        d.acceptMove c k w p outs result = ((d3.claimMove { m with fire := none } w).fireMove c.oid, .accepted result)) ∧
    (∀ m : Move, (d2.claimMove m w).rtp.moves = d2.rtp.moves ++ [m]) ∧
    (∀ (m : Move) (n : Nat) (x : PlanCirc), m.sets = [n] → m.clears = [] → aget w.circs n = some x →
      ∃ att, (d2.claimMove m w).circuit n = some ⟨1, x.inPort, x.outPort, att, x.path, false, 0, 0, 0, 0, Frac.zero⟩) ∧
    (∀ (m : Move) (n : Nat) (x : Circuit), m.sets = [] → m.clears = [n] → d2.circuit n = some x →
      (d2.claimMove m w).circuit n = some { x with state := 3 })

/-- CIRCUIT_SET, CIRCUIT_CLEAR and CIRCUIT_BATCH (R128, R130, R131) whose payload is legal and whose entries plan, while no map is loading: the command
does what the acceptance of the planned move does, after ACCEPTED with its result. CIRCUIT_CLEAR of 0xFFFF releases every adopted element, also while
a map is loading, and answers DONE after ACCEPTED. On a unit that is not the active unit of a pair; there R419 to R421 add their records.
Where the rules leave a choice the statement follows the model's: log entry 58. -/
def Obligations.CircuitCommandsPlanAndAccept : Prop :=
  ∀ (s : State) (c : Cmd) (q : Nat), s.dev.pairedActive = false →
  (∀ w id p, Starts s.dev 0x0202 c q →
    let a := s.dev.opened 0x0202 c q
    let k := s.dev.nextCall 0x0202 c q
    let result := circuitResult id p
    a.rtp.loading = none → rd c.payload 6 1 < 2 → rd c.payload 7 9 = 0 →
    a.planSet a.planStart 0 (rd c.payload 0 2) (rd c.payload 2 2) (rd c.payload 4 2) = .ok (w, id) →
    a.planFinish (bit (rd c.payload 6 1) 0) w = .ok p →
    (a.acceptMove k (keyAt c.payload 16) w p [rd c.payload 2 2] result).2 = .accepted result →
    exec (.circuitSet c) s = .next (s.after
      (((a.interim 0x0202 c q result).acceptMove k (keyAt c.payload 16) w p [rd c.payload 2 2] result).1.goesOn q))) ∧
  (∀ w p, Starts s.dev 0x0203 c q →
    let a := s.dev.opened 0x0203 c q
    let k := s.dev.nextCall 0x0203 c q
    let result := circuitResult (rd c.payload 0 2) p
    a.rtp.loading = none → rd c.payload 2 14 = 0 → rd c.payload 0 2 ≠ 0xFFFF →
    a.planClear a.planStart 0 (rd c.payload 0 2) = .ok w → a.planFinish false w = .ok p →
    (a.acceptMove k (keyAt c.payload 16) w p [] result).2 = .accepted result →
    exec (.circuitClear c) s = .next (s.after
      (((a.interim 0x0203 c q result).acceptMove k (keyAt c.payload 16) w p [] result).1.goesOn q))) ∧
  (Starts s.dev 0x0203 c q →
    let a := s.dev.opened 0x0203 c q
    let result := circuitResult 0xFFFF ⟨[], [], [], a.releaseAllAdopted.1, 0⟩
    let o := a.interim 0x0203 c q result
    rd c.payload 2 14 = 0 → rd c.payload 0 2 = 0xFFFF →
    exec (.circuitClear c) s = .next (s.after ((o.releaseAllAdopted.2.finish (s.dev.nextCall 0x0203 c q).oid St.done
      (circuitResult 0xFFFF ⟨[], [], [], o.releaseAllAdopted.1, 0⟩)).goesOn q))) ∧
  (∀ w ids outs p n, Starts s.dev 0x0206 c q →
    let a := s.dev.opened 0x0206 c q
    let k := s.dev.nextCall 0x0206 c q
    let result := le 2 n ++ le 2 p.dist.length ++ le 2 p.demand ++ le 2 p.waves ++ ids.flatMap (le 2) ++ p.dist.flatMap (le 2)
    a.rtp.loading = none → rd c.payload 32 1 = n → 1 ≤ n → n ≤ 60 → c.payload.length = 48 + 16 * n → rd c.payload 33 1 < 2 →
    rd c.payload 34 14 = 0 → a.planBatch c.payload (List.range n) a.planStart [] [] = .ok (w, ids, outs) →
    a.planFinish (bit (rd c.payload 33 1) 0) w = .ok p →
    (a.acceptMove k (keyAt c.payload 16) w p outs result).2 = .accepted result →
    exec (.circuitBatch c) s = .next (s.after
      (((a.interim 0x0206 c q result).acceptMove k (keyAt c.payload 16) w p outs result).1.goesOn q)))

/-- MAP_LOAD (R115 to R118) of a map that passes its checks and is signed by the owner, with no circuit, move or load in the way: the map is noted as
loading and every adopted element released; it takes effect at a frame boundary, where MAP_LOAD_COMPLETE installs it and gives the final reply. On a
unit that is not the active unit of a pair.
Where the rules leave a choice the statement follows the model's: log entries 24, 57. -/
def Obligations.MapLoadInstallsCheckedMap : Prop :=
  (∀ (s : State) (c : Cmd) (q key : Nat) (m : FabricMap), s.dev.pairedActive = false → Starts s.dev 0x0201 c q →
    let o := (s.dev.opened 0x0201 c q).interim 0x0201 c q []
    let img := fitBytes (rd c.payload 8 4) c.image
    rd c.payload 0 8 % 8 = 0 → rd c.payload 12 4 = 0 → o.rtp.circuits = [] → o.rtp.moves = [] → o.rtp.loading = none →
    o.hst.ownerKey = some key → Config.ecdsaVerify key img ((c.payload.drop 16).take 96) = true → checkMap img (rd c.payload 8 4) = (0, m) →
    let d1 := (o.setFlag F.rtpMapStat_loading true).releaseAllAdopted.2
    exec (.mapLoad c) s = .next (s.after
      (({ d1 with rtp := { d1.rtp with loading := some ((s.dev.nextCall 0x0201 c q).oid, m) } } : Dev).goesOn q))) ∧
  (∀ (s : State) (oid : Nat) (m : FabricMap), s.dev.rtp.loading = some (oid, m) →
    let d1 := (((s.dev.advance (s.dev.strobeFrom s.dev.now)).setFlag F.rtpMapStat_loading false).installMap m).bindMap
    exec .mapLoadComplete s = .next (s.after
      (({ d1 with rtp := { d1.rtp with loading := none } } : Dev).finish oid St.done (mapResult m 0)))) ∧
  (∀ s : State, s.dev.rtp.loading = none → exec .mapLoadComplete s = .next (s.after s.dev))

/-- PORT_CEILING (R135) for a port of the map, at or below its `ceil_max`, sets the ceiling that the port has from the next frame; with `unblank`, where
the link of the port's VOA is ready and no map is loading, it also unblanks a blanked port whose output reads at most the new ceiling and the trip
margin, and it is a CONFLICT for a port that is not blanked and REFUSED above that reading. A ceiling above `ceil_max` is refused with REFUSED.
MOVE_CANCEL (R485) of the requester's own move, none of whose elements has started, answers DONE and notes the withdrawal, which follows the reply;
a tag without a move is BAD_PARAM, and a started move is CONFLICT and counted.
Where the rules leave a choice the statement follows the model's: log entries 59, 61, 121. -/
def Obligations.PortCeilingAndMoveCancelTakeEffect : Prop :=
  (∀ (s : State) (c : Cmd) (q p : Nat) (ceil : Int), Starts s.dev 0x0205 c q → rd c.payload 0 2 = p → signed 16 (rd c.payload 2 2) = ceil →
    rd c.payload 4 1 < 2 → rd c.payload 5 3 = 0 →
    let o := s.dev.opened 0x0205 c q
    let oid := (s.dev.nextCall 0x0205 c q).oid
    let d1 := o.nextCeiling p (rd c.payload 2 2)
    let max := signed 16 (o.fld (F.rtpCeiling_ceilMax p))
    p < o.rtp.map.ports →
    (ceil ≤ max → rd c.payload 4 1 = 0 → exec (.portCeiling c) s = .next (s.after (d1.replied 0x0205 c q oid St.done []))) ∧
    (max < ceil → rd c.payload 4 1 = 0 →
      exec (.portCeiling c) s = .next (s.after (o.replied 0x0205 c q oid St.refused []))) ∧
    (rd c.payload 4 1 = 1 → o.linkReady (linkOf (o.voaOf p)) = true → o.rtp.loading = none → ceil ≤ max →
      (o.portBlanked p = true → o.outReading p ≤ ceil + (o.rtp.map.tripMargin : Int) →
        exec (.portCeiling c) s = .next (s.after ((d1.unblank p).replied 0x0205 c q oid St.done []))) ∧
      (o.portBlanked p = true → ceil + (o.rtp.map.tripMargin : Int) < o.outReading p →
        exec (.portCeiling c) s = .next (s.after (o.replied 0x0205 c q oid St.refused []))) ∧
      (o.portBlanked p = false →
        exec (.portCeiling c) s = .next (s.after ((o.bump R.rtpConflCount).replied 0x0205 c q oid St.conflict []))))) ∧
  (∀ (s : State) (c : Cmd) (q : Nat), Starts s.dev 0x0302 c q →
    let o := s.dev.opened 0x0302 c q
    let oid := (s.dev.nextCall 0x0302 c q).oid
    let found := o.rtp.moves.find? (fun m => m.owner = q && m.tag = rd c.payload 0 4)
    (∀ m, found = some m → (∀ x ∈ m.elems, x.started = false) →
      exec (.moveCancel c) s = .next (s.after
        (({ o with cpx := { o.cpx with post := o.cpx.post ++ [.cancel m.oid] } } : Dev).replied 0x0302 c q oid St.done []))) ∧
    (∀ m x, found = some m → x ∈ m.elems → x.started = true →
      exec (.moveCancel c) s = .next (s.after ((o.bump R.rtpConflCount).replied 0x0302 c q oid St.conflict []))) ∧
    (found = none → exec (.moveCancel c) s = .next (s.after (o.replied 0x0302 c q oid St.badParam []))))

/-! ### Loop engines, laws, traces, placement and memory (chapters 07 to 09, 19, 20) -/

/-- LOOP_BIND (R190) of a slot that fits the engines and SETPOINT_SET (R191), for an element whose link is ready, note the new binding or operand for the
next strobe, and ask for the loop to be resident; PLACE_PIN of a loop to a block of its engine that the placement still chooses, PLACE_UNPIN of a
pinned loop, and PLACE_HINT of the kinds 0 and 3 (R232 to R234) change the pins and hints. Each answers DONE. -/
def Obligations.LoopAndPlacementCommandsTakeEffect : Prop :=
  ∀ (s : State) (c : Cmd) (q : Nat),
  (∀ el slot set, Starts s.dev 0x0402 c q → rd c.payload 0 2 = el → rd c.payload 2 1 = slot → rd c.payload 3 1 = 0 → rd c.payload 4 2 = set →
    rd c.payload 6 2 = 0 → slot ≤ 63 → set ≤ 0x0FFE →
    let o := s.dev.opened 0x0402 c q
    (48 ≤ slot → o.bindFits el slot set = true) →
    o.isDrive el = true → o.slotEmpty slot = false → o.slotKind slot = o.rtp.map.kind el - 1 → o.setFilled set = true →
    o.linkReady (linkOf el) = true → o.inSluice el = false → o.claimed el = false →
    exec (.loopBind c) s = .next (s.after (((o.setLoop el { o.loop el with bindDue := some (slot, set) }).requestRestore el).replied 0x0402 c q
      (s.dev.nextCall 0x0402 c q).oid St.done []))) ∧
  (∀ el w, Starts s.dev 0x0404 c q → rd c.payload 0 2 = el → rd c.payload 2 2 = 0 → BitVec.ofNat 32 (rd c.payload 4 4) = w →
    let o := s.dev.opened 0x0404 c q
    o.isDrive el = true → (o.loop el).slot ≠ 0xFF → (o.loop el).slot ≠ 1 →
    ((o.loop el).slot ≠ 0 ∨ Frac.lt (Frac.mk2 1 10) (coefValue w).abs = false) → o.linkReady (linkOf el) = true →
    exec (.setpointSet c) s = .next (s.after (((o.setLoop el { o.loop el with operandDue := some w }).requestRestore el).replied 0x0404 c q
      (s.dev.nextCall 0x0404 c q).oid St.done []))) ∧
  (∀ el e, Starts s.dev 0x0501 c q → rd c.payload 0 2 = el → rd c.payload 2 1 = e → rd c.payload 3 1 = 0xFF → rd c.payload 4 4 = 0 →
    el ≤ 6143 → e ≤ 15 →
    let o := s.dev.opened 0x0501 c q
    (14 ≤ e → o.flag F.lpcPowerCfg_reserve = false) →
    o.rtp.map.kind el ≠ 0 → (o.loop el).slot ≠ 0xFF → o.plm.pins.length < 512 → o.engCost e + o.slotCost (o.loop el).slot ≤ 1100 →
    o.fld (F.lpcEngStat_state e) = 2 → o.inSluice el = false → (o.blocks e)[0xFF]? = none →
    let d1 : Dev := { o with plm := { o.plm with pins := o.plm.pins.filter (fun (x : Pin) => x.el ≠ el) ++ [⟨el, e, 0xFF, false, true⟩] } }
    exec (.placePin c) s = .next (s.after ((d1.requestRestore el).replied 0x0501 c q (s.dev.nextCall 0x0501 c q).oid St.done []))) ∧
  (Starts s.dev 0x0502 c q → rd c.payload 2 2 = 0 →
    let o := s.dev.opened 0x0502 c q
    o.pinned (rd c.payload 0 2) = true →
    exec (.placeUnpin c) s = .next (s.after
      (({ o with plm := { o.plm with pins := o.plm.pins.filter (fun x => x.el ≠ rd c.payload 0 2) } } : Dev).replied 0x0502 c q
        (s.dev.nextCall 0x0502 c q).oid St.done []))) ∧
  (∀ first n k, Starts s.dev 0x0503 c q → rd c.payload 0 2 = first → rd c.payload 2 2 = n → rd c.payload 4 1 = k → rd c.payload 5 3 = 0 →
    1 ≤ n → first + n ≤ 6144 → (k = 0 ∨ k = 3) →
    let o := s.dev.opened 0x0503 c q
    exec (.placeHint c) s = .next (s.after ((o.setHints ((List.range n).map (fun i => first + i)) k).replied 0x0503 c q
      (s.dev.nextCall 0x0503 c q).oid St.done [])))

/-- LAW_LOAD of a law that passes the checks of R210, and COEF_SWAP of sets that satisfy R192, are accepted: the law's words stand in free owner words and
its record in the NV store, and the law waits for its switch; the sets wait in the shadow bank for their boundary. LAW_SWITCH (R211) puts the first
waiting law of its slot in force at its boundary, unless that law still has to wait, and COEF_SWAP_BOUNDARY (R187) swaps the sets whose boundary comes
first, behind what else takes effect there. The commands are those of a unit that is not the active unit of a pair; there R421 forwards them first.
Where the rules leave a choice the statement follows the model's: log entries 69, 72, 134. -/
def Obligations.LawLoadAndCoefSwapWaitForTheirBoundary : Prop :=
  (∀ (s : State) (c : Cmd) (q slot : Nat), s.dev.pairedActive = false → Starts s.dev 0x0401 c q →
    let o := (s.dev.opened 0x0401 c q).interim 0x0401 c q []
    let img := fitBytes (rd c.payload 8 4) c.image
    let n := rd img 8 2
    let base := (o.ownerSpace n).getD 3072
    let words := (List.range n).map (fun i => storedWord base (lawWord img i))
    let law : LawLoad := ⟨(s.dev.nextCall 0x0401 c q).oid, slot, words, base, rd img 6 1, rd img 10 2, rd img 16 4, rd img 20 4, Config.sha384 img,
      o.lawRecordOf slot, 0⟩
    rd c.payload 12 1 = slot → 48 ≤ slot → o.lawCheck c.payload img = none →
    exec (.lawLoad c) s = .next (s.after
      ((({ o with lpc := { o.lpc with laws := o.lpc.laws ++ [law], ucode := putWords words base o.lpc.ucode },
                  hst := { o.hst with lawStore := aput o.hst.lawStore slot (lawRecord slot img ((c.payload.drop 16).take 96)) } } : Dev).showOwner).goesOn
                    q))) ∧
  (∀ (s : State) (slot : Nat) (l : LawLoad), 48 ≤ slot → slot < 64 → s.dev.lpc.laws.find? (fun l => l.slot = slot) = some l →
    (s.dev.lawWaits l = false → exec (.lawSwitch slot) s = .next (s.after ((s.dev.advance (s.dev.lawTick l)).switchLaw l))) ∧
    (s.dev.lawWaits l = true → exec (.lawSwitch slot) s = .next (s.after s.dev))) ∧
  (∀ (s : State) (c : Cmd) (q n : Nat), s.dev.pairedActive = false → Starts s.dev 0x0403 c q →
    let o := (s.dev.opened 0x0403 c q).interim 0x0403 c q []
    let sets := (List.range n).map (fun k => rd c.payload (16 + 36 * k) 2)
    rd c.payload 0 2 = n → 1 ≤ n → n ≤ 27 → c.payload.length = 16 + 36 * n → rd c.payload 2 6 = 0 → rd c.payload 8 8 ≤ o.frame + 400000 →
    (∀ x ∈ sets, x ≤ 0x10FF) → sets.eraseDups.length = n →
    (∀ k < n, rd c.payload (18 + 36 * k) 2 = 0 ∧ validSet (swapWords c.payload k) = true) →
    (∀ x ∈ o.lpc.swaps, ∀ y ∈ x.sets, y ∉ sets) →
    let shadow := (List.range n).foldl (fun t k => tput (fun _ => []) t (rd c.payload (16 + 36 * k) 2) (swapWords c.payload k)) o.lpc.shadow
    let due : SwapDue := ⟨(s.dev.nextCall 0x0403 c q).oid, if rd c.payload 8 8 ≤ o.frame then o.frame + 1 else rd c.payload 8 8,
      sets.any (fun x => decide (0x1000 ≤ x)), sets⟩
    let named := (o.lpc.loops.filter (fun (x : Nat × Loop) => x.2.evicted && sets.contains x.2.set)).map (fun x => x.1)
    exec (.coefSwap c) s = .next (s.after
      ((named.foldl Dev.requestRestore { o with lpc := { o.lpc with shadow := shadow, swaps := o.lpc.swaps ++ [due] } }).goesOn q))) ∧
  (∀ (s : State) (a : SwapDue) (r : List SwapDue), s.dev.lpc.swaps = a :: r →
    let t := (r.map s.dev.swapTick).foldl min (s.dev.swapTick a)
    exec .coefSwapBoundary s = .next (s.after ((s.dev.lpc.swaps.filter (fun x => s.dev.swapTick x = t)).foldl Dev.applySwap (s.dev.boundary t))))

/-- TRACE_ARM (R194) arms a legal trace and clears the last; TRACE_TRIGGER has its effect on an armed trace whose trigger condition holds,
TRACE_CAPTURE_COMPLETE ends a triggered one with nothing left to capture and publishes event 0x0D02, TRACE_STOP ends a running one at once; HARVEST
(R195) of a legal area is accepted outside a capture, and HARVEST_COMPLETE writes the records to DDR5 and answers their length and number. Every DDR5
address outside the run of bytes written reads as before, and the cells stay in their canonical form.
Where the rules leave a choice the statement follows the model's: log entries 39, 71. -/
def Obligations.TraceIsArmedTriggeredAndHarvested : Prop :=
  (∀ (s : State) (c : Cmd) (q n : Nat), Starts s.dev 0x0D01 c q →
    let o := s.dev.opened 0x0D01 c q
    let sigs := (List.range n).map (fun j => (⟨rd c.payload (24 + 4 * j) 2, rd c.payload (26 + 4 * j) 1⟩ : TraceSignal))
    rd c.payload 0 1 = n → 1 ≤ n → n ≤ 32 → c.payload.length = 24 + 4 * n → rd c.payload 1 1 ≤ 3 →
    (rd c.payload 1 1 = 2 → rd c.payload 12 8 ≤ 422) → rd c.payload 2 2 = 0 → rd c.payload 20 4 = 0 →
    (∀ x ∈ sigs, x.quantity ≤ 8 ∧ (x.source < 6144 ∨ (0x8000 ≤ x.source ∧ x.source ≤ 0x8000 + 100))) →
    (∀ j < n, rd c.payload (27 + 4 * j) 1 = 0) → rd c.payload 4 4 ≤ 2097152 / (8 + 4 * n) → rd c.payload 8 4 ≤ rd c.payload 4 4 →
    o.flag F.lpcTraceStat_harvesting = false →
    let t : Trace := { signals := sigs, trigKind := rd c.payload 1 1, trigArg := rd c.payload 12 8, depth := rd c.payload 4 4, pre := rd c.payload 8 4 }
    let d1 : Dev := { o with lpc := { o.lpc with trace := t } }
    let d2 : Dev := { d1 with lpc := { d1.lpc with trace := { t with seen := d1.traceWatch, seenBefore := d1.traceWatch } } }
    let d3 := (((d2.setReg R.lpcTraceStat 0).setFld F.lpcTraceStat_tstate 1).setFld F.lpcTraceStat_nSig n).setRegN R.lpcTraceCount 0
    exec (.traceArm c) s = .next (s.after
      ((((sigs.filter (fun x => decide (x.source < 6144))).map (fun x => x.source)).foldl Dev.requestRestore d3).replied 0x0D01 c q
        (s.dev.nextCall 0x0D01 c q).oid St.done []))) ∧
  (∀ s : State, s.dev.fld F.lpcTraceStat_tstate = 1 → s.dev.traceTriggers = true →
    exec .traceTrigger s = .next (s.after s.dev.traceTrigger)) ∧
  (∀ s : State, s.dev.fld F.lpcTraceStat_tstate = 2 → s.dev.lpc.trace.left = 0 → s.dev.lpc.trace.trigDue = false →
    exec .traceCaptureComplete s = .next (s.after
      ((s.dev.setFld F.lpcTraceStat_tstate 3).event 0x0D02 0 (le 4 s.dev.lpc.trace.records.length)))) ∧
  (∀ (s : State) (c : Cmd) (q : Nat), Starts s.dev 0x0D03 c q →
    let o := s.dev.opened 0x0D03 c q
    exec (.traceStop c) s = .next (s.after
      ((if o.tracing then o.setFld F.lpcTraceStat_tstate 3 else o).replied 0x0D03 c q (s.dev.nextCall 0x0D03 c q).oid St.done []))) ∧
  (∀ (s : State) (c : Cmd) (q a n : Nat), Starts s.dev 0x0D02 c q → rd c.payload 0 8 = a → rd c.payload 8 4 = n → rd c.payload 12 4 = 0 →
    a % 64 = 0 → 0x080000000 ≤ a → a + n ≤ 0x280000000 →
    let o := (s.dev.opened 0x0D02 c q).interim 0x0D02 c q []
    o.tracing = false → o.flag F.lpcTraceStat_harvesting = false →
    let d1 := o.setFlag F.lpcTraceStat_harvesting true
    exec (.harvest c) s = .next (s.after
      (({ d1 with lpc := { d1.lpc with trace := { d1.lpc.trace with harvest := some ((s.dev.nextCall 0x0D02 c q).oid, a, n) } } } : Dev).goesOn q))) ∧
  (∀ (s : State) (oid a n : Nat), s.dev.lpc.trace.harvest = some (oid, a, n) →
    let h := harvestBytes s.dev.lpc.trace (s.dev.fld F.lpcTraceStat_missed) n
    let d1 := s.dev.setFlag F.lpcTraceStat_harvesting false
    let d2 : Dev := { d1 with lpc := { d1.lpc with trace := { d1.lpc.trace with harvest := none } },
                              mem := { d1.mem with ddr := putBytes h.1 a d1.mem.ddr } }
    exec .harvestComplete s = .next (s.after
      (d2.finishCut oid St.done (le 4 h.1.length ++ le 4 h.2) (decide (h.2 < s.dev.lpc.trace.records.length)))) ∧
    (∀ x, x < a ∨ a + h.1.length ≤ x → aget d2.mem.ddr x = aget s.dev.mem.ddr x) ∧
    (∀ i < h.1.length, aget d2.mem.ddr (a + i) = h.1[i]?) ∧ (Memory.wf s.dev.mem.ddr → Memory.wf d2.mem.ddr))

/-- The rows of the engines and of placement (R181, R196, R197, R221, R223, R227): an engine is drained, enabled or restarted; a parity error found in
a microcode store before `ucode` is set is told and the store written again, once for each engine, and any other parity error stops its engine; the
block whose turn it is on an engine that is not stopped is evaluated; the cut-off of the samples, the reviews, the migration steps and the restores
of the placement manager have their effect.
Where the rules leave a choice the statement follows the model's: log entries 70, 73, 74, 75. -/
def Obligations.EngineAndPlacementRowsTakeEffect : Prop :=
  ∀ s : State,
  (∀ e < 16, exec (.engineDisable e) s = .next (s.after (s.dev.engineOff e)) ∧ exec (.engineEnable e) s = .next (s.after (s.dev.engineOn e)) ∧
    ∀ good, exec (.engineRestart e good) s = .next (s.after (s.dev.restartEngine e good))) ∧
  (∀ e < 16, ∀ lane, s.dev.flag F.cpxReady1_ucode = true ∨ lane = true ∨ e ∈ s.dev.lpc.rewritten →
    exec (.engineParityError e lane) s = .next (s.after (
      let d1 := ((s.dev.setFlag (F.lpcEngErr_stopped e) true).setFlag (if lane then F.lpcEngErr_lanePar e else F.lpcEngErr_ucodePar e) true).setFld
        (F.lpcEngStat_state e) 5
      let d2 := (if 14 ≤ e ∧ s.dev.flag (F.lpcEngErr_stopped e) = false then d1.powerStop e else d1).resetMaster 3
      (((d2.event 0x0402 e (le 1 (if lane then 2 else 1))).raiseLevel (279 + e)).breakPins e).replaceBlocks e))) ∧
  (∀ e < 16, s.dev.flag F.cpxReady1_ucode = false → e ∉ s.dev.lpc.rewritten →
    exec (.engineParityError e false) s = .next (s.after
      (({ s.dev with lpc := { s.dev.lpc with rewritten := s.dev.lpc.rewritten ++ [e] } } : Dev).event 0x0406 e (le 1 1)))) ∧
  (∀ e b x, e < 16 → b < 68 → (s.dev.blocks e)[b]? = some x → s.dev.fld (F.lpcEngStat_state e) ≠ 5 → s.dev.nextBlock e = some b →
    exec (.blockEvaluate e b) s = .next (s.after (s.dev.runBlock e b (s.dev.blockStart e x)))) ∧
  (∀ e b, e < 16 → b < 68 → s.dev.nextBlock e ≠ some b ∨ s.dev.fld (F.lpcEngStat_state e) = 5 → exec (.blockEvaluate e b) s = .next (s.after s.dev)) ∧
  exec .regroupDisable s = .next (s.after (s.dev.setFlag F.plmCtrl_regroupEn false)) ∧
  exec .evictDisable s = .next (s.after (s.dev.setFlag F.plmCtrl_evictEn false)) ∧
  (s.dev.flag F.cpxReady1_cmu = false → exec .powerReserveClear s = .next (s.after (s.dev.setFlag F.lpcPowerCfg_reserve false))) ∧
  (s.dev.flag F.cpxReady1_cmu = true → exec .powerReserveClear s = .next (s.after s.dev)) ∧
  exec .migrationStep s = .next (s.after ((s.dev.advance (s.dev.strobeFrom s.dev.now)).migrate)) ∧
  (∀ el < 6144, (∃ r ∈ s.dev.plm.restores, r.1 = el) → exec (.loopRestore el) s = .next (s.after (s.dev.restoreLoop el))) ∧
  (∀ el < 6144, (∀ r ∈ s.dev.plm.restores, r.1 ≠ el) → exec (.loopRestore el) s = .next (s.after s.dev)) ∧
  (let d := s.dev.advance (s.dev.nextMultiple (s.dev.fld F.plmCfg_review))
   let d1 := if d.flag F.plmCtrl_regroupEn then d.reviewBlocks else d
   let d2 := d1.returnSpares
   let d3 := if d2.flag F.plmCtrl_evictEn then (d2.residentLoops.filter d2.evictable).foldl Dev.evict d2 else d2.restoreSome
   exec .placementReview s = .next (s.after
     ((d3.plm.unplaced.map (fun x => x.1)).foldl (fun d e => if (d.loop e).evicted then d.restoreLoop e else d.placeLoop e) d3).mendPins)) ∧
  (let d := s.dev.advance (s.dev.intoFrame 1000)
   let d1 := engines.foldl (fun d e => if d.fld (F.lpcEngStat_state e) = 5 then d else
     cutEngine e (d.waitingBlocks e) d) d
   exec .sampleCutoff s = .next (s.after ((List.range 32).foldl (fun d l =>
     if d.linkReady l then
       if (d.elink l).ready && (d.elink l).lostParts = 0 then d.setElink l { d.elink l with masked := 0 }
       else
         let d1 := d.setElink l { d.elink l with masked := (d.elink l).masked + 1 }
         d1.setFld (F.elkLateCount_masked l) (d1.fld (F.elkLateCount_masked l) + 1)
     else d) d1)))

/-- The memory rows (R446, R447, R451, R452) count, record and raise what they report, and JTAG (R471) selects its register: EXTEST and SAMPLE/PRELOAD
only while PORST_N is low, any instruction that is not IDCODE as BYPASS otherwise.
Where the rules leave a choice the statement follows the model's: log entries 16, 99. -/
def Obligations.MemoryAndJtagRowsTakeEffect : Prop :=
  ∀ (s : State) (arg addr : Nat),
  (∀ reader < 6, exec (.sramUncorrectable reader arg addr) s = .next (s.after
    ((((s.dev.bumpTop R.memSramUe).errorAt 2 addr).readerFails reader arg).raise 418))) ∧
  (∀ ch < 2, ∀ reader < 6, exec (.ddrUncorrectable ch reader arg addr) s = .next (s.after
    ((((s.dev.bumpTop (R.memDdrUe ch)).errorAt ch addr).readerFails reader arg).raise (416 + ch)))) ∧
  (∀ ch < 2, exec (.eccCorrectedError ch addr) s = .next (s.after ((s.dev.bump (R.memDdrCe ch)).errorAt ch addr))) ∧
  exec (.eccCorrectedError 2 addr) s = .next (s.after ((s.dev.bump R.memSramCe).errorAt 2 addr)) ∧
  (∀ ch < 2, exec (.ddrTrainingFailed ch) s = .next (s.after
    (((s.dev.setDstate ch 4).setFlag (F.memDdrStat_spdBad ch) true).setFlag (if ch = 0 then F.cpxReady1_ddr0 else F.cpxReady1_ddr1) false))) ∧
  (∀ ir, exec (.jtagInstruction ir) s = .next (s.after { s.dev with mem := { s.dev.mem with jtagIr :=
    if ir = 1 then 1 else if s.dev.mem.porst = false ∧ (ir = 2 ∨ ir = 3) then ir else 0 } }))

/-! ### Time, trains, marks, the catenary, economy mode, sensors and supplies (chapters 01, 04, 18) -/

/-- R86: TBU.FRAME_LO and TBU.FRAME_HI show the timebase count divided by 1000, rounded down, and TBU.CYCLE the timebase count modulo 1000, all of one
counter. -/
def Obligations.FrameCountIsTimebaseOverThousand : Prop :=
  ∀ d : Dev, d.localFrame = d.count / 1000 ∧ d.view R.tbuFrameLo = BitVec.ofNat 32 (d.count / 1000) ∧
    d.view R.tbuFrameHi = BitVec.ofNat 32 (d.count / 1000 / 2 ^ 32) ∧ d.view R.tbuCycle = BitVec.ofNat 32 (d.count % 1000)

/-- R91: the extrapolated position is p_ref + v × (t − t_ref), with the speed in mm/s and the times in ns, rounded towards p_ref to whole millimetres:
it lies between p_ref and the exact value, less than 1 mm from that. -/
def Obligations.TrainPositionRoundsTowardsReference : Prop :=
  ∀ (x : Train) (t : Int),
    let exact := x.speed * (t - x.tRef)
    let moved := x.at t - x.pRef
    (0 ≤ exact → 0 ≤ moved ∧ moved * 1000000000 ≤ exact ∧ exact < (moved + 1) * 1000000000) ∧
    (exact ≤ 0 → moved ≤ 0 ∧ exact ≤ moved * 1000000000 ∧ (moved - 1) * 1000000000 < exact)

/-- TRAIN_REPORT (R92 to R95) of a train that is not tracked tracks it from the reported point, at the reported instant while `ptp` is set and at the
arrival otherwise; a report not later than the last of its train is answered as superseded and changes no train. TRAIN_DROP ends the tracking and
closes its marks. The marks that are due fire before either. WSENSE_CONFIG (R96) sets the sensor and starts its quiet time. Each answers DONE.
Where the rules leave a choice the statement follows the model's: log entries 52, 54. -/
def Obligations.TrainAndSensorCommandsTakeEffect : Prop :=
  ∀ (s : State) (c : Cmd) (q : Nat),
  (∀ t, Starts s.dev 0x0601 c q → rd c.payload 0 1 = t → t ≤ 63 → rd c.payload 1 1 = 0 → rd c.payload 12 4 = 0 →
    (signed 32 (rd c.payload 8 4)).natAbs ≤ 150000 →
    let o := s.dev.opened 0x0601 c q
    let at_ : Int := if o.flag F.cpxReady1_ptp then (rd c.payload 16 8 : Nat) else o.wall
    (o.flag F.cpxReady1_ptp = true → at_ ≤ o.wall + 10000000) →
    let x : Train := ⟨rd c.payload 2 2, signed 32 (rd c.payload 4 4), at_, signed 32 (rd c.payload 8 4), at_, 0⟩
    let a := o.fireAllDue
    let d1 := (a.setTrain t { x with level := a.confidence x }).recheckTrain t
    (a.train t = none → exec (.trainReport c) s = .next (s.after (d1.replied 0x0601 c q (s.dev.nextCall 0x0601 c q).oid St.done
      (le 1 (match d1.train t with | some y => d1.confidence y | none => 0) ++ le 1 0)))) ∧
    (∀ y, a.train t = some y → at_ ≤ y.tLast → exec (.trainReport c) s = .next (s.after (a.replied 0x0601 c q
      (s.dev.nextCall 0x0601 c q).oid St.done (le 1 (a.confidence y) ++ le 1 1))))) ∧
  (∀ t, Starts s.dev 0x0602 c q → rd c.payload 0 1 = t → t ≤ 63 → rd c.payload 1 3 = 0 →
    let o := s.dev.opened 0x0602 c q
    let k := o.fireAllDue.closeMarks t St.refused (fun _ => true)
    exec (.trainDrop c) s = .next (s.after (({ k.2 with tbu := { k.2.tbu with trains := adel k.2.tbu.trains t } } : Dev).replied 0x0602 c q
      (s.dev.nextCall 0x0602 c q).oid St.done (le 4 k.1)))) ∧
  (∀ i, Starts s.dev 0x0603 c q → rd c.payload 0 1 = i → i ≤ 7 → rd c.payload 1 1 < 4 → 1 ≤ rd c.payload 8 2 → rd c.payload 8 2 ≤ 1000 →
    100 ≤ rd c.payload 10 2 → rd c.payload 10 2 ≤ 10000 → 100 ≤ rd c.payload 12 4 → rd c.payload 12 4 ≤ 100000 →
    let o := s.dev.opened 0x0603 c q
    let w : WheelSensor := ⟨bit (rd c.payload 1 1) 0, bit (rd c.payload 1 1) 1, rd c.payload 2 2, signed 32 (rd c.payload 4 4),
      rd c.payload 8 2, rd c.payload 10 2, rd c.payload 12 4, o.now⟩
    exec (.wsenseConfig c) s = .next (s.after ((o.setWheel i w).replied 0x0603 c q (s.dev.nextCall 0x0603 c q).oid St.done [])))

/-- The rows of wall time, trains and marks (R87 to R89, R94 to R98, R101): a usable Sync feeds the servo, and any other changes nothing; holdover begins
4 s after the last usable one with event 0x0608 and ends `ptp` after `holdover` seconds with event 0x0609 and source 303; a wheel pulse has its
effect; the confidence of a train falls when its age passes 2 s or 10 s; an entry of its kind in state 1 that has a predicted instant fires, with all
that are due by then, and any other stays. The rows of the catenary tracker (R107 to R109, R112, R486): a lock, a loss, a loss of lock above the loss
level and the end of the flywheel have their effect, the entries that are due firing first, and a word that CAT_CFG does not take changes nothing.
Where the rules leave a choice the statement follows the model's: log entries 52, 53, 54, 118, 127, 130. -/
def Obligations.TimeMarkAndCatenaryRowsTakeEffect : Prop :=
  (∀ s : State,
  (∀ m, s.dev.syncUsable m = true → exec (.ptpSync m) s = .next (s.after (s.dev.ptpSync m.offset))) ∧
  (∀ m, s.dev.syncUsable m = false → exec (.ptpSync m) s = .next (s.after s.dev)) ∧
  (∀ t, s.dev.flag F.cpxReady1_ptp = true → s.dev.fld F.tbuPtpStat_pstate ≠ 2 → s.dev.tbu.lastSync = some t →
    let d1 := (s.dev.advance (t + 32000000000)).setFld F.tbuPtpStat_pstate 2
    exec .ptpHoldoverEnter s = .next (s.after (({ d1 with tbu := { d1.tbu with holdoverFrom := some d1.now } } : Dev).event 0x0608 0 []))) ∧
  (∀ t, s.dev.tbu.holdoverFrom = some t →
    let d1 := ((s.dev.advance (t + s.dev.fld F.tbuPtpCtrl_holdover * 8000000000)).setFlag F.cpxReady1_ptp false).setFld F.tbuPtpStat_pstate 3
    exec .ptpHoldoverExpiry s = .next (s.after
      (((({ d1 with tbu := { d1.tbu with holdoverFrom := none, goodSyncs := 0 } } : Dev).event 0x0609 0 []).raiseLevel 303).updateLevels))) ∧
  (s.dev.tbu.holdoverFrom = none → exec .ptpHoldoverExpiry s = .next (s.after s.dev)) ∧
  (∀ i < 8, exec (.wheelPulse i) s = .next (s.after (s.dev.wheelPulse i))) ∧
  (∀ t x, t < 64 → s.dev.train t = some x → x.level ≠ 0 → exec (.trainConfidenceFall t) s = .next (s.after
    (((s.dev.advance (s.dev.tickOfTai (x.tLast + (if x.level = 1 then 10000000001 else 2000000001))).toNat).fireAllDue).updateLevel t))) ∧
  (∀ i e t, i < 4096 → aget s.dev.tbu.sched i = some e → e.state = 1 → e.predicted = some t →
    (e.key.kind = 1 ∨ e.key.kind = 2 → exec (.markFire i) s = .next (s.after (s.dev.advance t).fireAllDue)) ∧
    (e.key.kind = 3 → exec (.angleMarkFire i) s = .next (s.after (s.dev.advance t).fireAllDue))) ∧
  (∀ i e, i < 4096 → aget s.dev.tbu.sched i = some e → e.state ≠ 1 ∨ e.predicted = none →
    exec (.markFire i) s = .next (s.after s.dev) ∧ exec (.angleMarkFire i) s = .next (s.after s.dev))) ∧
  (∀ s : State,
  (∀ angle freq amp, s.dev.trackerRuns = true → s.dev.flag F.tbuCatStat_locked = false →
    inLockRange (s.dev.fld F.tbuCatCfg_system) freq = true → s.dev.belowLoss amp = false →
    exec (.angleLock angle freq amp) s = .next (s.after (s.dev.lockAngle (angle % 2 ^ 32) freq amp))) ∧
  (∀ amp, s.dev.trackerRuns = true → s.dev.flag F.tbuCatStat_lost = false → s.dev.belowLoss amp = true →
    exec (.catenaryLoss amp) s = .next (s.after
      ((((((s.dev.fireAllDue.setAmplitude amp).setFlag F.tbuCatStat_lost true).event 0x060A 0 (le 4 amp)).startFlywheel).raiseLevel 304).sstCatLost))) ∧
  (∀ amp, s.dev.trackerRuns = false ∨ s.dev.flag F.tbuCatStat_lost = true ∨ s.dev.belowLoss amp = false →
    exec (.catenaryLoss amp) s = .next (s.after s.dev)) ∧
  (∀ freq, s.dev.flag F.tbuCatStat_locked = true → inLockRange (s.dev.fld F.tbuCatCfg_system) freq = false →
    s.dev.belowLoss (s.dev.fld F.tbuCatStat_amplitude) = false →
    let d1 := s.dev.fireAllDue
    exec (.lossOfLock freq) s = .next (s.after
      ((((d1.startFlywheel).setRegN R.tbuFreq freq).repredictAngle (d1.angleAt d1.now)).event 0x060E 0 (le 4 freq)))) ∧
  (∀ freq, s.dev.flag F.tbuCatStat_locked = false ∨ inLockRange (s.dev.fld F.tbuCatCfg_system) freq = true →
    exec (.lossOfLock freq) s = .next (s.after s.dev)) ∧
  (∀ t, s.dev.tbu.flywheelFrom = some t →
    let d1 := ((s.dev.advance (t + s.dev.fld F.tbuCatCfg_flyMax * 800000000)).fireAllDue).setFlag F.tbuCatStat_flywheel false
    let h := (d1.setFlag F.cpxReady1_angle false).holdEntries (fun e => e.key.kind = 3)
    exec .flywheelExpiry s = .next (s.after
      ((({ h.2 with tbu := { h.2.tbu with flywheelFrom := none } } : Dev).event 0x060D 0 (le 4 h.1)).raiseLevel 305))) ∧
  (s.dev.tbu.flywheelFrom = none → exec .flywheelExpiry s = .next (s.after s.dev)) ∧
  (∀ v, catCfgOk v = true → exec (.catCfgWrite v) s = .next (s.after (s.dev.writeCatCfg v))) ∧
  (∀ v, catCfgOk v = false → exec (.catCfgWrite v) s = .next (s.after s.dev)))

/-- The frame strobe, the end of economy mode, and the rows of the sensors and supplies (R27, R85, R432 to R443): outside reset a strobe opens the next
frame; economy mode ends when its dwell is over; the throttle level falls by one after 100 ms, at once or, while loops run divided, from the next
strobe; the first reading of a sensor is recorded and judged, and the corrections of R441 follow it; a supply rail that leaves its limits is counted
and raises its source, and one that has been back within them clears it. A row whose condition does not hold has no effect where the statement says so.
Where the rules leave a choice the statement follows the model's: log entries 67, 97, 98, 110, 145. -/
def Obligations.FrameEconomySensorAndSupplyRowsTakeEffect : Prop :=
  ∀ s : State,
  (s.dev.mem.porst = true → s.dev.mem.brownOut = false → exec .frameStrobe s = .next (s.after s.dev.frameStrobe)) ∧
  (s.dev.mem.porst = false ∨ s.dev.mem.brownOut = true → exec .frameStrobe s = .next (s.after s.dev)) ∧
  (∀ t, s.dev.ths.dwellFrom = some t → s.dev.economy = true → exec .economyExit s = .next (s.after
    ((s.dev.advance (t + s.dev.fld F.thsEconCtrl_exitDwell * 8000000)).leaveEconomy))) ∧
  (s.dev.ths.dwellFrom = none ∨ s.dev.economy = false → exec .economyExit s = .next (s.after s.dev)) ∧
  (∀ t, s.dev.ths.belowFrom = some t →
    let d := s.dev.advance (t + 800000000)
    let d1 : Dev := { d with ths := { d.ths with target := d.ths.target - 1, belowFrom := none } }
    (d1.flag F.thsStat_divMode = false → exec .throttleFall s = .next (s.after d1.applyThrottle.watchFall)) ∧
    (d1.flag F.thsStat_divMode = true → exec .throttleFall s = .next (s.after d1.watchFall))) ∧
  (s.dev.ths.belowFrom = none → exec .throttleFall s = .next (s.after s.dev)) ∧
  exec .throttleDisable s = .next (s.after (s.dev.setFlag F.thsCtrl_thrEn false)) ∧
  (∀ i v, i < 28 → -32768 ≤ v → v ≤ 32767 → (s.dev.sensor i).hist = [] →
    let d1 := (s.dev.setSensor i { s.dev.sensor i with readAt := s.dev.now, hist := [(s.dev.now, v)] }).setFld (F.thsSensT_reading i) (pattern 16 v)
    let d2 := if signed 16 (d1.fld (F.thsSensMax_reading i)) < v then d1.setFld (F.thsSensMax_reading i) (pattern 16 v) else d1
    exec (.sensorReading i v) s = .next (s.after
      (((((((d2.crossCheck i).rateCheck i).absCheck i).fastCheck i).showHottest).watchFall).compensate))) ∧
  (∀ rail mv, rail < 12 → mv < 32768 → s.dev.railGood rail mv = false → bit (s.dev.regN R.thsSupStat) rail = true →
    exec (.supplyExcursion rail mv) s = .next (s.after
      (((((s.dev.showRail rail mv).bumpSat (F.thsSupV_excursions rail)).setBitAt R.thsSupStat rail false).railOut rail).raiseLevel (404 + rail)))) ∧
  (∀ rail mv, rail < 12 → mv < 32768 → s.dev.railGood rail mv = true → bit (s.dev.regN R.thsSupStat) rail = false →
    let d1 := ((s.dev.showRail rail mv).setBitAt R.thsSupStat rail true).clearLevel (404 + rail)
    let d2 : Dev := { d1 with ths := { d1.ths with rails := tput (fun _ => {}) d1.ths.rails rail ⟨d1.now - 100 * tickUs⟩ } }
    exec (.supplyRecover rail mv) s = .next (s.after ((d2.railBack rail).updateAlive)))

/-! ### Rings, datagrams, direct writes and the boot (chapters 02 and 03) -/

/-- The doorbells and configuration registers of the rings (R31 to R34, R50, Table 2-17): while `pcie` is set, a doorbell sets its register, and what the
rings offer is taken; a base or size of an enabled ring pair is left as it was and `cfg_err` sets, and that of a disabled pair takes the value (a size
only from 4 to 12); enabling a disabled pair for a free requester binds it, with its four indices at 0; RING_DISABLE is a write of CPX.RING_CTRL with
`en` clear. Enabling a disabled event ring starts it with both indices at 0 and phase 1. While `pcie` is clear none of the doorbells and of the
enabling and disabling rows changes anything.
Where the rules leave a choice the statement follows the model's: log entries 37, 124. -/
def Obligations.RingRegistersFollowTheirWrites : Prop :=
  ∀ (s : State) (n : Nat) (v : Word), n < 8 →
  (∀ b images, s.dev.flag F.cpxReady1_pcie = false →
    exec (.sqTailDoorbell n v b images) s = .next (s.after s.dev) ∧ exec (.cqHeadDoorbell n v) s = .next (s.after s.dev) ∧
    exec (.eqHeadDoorbell v) s = .next (s.after s.dev) ∧ exec (.ringEnable n v) s = .next (s.after s.dev) ∧
    exec (.ringDisable n v) s = .next (s.after s.dev) ∧ exec (.eventRingEnable v) s = .next (s.after s.dev)) ∧
  (s.dev.flag F.cpxReady1_pcie = true →
    (∀ b images, exec (.sqTailDoorbell n v b images) s = .next (s.after
      ((s.dev.setFld (F.cpxSqTail_slot n) v.toNat).setRing n { s.dev.ring n with slots := b, images := images }).takeAll)) ∧
    (let d1 := s.dev.setReg (R.cpxCqHead n) (v &&& 0xFFF)
     (d1.cqFull n = true → exec (.cqHeadDoorbell n v) s = .next (s.after d1.takeAll)) ∧
     (d1.cqFull n = false → exec (.cqHeadDoorbell n v) s = .next (s.after
       (((d1.setRing n { d1.ring n with fullSince := none }).releaseRing n).stallEnds).takeAll))) ∧
    exec (.eqHeadDoorbell v) s = .next (s.after (s.dev.setReg R.cpxEqHead (v &&& 0xFFF)).eqRoom) ∧
    (∀ k, k = 0 ∨ k = 1 ∨ k = 5 ∨ k = 6 →
      (s.dev.flag (F.cpxRingCtrl_en n) = true →
        exec (.ringConfigWrite (R.cpxSqBaseLo n + 4 * k) v) s = .next (s.after (s.dev.setFlag (F.cpxRingStat_cfgErr n) true))) ∧
      (s.dev.flag (F.cpxRingCtrl_en n) = false →
        exec (.ringConfigWrite (R.cpxSqBaseLo n + 4 * k) v) s = .next (s.after (s.dev.setReg (R.cpxSqBaseLo n + 4 * k) v)))) ∧
    (∀ k, k = 2 ∨ k = 7 →
      (s.dev.flag (F.cpxRingCtrl_en n) = false → 4 ≤ v.toNat % 16 → v.toNat % 16 ≤ 12 →
        exec (.ringConfigWrite (R.cpxSqBaseLo n + 4 * k) v) s = .next (s.after (s.dev.setReg (R.cpxSqBaseLo n + 4 * k) (v &&& 0xF)))) ∧
      (s.dev.flag (F.cpxRingCtrl_en n) = true ∨ v.toNat % 16 < 4 ∨ 12 < v.toNat % 16 →
        exec (.ringConfigWrite (R.cpxSqBaseLo n + 4 * k) v) s = .next (s.after (s.dev.setFlag (F.cpxRingStat_cfgErr n) true)))) ∧
    (let w := v ||| 0x10000#32
     let d1 := if fieldOf (F.cpxRingCtrl_requester n) w = s.dev.fld (F.cpxRingCtrl_requester n) then s.dev
       else s.dev.setFld (F.cpxRingCtrl_requester n) (fieldOf (F.cpxRingCtrl_requester n) w)
     let d2 := (d1.setFld (F.cpxRingCtrl_irqEn n) (fieldOf (F.cpxRingCtrl_irqEn n) w)).setFld (F.cpxRingCtrl_coalesce n)
       (fieldOf (F.cpxRingCtrl_coalesce n) w)
     let q := d2.fld (F.cpxRingCtrl_requester n)
     s.dev.flag (F.cpxRingCtrl_en n) = false → d2.flag (F.cpxRingCtrl_en n) = false →
     (q ≠ 0 → q ≠ 0xFFFF → d2.requesterTaken q = false → (d2.ring n).disabling = false →
       exec (.ringEnable n v) s = .next (s.after
         ((((((d2.setRing n { bound := some q }).setFlag (F.cpxRingCtrl_en n) true).setReg (R.cpxSqHead n) 0).setReg (R.cpxSqTail n) 0).setReg
           (R.cpxCqHead n) 0).setReg (R.cpxCqTail n) 0))) ∧
     (q = 0 ∨ q = 0xFFFF ∨ d2.requesterTaken q = true ∨ (d2.ring n).disabling = true →
       exec (.ringEnable n v) s = .next (s.after (d2.setFlag (F.cpxRingStat_cfgErr n) true)))) ∧
    exec (.ringDisable n v) s = .next (s.after (s.dev.writeRingCtrl n (v &&& 0xFFFEFFFF#32))) ∧
    (s.dev.flag F.cpxEqSize_en = false → 4 ≤ v.toNat % 16 → v.toNat % 16 ≤ 12 →
      let d2 := (((s.dev.setFld F.cpxEqSize_log2Slots (v.toNat % 16)).setFlag F.cpxEqSize_en true).setReg R.cpxEqHead 0).setReg R.cpxEqTail 0
      exec (.eventRingEnable v) s = .next (s.after (({ d2 with cpx := { d2.cpx with eqPhase := true } } : Dev).eqRoom))))

/-- What happens at the rings and the management port without a host command (R35 to R37, R48, R62, Table 2-18): a pair that is being disabled stops
once all its replies are written; a bus error stops its pair and sets `dma_err`; a completion ring full for 1 ms sets `cq_stall` and raises source 298;
a vector with entries not yet signalled is raised when its coalescing time is over; while `mgmt` is set, a datagram that is a fragment, that has the
wrong length, or that comes while `en` is 0, is discarded and counted, and any other is given to the intake of datagrams while commands are accepted.
A row whose condition does not hold has no effect.
Where the rules leave a choice the statement follows the model's: log entries 34, 51, 123. -/
def Obligations.RingAndDatagramRowsTakeEffect : Prop :=
  ∀ (s : State) (n : Nat), n < 8 →
  ((s.dev.ring n).disabling = true → s.dev.ringIdle n = true →
    exec (.ringDisableEffect n) s = .next (s.after (s.dev.ringDisabled n))) ∧
  ((s.dev.ring n).disabling = false ∨ s.dev.ringIdle n = false → exec (.ringDisableEffect n) s = .next (s.after s.dev)) ∧
  (s.dev.flag (F.cpxRingCtrl_en n) = true →
    exec (.ringDmaError n) s = .next (s.after (((s.dev.disableRing n).setFlag (F.cpxRingStat_dmaErr n) true).resetMaster 2))) ∧
  (s.dev.flag (F.cpxRingCtrl_en n) = false → exec (.ringDmaError n) s = .next (s.after s.dev)) ∧
  (∀ t, (s.dev.ring n).fullSince = some t → s.dev.cqFull n = true →
    exec (.cqStallTimeout n) s = .next (s.after (((s.dev.advance (t + tickMs)).setFlag (F.cpxRingStat_cqStall n) true).raiseLevel 298))) ∧
  ((s.dev.ring n).fullSince = none ∨ s.dev.cqFull n = false → exec (.cqStallTimeout n) s = .next (s.after s.dev)) ∧
  ((s.dev.ring n).unsignalled ≠ 0 →
    let d1 := s.dev.advance ((s.dev.ring n).firstUnsignalled + s.dev.fld (F.cpxRingCtrl_coalesce n) * tickUs)
    exec (.msixCoalesceExpiry n) s = .next (s.after ((d1.setRing n { s.dev.ring n with unsignalled := 0 }).send (.msix n)))) ∧
  ((s.dev.ring n).unsignalled = 0 → exec (.msixCoalesceExpiry n) s = .next (s.after s.dev)) ∧
  (∀ addr port whole b image,
    (s.dev.flag F.cpxReady1_mgmt = false → exec (.udpDatagram addr port whole b image) s = .next (s.after s.dev)) ∧
    (s.dev.flag F.cpxReady1_mgmt = true → s.dev.flag F.cpxUdpCfg_en = false ∨ whole = false ∨ b.length ≠ 16 + rd b 6 2 →
      exec (.udpDatagram addr port whole b image) s = .next (s.after (s.dev.bumpSat F.cpxUdpStat_badDgram))) ∧
    (s.dev.flag F.cpxReady1_mgmt = true → s.dev.flag F.cpxUdpCfg_en = true → whole = true → b.length = 16 + rd b 6 2 →
      s.dev.cpx.accepting = true →
      exec (.udpDatagram addr port whole b image) s = .next (s.after
        (({ s.dev with cpx := { s.dev.cpx with turn := 0 } } : Dev).takeUdp addr port (packetOf (.udp addr port) b image)).takeAll)))

/-- R11, R9: a direct write to an offset that holds no register, and one to a register that Table 0-2 lets a direct write not change (RO, RW and CW),
leave every register as it was; so does every write while BAR0 is disabled. A W1C register loses the bits written as 1 within the
writable bits; no register has the access W1S; what the clearing of CPX.RING_STAT lets go out follows, and a write of LPC.ENG_ERR that clears
`stopped` of an engine that has stopped restarts it. A D register does what `Dev.writeD` says.
Where the rules leave a choice the statement follows the model's: log entry 44. -/
def Obligations.DirectWritesFollowTheAccessCode : Prop :=
  ∀ (s : State) (off : Nat) (v : Word),
  (s.dev.flag F.cpxReady1_pcie = false → exec (.bar0Write off v) s = .next (s.after s.dev)) ∧
  (regBankAt off = none → exec (.bar0Write off v) s = .next (s.after s.dev)) ∧
  (∀ k, regBankAt off = some k → k.acc = .ro ∨ k.acc = .rw ∨ k.acc = .cw → exec (.bar0Write off v) s = .next (s.after s.dev)) ∧
  (∀ k, regBankAt off = some k → k.acc ≠ .w1s) ∧
  (∀ k, regBankAt off = some k → k.acc = .w1c → s.dev.flag F.cpxReady1_pcie = true → indexAt (R.lpcEngErr 0) 0x10 16 off = none →
    indexAt (R.cpxRingStat 0) 0x40 8 off = none →
    exec (.bar0Write off v) s = .next (s.after (s.dev.setReg off (s.dev.reg off &&& ~~~(v &&& k.wmask))))) ∧
  (∀ k n, regBankAt off = some k → k.acc = .w1c → s.dev.flag F.cpxReady1_pcie = true → indexAt (R.lpcEngErr 0) 0x10 16 off = none →
    indexAt (R.cpxRingStat 0) 0x40 8 off = some n →
    exec (.bar0Write off v) s = .next (s.after ((s.dev.setReg off (s.dev.reg off &&& ~~~(v &&& k.wmask))).releaseRing n))) ∧
  (∀ k e, regBankAt off = some k → k.acc = .w1c → s.dev.flag F.cpxReady1_pcie = true → indexAt (R.lpcEngErr 0) 0x10 16 off = some e →
    ((s.dev.flag (F.lpcEngErr_stopped e) = false ∨ bit v.toNat 0 = false) →
      exec (.bar0Write off v) s = .next (s.after (s.dev.setReg off (s.dev.reg off &&& ~~~(v &&& 6))))) ∧
    (s.dev.flag (F.lpcEngErr_stopped e) = true → bit v.toNat 0 = true →
      exec (.bar0Write off v) s = .next (s.after ((s.dev.fresh 2).2.restartEngine e (decide ((s.dev.fresh 2).1 = 1)))))) ∧
  (∀ k, regBankAt off = some k → k.acc = .d → s.dev.flag F.cpxReady1_pcie = true →
    exec (.bar0Write off v) s = .next (s.after (s.dev.writeD off v)))

/-- R68: a cold start leaves every register at its reset value, but for those that survive a start and those that the start itself writes: the cause,
the count, the unit strap and the nonce. HST.RESET_CAUSE holds the cause, COLD_COUNT has gone up by one, and the other surviving registers read as
before.
Where the rules leave a choice the statement follows the model's: log entries 12, 13, 119. -/
def Obligations.ColdStartReturnsRegistersToReset : Prop :=
  ∀ (d : Dev) (cause : Nat) (unit : Bool), cause < 2 ^ (F.hstResetCause_cause).width →
    let c := d.coldStart cause unit
    (∀ off, off ∉ keptRegs → off ≠ R.twnStat → (∀ i < 8, off ≠ R.hstNonce i) → c.reg off = regReset off) ∧
    c.fld F.hstResetCause_cause = cause ∧ c.regN R.hstColdCount = min (d.regN R.hstColdCount + 1) 0xFFFFFFFF ∧
    (∀ off ∈ keptRegs, off ≠ R.hstResetCause → off ≠ R.hstColdCount → c.reg off = d.reg off) ∧
    c.flag F.twnStat_unitId = unit ∧ c.flag F.twnStat_paired = false ∧ c.mem.porst = true ∧ c.now = 0 ∧
    c.mem.ddr = [] ∧ c.cal.bankA = d.cal.bankA ∧ c.cal.bankB = d.cal.bankB ∧ c.hst.lawStore = d.hst.lawStore

/-- The rows of power and reset (R67, R69, R393, R444, R16, R77): a power-up, a cold reset and a brown-out put everything into reset; PORST_N rising,
and the end of a brown-out, are cold starts; an automatic restart comes `restart_ms` after device safe; the loss of REFCLK raises source 302 and its
return ends it; a host link that goes down takes its ready bit with it.
Where the rules leave a choice the statement follows the model's: log entries 11, 41, 42. -/
def Obligations.PowerAndResetRowsTakeEffect : Prop :=
  ∀ s : State,
  exec .powerUp s = .next (s.after (s.dev.resetAll 1)) ∧ exec .coldReset s = .next (s.after (s.dev.resetAll 2)) ∧
  exec .brownOut s = .next (s.after { s.dev.resetAll 1 with mem := { (s.dev.resetAll 1).mem with brownOut := true } }) ∧
  (∀ unit, s.dev.mem.porst = false → s.dev.mem.brownOut = false →
    exec (.coldStart unit) s = .next (s.after (s.dev.coldStart s.dev.hst.nextCause unit))) ∧
  (∀ unit, s.dev.mem.porst = true ∨ s.dev.mem.brownOut = true → exec (.coldStart unit) s = .next (s.after s.dev)) ∧
  (s.dev.mem.brownOut = true → exec .brownOutRecovery s = .next (s.after (s.dev.coldStart 1 (s.dev.flag F.twnStat_unitId)))) ∧
  (s.dev.mem.brownOut = false → exec .brownOutRecovery s = .next (s.after s.dev)) ∧
  (∀ t, s.dev.hst.restartDue = some t → (∀ i < 8, s.dev.fld F.fltSafeCause_source ≠ 404 + i) →
    let d1 := s.dev.advance t
    exec .autoRestart s = .next (s.after
      (({ d1 with hst := { d1.hst with restartsAt := d1.hst.restartsAt ++ [(d1.now : Int)] } } : Dev).coldStart 5 (d1.flag F.twnStat_unitId)))) ∧
  (s.dev.hst.restartDue = none → exec .autoRestart s = .next (s.after s.dev)) ∧
  exec .refclkLoss s = .next (s.after (({ s.dev with mem := { s.dev.mem with refLost := true } } : Dev).raiseLevel 302)) ∧
  exec .refclkRestore s = .next (s.after ((({ s.dev with mem := { s.dev.mem with refLost := false } } : Dev).clearLevel 302).updateAlive)) ∧
  (s.dev.flag F.cpxReady1_pcie = true →
    exec .pcieLinkDown s = .next (s.after ((s.dev.setFlag F.cpxReady1_pcie false).resetMaster 1))) ∧
  (s.dev.flag F.cpxReady1_pcie = false → exec .pcieLinkDown s = .next (s.after s.dev)) ∧
  exec .mgmtLinkDown s = .next (s.after (s.dev.setFlag F.cpxReady1_mgmt false))

/-- The boot (R70, R71, R73, R77): a slot is refused with the number of the first of R70's checks that it fails, and accepted where it passes all of them;
once an owner key is fused, its configuration section must be signed under that key. The staged slot is booted where it is accepted, else the other with
`fallback`, else `no_image` sets, and `fail_why` tells why. The staged slot and its image are those that an image update has left. An image update
whose image is accepted stages the slot that is not running and ends DONE, another ends REFUSED; without an update that runs the row has no effect. A
function whose needs (`Dev.readyNeeds`) are met sets its bit of CPX.READY1, or of CPX.READY0 for an element link, with what follows (`cal`, number 13,
sets with the bank it applies; a link in state 5 comes up); where they are not met nothing happens.
Where the rules leave a choice the statement follows the model's: log entries 45, 47, 48. -/
def Obligations.BootTriesStagedSlotFirst : Prop :=
  ∀ (s : State) (a b : SlotImage),
  (∀ i : SlotImage,
    let ownerOk : Prop := s.dev.hst.ownerKey = none ∨ i.ownerSig = s.dev.hst.ownerKey
    (i.vendorSig = false → s.dev.slotRefusal i = 1) ∧
    (i.vendorSig = true → i.tagOk = false → s.dev.slotRefusal i = 2) ∧
    (i.vendorSig = true → i.tagOk = true → i.digestOk = false → s.dev.slotRefusal i = 3) ∧
    (i.vendorSig = true → i.tagOk = true → i.digestOk = true → i.rollback < s.dev.fld F.hstRollback_value → s.dev.slotRefusal i = 4) ∧
    (i.vendorSig = true → i.tagOk = true → i.digestOk = true → s.dev.fld F.hstRollback_value ≤ i.rollback → ¬ ownerOk →
      s.dev.slotRefusal i = 5) ∧
    (i.vendorSig = true → i.tagOk = true → i.digestOk = true → s.dev.fld F.hstRollback_value ≤ i.rollback → ownerOk →
      s.dev.slotRefusal i = 0)) ∧
  (∀ staged n x y, staged < 2 → s.dev.mem.porst = true → s.dev.mem.brownOut = false → s.dev.flag F.cpxReady1_boot = false →
    s.dev.flag F.hstBootStat_noImage = false → s.dev.hst.warm = false →
    (s.dev.hst.staged = none ∧ n = staged ∧ x = (if staged = 0 then a else b) ∧ y = (if staged = 0 then b else a)) ∨
      (n < 2 ∧ s.dev.hst.staged = some (n, x) ∧ y = (if n = 0 then b else a)) →
    (s.dev.slotRefusal x = 0 → exec (.bootVerifyDone staged a b) s = .next (s.after (s.dev.bootSlot n false x))) ∧
    (s.dev.slotRefusal x ≠ 0 → s.dev.slotRefusal y = 0 →
      exec (.bootVerifyDone staged a b) s = .next (s.after
        ((s.dev.setFld F.hstBootStat_failWhy (s.dev.slotRefusal x)).bootSlot (1 - n) true y))) ∧
    (s.dev.slotRefusal x ≠ 0 → s.dev.slotRefusal y ≠ 0 →
      exec (.bootVerifyDone staged a b) s = .next (s.after
        ((s.dev.setFld F.hstBootStat_failWhy (s.dev.slotRefusal y)).setFlag F.hstBootStat_noImage true)))) ∧
  (∀ oid addr len, s.dev.hst.update = some (oid, addr, len) →
    let n := 1 - s.dev.hst.bootedSlot
    (s.dev.slotRefusal a = 0 → exec (.imageUpdateComplete a) s = .next (s.after
      ((({ s.dev with hst := { s.dev.hst with update := none, staged := some (n, a) } } : Dev).send (.flash n a)).finish oid St.done (le 4 a.version)))) ∧
    (s.dev.slotRefusal a ≠ 0 → exec (.imageUpdateComplete a) s = .next (s.after
      (({ s.dev with hst := { s.dev.hst with update := none } } : Dev).finish oid St.refused [])))) ∧
  (s.dev.hst.update = none → exec (.imageUpdateComplete a) s = .next (s.after s.dev)) ∧
  (∀ n < 64, s.dev.readyNeeds n = false → exec (.functionReady n) s = .next (s.after s.dev)) ∧
  (∀ n < 32, n ≠ 13 → s.dev.readyNeeds n = true →
    exec (.functionReady n) s = .next (s.after ((s.dev.setBitAt R.cpxReady1 n true).readyEffect n))) ∧
  (s.dev.readyNeeds 13 = true → exec (.functionReady 13) s = .next (s.after (s.dev.readyEffect 13))) ∧
  (∀ l < 32, s.dev.readyNeeds (32 + l) = true →
    (s.dev.linkState l = 5 → exec (.functionReady (32 + l)) s = .next (s.after (s.dev.linkUp l))) ∧
    (s.dev.linkState l ≠ 5 → exec (.functionReady (32 + l)) s = .next (s.after (s.dev.setBitAt R.cpxReady0 l true))))

/-! ### The SST, its cells, the LV legs (chapters 11 to 13) -/

/-- The commands of the SST that are accepted: SST_START (R301) notes the start and writes the timing sets, SST_STOP (R304) sends stages 6 to 8 to stage
9 and fails a start, PERIOD_SET (R305) notes the new period for a coming period start, CELL_BYPASS (R306) and NEUTRAL_SECTION (R309) with a key of
kind 0 act at once. On a unit that is not the active unit of a pair; there R419 and R421 add their records.
Where the rules leave a choice the statement follows the model's: log entry 81. -/
def Obligations.SstCommandsBegin : Prop :=
  ∀ (s : State) (c : Cmd) (q : Nat), s.dev.pairedActive = false →
  (Starts s.dev 0x0701 c q →
    let o := (s.dev.opened 0x0701 c q).interim 0x0701 c q []
    let oid := (s.dev.nextCall 0x0701 c q).oid
    let d1 := (o.configuredCells.foldl (fun d n => d.setFld (F.cmuCellSvc_svc n) (d.startSvc n)) o).countService
    let p := c.payload
    let x : StartParams := ⟨rd p 0 2, rd p 2 2, rd p 4 2, rd p 6 2, rd p 8 1, rd p 9 1, rd p 10 2, rd p 12 2⟩
    let d2 := (List.range 8).foldl (fun d k => d.writeSet k) d1
    o.startRefusal p d1.inService.length = 0 →
    exec (.sstStart c) s = .next (s.after
      (({ d2 with cmu := { d2.cmu with startCmd := some (oid, x), startAt := o.now, params := x, rHold := false, rRamp := none, coasts := [],
                                       nextSet := none, levels := [] } } : Dev).goesOn q))) ∧
  (Starts s.dev 0x0702 c q → rd c.payload 0 2 ≤ 5000 → rd c.payload 2 2 = 0 →
    let o := (s.dev.opened 0x0702 c q).interim 0x0702 c q []
    let oid := (s.dev.nextCall 0x0702 c q).oid
    (1 ≤ o.stage → o.stage ≤ 5 → exec (.sstStop c) s = .next (s.after (((o.failStart 4).finish oid St.done []).goesOn q))) ∧
    (6 ≤ o.stage → o.stage ≤ 8 →
      let d1 := o.setStage 9
      let hold := decide (o.stage ≠ 6 ∨ rd c.payload 0 2 = 0)
      let ramp := if hold then none else some (⟨o.cmu.outNow.psel, Frac.zero, o.rampSteps (rd c.payload 0 2), 0⟩ : Ramp)
      exec (.sstStop c) s = .next (s.after ((({ d1 with cmu := { d1.cmu with
        stopOid := some oid, rRamp := ramp, rHold := hold, coasts := [], coastFrom := none } } : Dev).showRamping).goesOn q)))) ∧
  (∀ f, Starts s.dev 0x0703 c q → rd c.payload 0 1 = f → 10 ≤ f → f ≤ 80 → rd c.payload 1 3 = 0 →
    let o := (s.dev.opened 0x0703 c q).interim 0x0703 c q []
    o.stage = 0 ∨ o.stage = 6 → o.cmu.nextPeriod = none →
    exec (.periodSet c) s = .next (s.after (({ o with cmu := { o.cmu with nextPeriod := some ((s.dev.nextCall 0x0703 c q).oid, f,
      if o.now ≤ o.periodInstant 40 then o.cmu.k + 1 else o.cmu.k + 2) } } : Dev).goesOn q))) ∧
  (Starts s.dev 0x0704 c q → rd c.payload 0 1 ≤ 47 → rd c.payload 1 7 = 0 → (keyAt c.payload 8).kind = 0 →
    let o := (s.dev.opened 0x0704 c q).interim 0x0704 c q []
    exec (.cellBypass c) s = .next (s.after ((o.fireBypass (s.dev.nextCall 0x0704 c q).oid (rd c.payload 0 1)).goesOn q))) ∧
  (∀ k ms, Starts s.dev 0x0705 c q → keyAt c.payload 8 = k → k.kind = 0 → rd c.payload 0 1 = 0 → rd c.payload 1 1 = 0 → rd c.payload 2 2 = ms →
    1 ≤ ms → ms ≤ 1000 →
    let o := (s.dev.opened 0x0705 c q).interim 0x0705 c q []
    exec (.neutralSection c) s = .next (s.after ((o.fireNeutral (s.dev.nextCall 0x0705 c q).oid k ms (rd c.payload 4 4)).goesOn q)))

/-- The commands of the LV legs: LEG_CONFIG (R345) with legal values writes the registers of a leg in state 0 and answers DONE, and is a CONFLICT in any
other state; LEG_ENABLE (R342, R343) starts or drains the legs of its mask; LV_REFERENCE (R331) sets the target, and the reference ramps to it while
the lane of slot 20 runs. -/
def Obligations.LegCommandsTakeEffect : Prop :=
  ∀ (s : State) (c : Cmd) (q : Nat),
  (∀ l, Starts s.dev 0x0801 c q → rd c.payload 0 1 = l → legConfigOk c.payload = true →
    let o := s.dev.opened 0x0801 c q
    let oid := (s.dev.nextCall 0x0801 c q).oid
    let p := c.payload
    let d1 := ((o.setRegN (R.pwmLegCfg l) (rd p 1 1 + 256 * rd p 12 1)).setRegN (R.pwmLegDt l) (rd p 2 2 + 65536 * rd p 4 2)).setRegN
      (R.pwmLegMp l) (rd p 6 2 + 65536 * rd p 14 2)
    let d2 := (d1.setRegN (R.pwmLegLim l) (rd p 24 2 + 65536 * rd p 26 2)).setRegN (R.pwmLegFix l) (rd p 20 4)
    let d3 := d2.setRegN (R.gdpLegProt l) (rd p 10 1 + 256 * rd p 11 1 + 65536 * rd p 8 2)
    (o.legState l = 0 → 2 ≤ rd p 1 1 % 4 → exec (.legConfig c) s = .next (s.after (d3.replied 0x0801 c q oid St.done []))) ∧
    (o.legState l = 0 → rd p 1 1 % 4 < 2 →
      exec (.legConfig c) s = .next (s.after
        (((d3.setFld (F.pwmPerStg_v l) (rd p 16 4)).setLeg l { d3.leg l with perNew := true, perAt := (d3.leg l).commits }).replied 0x0801 c q oid
          St.done []))) ∧
    (o.legState l ≠ 0 → exec (.legConfig c) s = .next (s.after (o.replied 0x0801 c q oid St.conflict [])))) ∧
  (∀ m, Starts s.dev 0x0802 c q → rd c.payload 0 1 = m → rd c.payload 2 2 = 0 →
    let o := (s.dev.opened 0x0802 c q).interim 0x0802 c q []
    let oid := (s.dev.nextCall 0x0802 c q).oid
    (rd c.payload 1 1 = 1 → o.enableRefusal m = 0 →
      let d1 := o.enableLegs m
      exec (.legEnable c) s = .next (s.after
        ((checkEnables [(oid, m)] { d1 with pwm := { d1.pwm with enables := d1.pwm.enables ++ [(oid, m)] } }).goesOn q))) ∧
    (rd c.payload 1 1 = 0 →
      exec (.legEnable c) s = .next (s.after
        ((({ o with pwm := { o.pwm with disables := o.pwm.disables ++ [(oid, m)] } } : Dev).disableLegs m).goesOn q)))) ∧
  (∀ v ms, Starts s.dev 0x0803 c q → rd c.payload 0 2 = v → rd c.payload 2 2 = ms → rd c.payload 4 4 = 0 → 3600 ≤ v → v ≤ 16000 → 1 ≤ ms → ms ≤ 5000 →
    let o := s.dev.opened 0x0803 c q
    let oid := (s.dev.nextCall 0x0803 c q).oid
    let d2 : Dev := { o.setFld F.pwmLvref_target v with pwm := { o.pwm with rampMs := ms } }
    ((o.lane 100).run = false → exec (.lvReference c) s = .next (s.after (d2.replied 0x0803 c q oid St.done []))) ∧
    ((o.lane 100).run = true → exec (.lvReference c) s = .next (s.after
      (({ d2 with cmu := { d2.cmu with lvRamp := some ⟨Frac.ofInt (o.fld F.pwmLvref_ref), Frac.ofInt v,
        max 1 ((ms * 400 + o.cmu.period - 1) / o.cmu.period), 0⟩ } } : Dev).replied 0x0803 c q oid St.done []))))

/-- The rows of the control period (R23, R24, R184, R185, R299, R303, R312, R315, R327): measurements are taken, and while `reserve` is set the loops
evaluated, at 0.25P; at 0.40P the outputs are published, bypassed cells leave, the lists are built, and 20 periods in a row with the modulation past
`m_max` latch bit 6; the duty of the LV legs that run is staged at 0.50P while the lane of slot 20 runs. The limits of a start and of a coast act where
one is running, BRK_TRIP is released once its latch is clear, and the watchdog asserts it in stages 1 to 9; otherwise those rows have no effect.
Where the rules leave a choice the statement follows the model's: log entries 22, 46, 84. -/
def Obligations.ControlPeriodRowsTakeEffect : Prop :=
  ∀ s : State,
  exec .periodStart s = .next (s.after s.dev.periodStart) ∧
  (let d1 := (s.dev.advance (s.dev.periodInstant 25)).takeMeasurements
   let d2 := (d1.setReg R.pwmPlv (coefWord d1.pLv)).checkProtections
   (d2.flag F.lpcPowerCfg_reserve = false → exec .measurementCutoff s = .next (s.after d2)) ∧
   (d2.flag F.lpcPowerCfg_reserve = true → exec .measurementCutoff s = .next (s.after d2.evalPower))) ∧
  (let d1 := s.dev.advance (s.dev.periodInstant 40)
   let d3 := (if d1.flag F.lpcPowerCfg_reserve then d1.publishPower else d1).leaveBypassed
   let past := 3 ≤ d3.stage ∧ d3.stage ≤ 9 ∧ Frac.le (Frac.mk2 (d3.fld F.cmuModCfg_mMax) 100) (d3.mCommon d3.cmu.outNow).abs = true
   (past → exec .powerPublish s = .next (s.after
     ((({ d3 with cmu := { d3.cmu with overStreak := d3.cmu.overStreak + 1 } } : Dev).protLatch 6
       (decide (20 ≤ d3.cmu.overStreak + 1))).buildEdges.showPower))) ∧
   (¬ past → exec .powerPublish s = .next (s.after
     ((({ d3 with cmu := { d3.cmu with overStreak := 0 } } : Dev).protLatch 6 false).buildEdges.showPower)))) ∧
  (let d1 := s.dev.advance (s.dev.periodInstant 50)
   ((d1.lane 100).run = false → exec .dutyWrite s = .next (s.after d1)) ∧
   ((d1.lane 100).run = true → exec .dutyWrite s = .next (s.after
     (((List.range 8).filter (fun l => d1.legLv l && (d1.legState l = 2 || d1.legState l = 5))).foldl
       (fun d l => d.stageDuty d1.cmu.outNow.duty l) (d1.setReg R.pwmLvD (coefWord d1.cmu.outNow.duty)))))) ∧
  (s.dev.cmu.startCmd.isSome = true → exec .sstStartTimeout s = .next (s.after ((s.dev.advance s.dev.startLimit).failStart 1))) ∧
  (s.dev.cmu.startCmd = none → exec .sstStartTimeout s = .next (s.after s.dev)) ∧
  (∀ t, s.dev.cmu.coastFrom = some t → exec .coastExpiry s = .next (s.after
    (((s.dev.advance (t + s.dev.fld F.cmuCoast_coastMax * 100 * tickMs)).protCondition 4 true).protGone 4))) ∧
  (s.dev.cmu.coastFrom = none → exec .coastExpiry s = .next (s.after s.dev)) ∧
  (s.dev.flag F.cmuProtStat_brk = true → s.dev.brkLatchClear = true →
    let d1 := s.dev.advance (s.dev.cmu.brkAt + s.dev.fld F.cmuBrkCfg_brkMin * tickMs)
    exec .brkTripRelease s = .next (s.after
      ((({ d1 with cmu := { d1.cmu with brkSource := none } } : Dev).setFlag F.cmuProtStat_brk false).event 0x0724 0 (le 1 0)))) ∧
  (s.dev.flag F.cmuProtStat_brk = false ∨ s.dev.brkLatchClear = false → exec .brkTripRelease s = .next (s.after s.dev)) ∧
  (1 ≤ s.dev.stage → s.dev.stage ≤ 9 →
    exec .periodWatchdog s = .next (s.after ((s.dev.advance (s.dev.cmu.start + 4 * s.dev.periodTicks)).assertBrk 9))) ∧
  (s.dev.stage = 0 ∨ 9 < s.dev.stage → exec .periodWatchdog s = .next (s.after s.dev))

/-- The rows by which the unit speaks to its cells (R265, R266, R270, R274 to R276, R278, R281 to R283, Table 11-4): a chain is enabled unless it
conflicts with an enabled one, and disabled unless one of its cells is neither blocked nor bypassed; PERIOD records go out in the transmission phase on
the chains in states 2 to 4, broadcast TIME and the delay measurement in a command window on those in state 4; what waits for a command window goes out
at 0.30P; a CMD without its ACK goes out again in a command window until its retries are used up, and is then given up; a port loses sync; a chain
without sync on every port, or silent for 3 periods, is lost; a chain passes through its states; it is tried again once its wait is over.
Where the rules leave a choice the statement follows the model's: log entries 80, 102. -/
def Obligations.ChainRowsTakeEffect : Prop :=
  ∀ (s : State) (ch : Nat), ch < 8 →
  (s.dev.bitAt R.clnChainEn ch = false → s.dev.chainConflicts ch = false →
    let d1 := (s.dev.setBitAt R.clnChainEn ch true).setBitAt R.clnDrained ch false
    (d1.wiringOk ch = true → exec (.chainEnable ch) s = .next (s.after (d1.setChainState ch 1))) ∧
    (d1.wiringOk ch = false → exec (.chainEnable ch) s = .next (s.after d1))) ∧
  (s.dev.bitAt R.clnChainEn ch = true ∨ s.dev.chainConflicts ch = true → exec (.chainEnable ch) s = .next (s.after s.dev)) ∧
  (s.dev.bitAt R.clnChainEn ch = true → s.dev.chainBusy ch = false →
    exec (.chainDisable ch) s = .next (s.after
      (((((s.dev.setBitAt R.clnChainEn ch false).setChainReady ch false).setChainState ch 5).clearLevel (208 + ch)).clearLevel (216 + ch)))) ∧
  (s.dev.bitAt R.clnChainEn ch = false ∨ s.dev.chainBusy ch = true → exec (.chainDisable ch) s = .next (s.after s.dev)) ∧
  (let d1 := s.dev.advance (s.dev.periodInstant (s.dev.fld F.cmuModCfg_txPhase))
   exec .periodTransmit s = .next (s.after
     (((List.range 8).filter (fun c => decide (2 ≤ d1.chainState c) && decide (d1.chainState c ≤ 4))).foldl (fun d c =>
       (d.chainPorts c).foldl (fun d p => d.sendCell p 0x10 (d.periodRecord c)) d) d1))) ∧
  (let d1 := s.dev.advance (s.dev.windowFrom (max s.dev.now (s.dev.cln.timeAt + s.dev.fld F.clnCfg_timeInt * tickMs)))
   let d2 := ((List.range 8).filter (fun c => d1.chainState c = 4)).foldl (fun d c =>
     (d.chainPorts c).foldl (fun d p => d.sendCell p 0x11 [0xFF, d.sentOn p, d.count, 0]) d) d1
   exec .timeBroadcast s = .next (s.after { d2 with cln := { d2.cln with timeAt := d2.now } })) ∧
  (let d1 := s.dev.advance (s.dev.windowFrom (max s.dev.now (s.dev.cln.remeasureAt + tickS)))
   let d2 := ((List.range 8).filter (fun c => d1.chainState c = 4)).foldl (fun d c => d.pingChain c) d1
   exec .delayRemeasure s = .next (s.after { d2 with cln := { d2.cln with remeasureAt := d2.now } })) ∧
  exec .commandWindow s = .next (s.after (
    let d1 := ((((s.dev.advance (s.dev.periodInstant 30)).sendBlock).chargeDone).sendWaiting).sendBypasses.sendDelays
    { d1 with cln := { d1.cln with windowAt := d1.now } })) ∧
  (∀ n, n < 48 →
    (s.dev.cmdDue n = none → exec (.cmdTimeout n) s = .next (s.after s.dev)) ∧
    (∀ q, s.dev.cmdDue n = some q →
      let x := s.dev.cellNode n
      let gone := s.dev.setCellNode n { x with cmds := x.cmds.filter (fun y => y.cseq ≠ q.cseq) }
      (∀ c pos, s.dev.cellPlace n = some (c, pos) → q.retries < s.dev.fld F.clnCfg_cmdRetry →
        exec (.cmdTimeout n) s = .next (s.after
          (((s.dev.advance (s.dev.windowFrom s.dev.now)).setCellNode n { x with cmds := x.cmds.map (fun y =>
            if y.cseq = q.cseq then { y with sent := s.dev.cmu.k, retries := q.retries + 1 } else y) }).sendCell (s.dev.chainPort c pos).1 0x13
              [(s.dev.chainPort c pos).2, q.cseq, q.op, q.tAct]))) ∧
      (∀ c pos, s.dev.cellPlace n = some (c, pos) → s.dev.fld F.clnCfg_cmdRetry ≤ q.retries →
        exec (.cmdTimeout n) s = .next (s.after (gone.giveUpCmd n q))) ∧
      (s.dev.cellPlace n = none → exec (.cmdTimeout n) s = .next (s.after (gone.giveUpCmd n q))))) ∧
  (∀ port < 8,
    ((s.dev.chainPorts ch).contains port = true →
      exec (.cellLinkSyncLoss ch port) s = .next (s.after ((s.dev.setFlag (F.clnChainErr_sync ch) true).setChain ch
        { s.dev.chain ch with lostPorts := setBit (s.dev.chain ch).lostPorts port true }))) ∧
    ((s.dev.chainPorts ch).contains port = false → exec (.cellLinkSyncLoss ch port) s = .next (s.after s.dev))) ∧
  (let sync := (s.dev.chainPorts ch).all (fun p => bit (s.dev.chain ch).lostPorts p)
   (2 ≤ s.dev.chainState ch → s.dev.chainState ch ≤ 4 → sync = true ∨ 3 ≤ (s.dev.chain ch).silent →
     let d2 := (((s.dev.setChainReady ch false).setFlag (F.clnChainErr_lost ch) true).setChainState ch 1).failChain ch
     exec (.chainLost ch) s = .next (s.after
       (((d2.setChain ch { d2.chain ch with silent := 0 }).event 0x0710 ch (le 1 (if sync then 1 else 2))).raiseLevel (208 + ch)))) ∧
   (s.dev.chainState ch < 2 ∨ 4 < s.dev.chainState ch ∨ (sync = false ∧ (s.dev.chain ch).silent < 3) →
     exec (.chainLost ch) s = .next (s.after s.dev))) ∧
  (s.dev.chainState ch = 5 → exec (.chainTrainStep ch) s = .next (s.after ((s.dev.setBitAt R.clnDrained ch true).setChainState ch 0))) ∧
  (s.dev.chainState ch ≠ 5 → s.dev.bitAt R.clnChainEn ch = false ∨ (s.dev.chain ch).retryAt.isSome = true →
    exec (.chainTrainStep ch) s = .next (s.after s.dev)) ∧
  (s.dev.bitAt R.clnChainEn ch = true → (s.dev.chain ch).retryAt = none →
    (s.dev.chainState ch = 0 → s.dev.wiringOk ch = true → exec (.chainTrainStep ch) s = .next (s.after (s.dev.setChainState ch 1))) ∧
    (s.dev.chainState ch = 1 →
      let d1 := s.dev.setChainState ch 2
      let d2 := d1.setChain ch { d1.chain ch with lostPorts := 0, silent := 0 }
      exec (.chainTrainStep ch) s = .next (s.after
        ((d2.chainCells ch).foldl (fun d n => d.setCellNode n { d.cellNode n with got := false, seen := false }) d2))) ∧
    (s.dev.chainState ch = 2 → s.dev.discovered ch = true →
      let d1 := (s.dev.chainCells ch).foldl (fun d n =>
        (d.setFlag (F.clnCellStat_absent n) (!(d.cellNode n).seen)).setRegN (R.clnCellDly n) 0) s.dev
      exec (.chainTrainStep ch) s = .next (s.after
        ((((d1.setFld (F.clnChainDly_largest ch) 0).advance (d1.windowFrom d1.now)).setChainState ch 3).pingChain ch))) ∧
    (s.dev.chainState ch = 3 → (∃ x ∈ s.dev.chainDelays ch, 5000 < x) →
      exec (.chainTrainStep ch) s = .next (s.after ((s.dev.setFlag (F.clnChainErr_tooFar ch) true).failChain ch))) ∧
    (s.dev.chainState ch = 3 → (∀ x ∈ s.dev.chainDelays ch, x ≠ 0 ∧ x ≤ 5000) →
      exec (.chainTrainStep ch) s = .next (s.after
        ((((s.dev.setChainState ch 4).setChainReady ch true).event 0x0716 ch
          (le 1 ((s.dev.chainCells ch).filter (fun n => !s.dev.flag (F.clnCellStat_absent n))).length)).clearLevel (208 + ch))))) ∧
  (∀ t, (s.dev.chain ch).retryAt = some t → s.dev.bitAt R.clnChainEn ch = true →
    exec (.chainRetryTimer ch) s = .next (s.after ((s.dev.advance t).setChainState ch 1))) ∧
  ((s.dev.chain ch).retryAt = none ∨ s.dev.bitAt R.clnChainEn ch = false → exec (.chainRetryTimer ch) s = .next (s.after s.dev))

/-- The records that a cell sends (R266, R267, R272 to R274, R278, R282, R306): one from a port of the chain that listens (from state 2 for MEAS, from
state 3 for PONG and ACK) with a bad CRC or form is discarded and counted, and one at a wrong position counted; a MEAS of the current period fills its
cell's measurement, once, and shows the port's side and sync, and one that shows a claim of a higher rank makes a unit that claims withdraw; the 16th
PONG of a round gives a one-way delay; ACK ends its CMD, and the command that it serves; a cell that misses too many MEAS is lost. Other records, and
those of a chain or port that does not listen, have no effect.
Where the rules leave a choice the statement follows the model's: log entry 80. -/
def Obligations.CellRecordsTakeEffect : Prop :=
  (∀ (s : State) (ch port rt : Nat) (r : WireRec), ch < 8 → port < 8 →
  let b := r.bytes
  let n := s.dev.recordCell ch b
  let x := s.dev.cellNode n
  let heard := s.dev.chainState ch ≤ 4 ∧ (s.dev.chainPorts ch).contains port = true
  (heard → 2 ≤ s.dev.chainState ch →
    (cellRecordOk r 0x20 32 = false → exec (.measReceived ch port r) s = .next (s.after (s.dev.discardCell ch))) ∧
    (cellRecordOk r 0x20 32 = true → rd b 8 4 ≠ s.dev.cmu.k % 2 ^ 32 → exec (.measReceived ch port r) s = .next (s.after s.dev)) ∧
    (cellRecordOk r 0x20 32 = true → rd b 8 4 = s.dev.cmu.k % 2 ^ 32 → s.dev.posAgrees ch port b = false →
      exec (.measReceived ch port r) s = .next (s.after (s.dev.bumpSat (F.clnCrcCount_posErr ch)))) ∧
    (cellRecordOk r 0x20 32 = true → rd b 8 4 = s.dev.cmu.k % 2 ^ 32 → s.dev.posAgrees ch port b = true →
      let d := s.dev.heardOn ch port
      let d1 := if (d.cellNode n).got then d else d.takeMeas ch n b
      let d2 := d1.setCellNode n { d1.cellNode n with sideA := (d1.cellNode n).sideA || !bit (rd b 2 1) 1,
                                                      sideB := (d1.cellNode n).sideB || bit (rd b 2 1) 1 }
      let higher := d2.claims && outranks (rd b 4 2) (rd b 2 1 % 2) d2.term d2.unit
      (higher = false → exec (.measReceived ch port r) s = .next (s.after d2)) ∧
      (higher = true → exec (.measReceived ch port r) s = .next (s.after (d2.chainRejected ch (rd b 4 2) (rd b 2 1 % 2)))))) ∧
  (heard → 3 ≤ s.dev.chainState ch →
    (cellRecordOk r 0x21 24 = false → exec (.pongReceived ch port r rt) s = .next (s.after (s.dev.discardCell ch))) ∧
    (cellRecordOk r 0x21 24 = true → s.dev.posAgrees ch port b = false →
      exec (.pongReceived ch port r rt) s = .next (s.after (s.dev.bumpSat (F.clnCrcCount_posErr ch)))) ∧
    (cellRecordOk r 0x21 24 = true → s.dev.posAgrees ch port b = true → s.dev.fromB ch port = false →
      (x.pingsA.length < 15 → exec (.pongReceived ch port r rt) s = .next (s.after
        (s.dev.setCellNode n { x with pingsA := x.pingsA ++ [rt - rd b 12 4] }))) ∧
      (15 ≤ x.pingsA.length → exec (.pongReceived ch port r rt) s = .next (s.after
        ((s.dev.setCellNode n { x with pingsA := [] }).newDelay ch port n (rd b 3 1) (medianOf (x.pingsA ++ [rt - rd b 12 4])))))) ∧
    (cellRecordOk r 0x21 24 = true → s.dev.posAgrees ch port b = true → s.dev.fromB ch port = true →
      (x.pingsB.length < 15 → exec (.pongReceived ch port r rt) s = .next (s.after
        (s.dev.setCellNode n { x with pingsB := x.pingsB ++ [rt - rd b 12 4] }))) ∧
      (15 ≤ x.pingsB.length → exec (.pongReceived ch port r rt) s = .next (s.after
        ((s.dev.setCellNode n { x with pingsB := [] }).newDelay ch port n (rd b 3 1) (medianOf (x.pingsB ++ [rt - rd b 12 4])))))) ∧
    (cellRecordOk r 0x22 20 = false → exec (.ackReceived ch port r) s = .next (s.after (s.dev.discardCell ch))) ∧
    (cellRecordOk r 0x22 20 = true → s.dev.posAgrees ch port b = false →
      exec (.ackReceived ch port r) s = .next (s.after (s.dev.bumpSat (F.clnCrcCount_posErr ch)))) ∧
    (cellRecordOk r 0x22 20 = true → s.dev.posAgrees ch port b = true → x.cmds.find? (fun z => z.cseq = rd b 8 4) = none →
      exec (.ackReceived ch port r) s = .next (s.after s.dev)) ∧
    (∀ y, cellRecordOk r 0x22 20 = true → s.dev.posAgrees ch port b = true → x.cmds.find? (fun z => z.cseq = rd b 8 4) = some y →
      let d1 := s.dev.setCellNode n { x with cmds := x.cmds.filter (fun z => z.cseq ≠ y.cseq) }
      (y.oid = none → exec (.ackReceived ch port r) s = .next (s.after d1)) ∧
      (∀ o, y.oid = some o → rd b 12 1 = 0 ∨ rd b 12 1 = 3 →
        exec (.ackReceived ch port r) s = .next (s.after (d1.finish o (d1.doneStatus o) (le 1 d1.setInForce)))) ∧
      (∀ o, y.oid = some o → rd b 12 1 ≠ 0 → rd b 12 1 ≠ 3 →
        exec (.ackReceived ch port r) s = .next (s.after ((d1.raise (160 + n)).finish o St.refused []))))) ∧
  (¬ heard ∨ s.dev.chainState ch < 2 → exec (.measReceived ch port r) s = .next (s.after s.dev)) ∧
  (¬ heard ∨ s.dev.chainState ch < 3 → exec (.pongReceived ch port r rt) s = .next (s.after s.dev) ∧
    exec (.ackReceived ch port r) s = .next (s.after s.dev))) ∧
  (∀ (s : State) (m : Nat), m < 48 →
  (∀ ch pos, s.dev.cellPlace m = some (ch, pos) →
    let open_ := s.dev.chainState ch = 4 ∨ (s.dev.sstUp = true ∧ s.dev.fld (F.cmuCellSvc_svc m) = 0)
    (open_ → s.dev.flag (F.clnCellStat_lost m) = false → s.dev.flag (F.clnCellStat_absent m) = false →
      s.dev.fld F.clnCfg_cellMiss ≤ (s.dev.cellNode m).missed →
      let d1 := ((s.dev.setFlag (F.clnCellStat_lost m) true).setFlag (F.clnChainErr_cellLost ch) true).event 0x0712 m
        (le 1 (s.dev.fld (F.clnCellStat_missed m)))
      (d1.fld (F.cmuCellSvc_svc m) = 0 →
        exec (.cellLost m) s = .next (s.after (((d1.queueCellCmd m 0x03 0 none).cellOut m 4 3).checkStopped))) ∧
      (d1.fld (F.cmuCellSvc_svc m) ≠ 0 → exec (.cellLost m) s = .next (s.after d1.checkStopped))) ∧
    (¬ open_ ∨ s.dev.flag (F.clnCellStat_lost m) = true ∨ s.dev.flag (F.clnCellStat_absent m) = true ∨
      (s.dev.cellNode m).missed < s.dev.fld F.clnCfg_cellMiss → exec (.cellLost m) s = .next (s.after s.dev))) ∧
  (s.dev.cellPlace m = none → exec (.cellLost m) s = .next (s.after s.dev)))

/-- The rows of the LV legs and of the gate protection (R323 to R343): PWM is enabled and drained, staged pairs are committed, a leg passes its
boundaries; a comparator, the interlock, a trip input, DRV_EN and the supplies of the gates latch their legs, with source and event.
Where the rules leave a choice the statement follows the model's: log entries 82, 83. -/
def Obligations.LegRowsTakeEffect : Prop :=
  ∀ (s : State) (l : Nat) (v : Word), l < 8 →
  exec .pwmDisable s = .next (s.after s.dev.pwmOff) ∧ exec .pwmEnable s = .next (s.after s.dev.pwmOn) ∧
  (s.dev.flag F.cpxReady1_pcie = true →
    exec (.pwmCommit v) s = .next (s.after ((bitsOf v.toNat 8).foldl (fun d l => if d.legLv l then d else d.registerCommit l) s.dev)) ∧
    (s.dev.legLv l = true →
      exec (.pwmStageWrite (R.pwmPerStg l) v) s = .next (s.after (s.dev.legFlag (F.pwmLegFlags_srcErr l))) ∧
      exec (.pwmStageWrite (R.pwmDutyStg l) v) s = .next (s.after (s.dev.legFlag (F.pwmLegFlags_srcErr l)))) ∧
    (s.dev.legLv l = false →
      exec (.pwmStageWrite (R.pwmPerStg l) v) s = .next (s.after ((s.dev.setFld (F.pwmPerStg_v l) (v.toNat % 2 ^ 19)).setLeg l
        { s.dev.leg l with perNew := true, perAt := (s.dev.leg l).commits })) ∧
      exec (.pwmStageWrite (R.pwmDutyStg l) v) s = .next (s.after ((s.dev.setFld (F.pwmDutyStg_v l) (v.toNat % 2 ^ 19)).setLeg l
        { s.dev.leg l with cmpNew := true, cmpAt := (s.dev.leg l).commits })))) ∧
  (s.dev.legState l = 2 ∨ s.dev.legState l = 3 ∨ s.dev.legState l = 5 →
    (s.dev.fld (F.pwmLegCfg_upd l) = 1 → (s.dev.leg l).half = false →
      let t := (s.dev.leg l).start + s.dev.legPeriod l / 2
      exec (.pwmBoundary l) s = .next (s.after ((s.dev.advance t).legMid l t))) ∧
    (s.dev.fld (F.pwmLegCfg_upd l) ≠ 1 ∨ (s.dev.leg l).half = true →
      exec (.pwmBoundary l) s = .next (s.after
        (((s.dev.advance (s.dev.periodEnd l)).stepTrim l).legPeriodEnd l (s.dev.periodEnd l)))) ∧
    ((s.dev.leg l).refreshed = false → s.dev.legPeriod l ≤ (s.dev.leg l).high →
      s.dev.fld (F.pwmLegCfg_bstN l) ≤ s.dev.fld (F.pwmLegStat_noLo l) + 1 →
      exec (.refreshPulse l) s = .next (s.after ((s.dev.advance (s.dev.periodEnd l - (s.dev.fld (F.pwmLegMp_bstW l) +
        s.dev.fld (F.pwmLegDt_dtF l) + s.dev.fld (F.pwmLegDt_dtR l)))).refreshPulse l)))) ∧
  (s.dev.legState l = 0 ∨ s.dev.legState l = 4 → exec (.pwmBoundary l) s = .next (s.after s.dev) ∧
    exec (.refreshPulse l) s = .next (s.after s.dev)) ∧
  (s.dev.legState l = 1 →
    let d1 := (s.dev.advance (s.dev.leg l).chargeEnd).startLegRun l
    exec (.legPrechargeEnd l) s = .next (s.after (checkEnables d1.pwm.enables d1))) ∧
  (∀ b p, s.dev.legState l = 2 → (if b then (s.dev.leg l).trgB else (s.dev.leg l).trgA) = some p → p < s.dev.legPeriod l →
    let d1 := s.dev.advance ((s.dev.leg l).start + p)
    exec (.pwmTriggerPulse l b) s = .next (s.after
      { d1 with pwm := { d1.pwm with lineAt := tput (fun _ => 0) d1.pwm.lineAt (2 * l + b2n b) d1.now } })) ∧
  (let d := s.dev.setFlag (F.gdpLegLatch_cmpMain l) true
   (d.blanked l = true → exec (.mainComparatorTrip l) s = .next (s.after d)) ∧
   (d.blanked l = false → exec (.mainComparatorTrip l) s = .next (s.after
     ((d.bumpSat (F.gdpLegCount_crossings l)).tripLeg l (F.gdpLegLatch_oc l))))) ∧
  exec (.hardComparatorTrip l) s = .next (s.after ((s.dev.setFlag (F.gdpLegLatch_cmpHard l) true).tripLeg l (F.gdpLegLatch_hardOc l))) ∧
  exec (.shootThroughBlock l) s = .next (s.after (s.dev.tripLeg l (F.gdpLegLatch_shootBlock l))) ∧
  (∀ i level, i < 4 →
    exec (.tripInAssert i level) s = .next (s.after
      (({ s.dev with pwm := { s.dev.pwm with tripPins := setBit s.dev.pwm.tripPins i level } } : Dev).followTrip i (s.dev.tripForces i)))) ∧
  (s.dev.flag F.gdpStat_drvEn = false → exec .drvEnFall s = .next (s.after s.dev)) ∧
  (s.dev.flag F.gdpStat_drvEn = true → (List.range 8).filter s.dev.legEnabled = [] →
    exec .drvEnFall s = .next (s.after
      ((({ s.dev with pwm := { s.dev.pwm with drvLowAt := s.dev.now } } : Dev).setFlag F.gdpStat_drvEn false).event 0x0806 0 (le 1 0)))) ∧
  (s.dev.flag F.gdpStat_drvEn = true → s.dev.legEnabled l = true →
    let d1 := (({ s.dev with pwm := { s.dev.pwm with drvLowAt := s.dev.now } } : Dev).setFlag F.gdpStat_drvEn false).event 0x0806 0 (le 1 0)
    exec .drvEnFall s = .next (s.after ((((List.range 8).filter s.dev.legEnabled).foldl (fun d l =>
      ((d.setLeg l { d.leg l with holdHi := false, holdLo := false }).stopLeg l 0).latchLeg l (F.gdpLegLatch_drvEnDrop l)) d1).raise 268))) ∧
  (∀ main hard, s.dev.flag F.gdpStat_drvEn = false →
    let d1 := (List.range 8).foldl (fun d l => (d.setFlag (F.gdpLegLatch_cmpMain l) (bit main l)).setFlag (F.gdpLegLatch_cmpHard l) (bit hard l)) s.dev
    let d2 := (d1.setFlag F.gdpStat_drvEn true).event 0x0806 0 (le 1 1)
    (s.dev.now < s.dev.pwm.drvLowAt + 10 * tickUs → exec (.drvEnRise main hard) s = .next (s.after d2)) ∧
    (s.dev.pwm.drvLowAt + 10 * tickUs ≤ s.dev.now → exec (.drvEnRise main hard) s = .next (s.after ((List.range 8).foldl Dev.clearLatch d2)))) ∧
  exec .vgdUndervoltage s = .next (s.after
    (((List.range 8).filter s.dev.legEnabled).foldl (fun d l => d.tripLeg l (F.gdpLegLatch_vgdUv l)) (s.dev.setFlag F.gdpStat_vgdOk false))) ∧
  (s.dev.flag (F.gdpLegLatch_bstUv l) = false → exec (.bootstrapUndervoltage l true) s = .next (s.after
    ((s.dev.setFlag (F.gdpLegLatch_bstUv l) true).bumpSat (F.gdpLegCount_bstUv l)))) ∧
  (s.dev.flag (F.gdpLegLatch_bstUv l) = true → exec (.bootstrapUndervoltage l false) s = .next (s.after (
    let d1 := s.dev.setFlag (F.gdpLegLatch_bstUv l) false
    d1.setLeg l { d1.leg l with bstFrom := d1.now })))

/-! ### Converters and calibration (chapters 14 and 15) -/

/-- The commands of the converters. ADC_CONFIG (R355) with legal slots that touch no running consumer waits for the frame strobe and answers DONE;
ADC_INJECT (R356) of a pair that is enabled and has no stream with `div` 1 queues one conversion; DAC_CONFIG (R364) of a channel that is off sets the
divider, and the span with a relay that settles, at once, and one of a running channel waits for its sample ticks; DAC_ENABLE (R362, R363) enables
channels that are off and answers DONE, and drains channels to their safe value, answering DONE at once where all of them are off already. On a unit
that is not the active unit of a pair; there R421 forwards the DAC commands.
Where the rules leave a choice the statement follows the model's: log entries 85, 88. -/
def Obligations.ConverterCommandsTakeEffect : Prop :=
  ∀ (s : State) (c : Cmd) (q : Nat), s.dev.pairedActive = false →
  (∀ p r m, Starts s.dev 0x0901 c q → rd c.payload 0 1 = p → rd c.payload 1 1 = r → rd c.payload 2 1 = m → rd c.payload 3 5 = 0 → p ≤ 5 → r ≤ 2 →
    let o := s.dev.opened 0x0901 c q
    let word := fun k => if bit m k then rd c.payload (8 + 4 * k) 4 else o.comingSlot p k
    (∀ k < 8, bit m k = false → rd c.payload (8 + 4 * k) 4 = 0) → (∀ k ∈ bitsOf m 8, slotOk p (word k) = true) → slotsOk word = true →
    (bit m 7 = true → o.slotClaimed p = false) → o.touchesConsumer p r word = false →
    let kept := match (o.adcPair p).newCfg with | some (_, l) => l.filter (fun e => !bit m e.1) | none => []
    let new := ((bitsOf m 8).filter (fun k => word k ≠ o.slotWord p k)).map (fun k => (k, word k))
    exec (.adcConfig c) s = .next (s.after ((o.setPair p { o.adcPair p with newCfg := some (r, kept ++ new) }).replied 0x0901 c q
      (s.dev.nextCall 0x0901 c q).oid St.done []))) ∧
  (∀ p i, Starts s.dev 0x0902 c q → rd c.payload 0 1 = p → rd c.payload 1 1 = i → rd c.payload 2 1 < 2 → rd c.payload 3 1 = 0 → p ≤ 5 → i ≤ 31 →
    reaches p i = true →
    let o := (s.dev.opened 0x0902 c q).interim 0x0902 c q []
    o.bitAt R.adcCtrl p = true → (∀ k < 8, slotSrc (o.slotWord p k) = 4 → slotDiv (o.slotWord p k) ≠ 1) →
    exec (.adcInject c) s = .next (s.after ((o.setPair p { o.adcPair p with injects := (o.adcPair p).injects ++
      [((s.dev.nextCall 0x0902 c q).oid, i, bit (rd c.payload 2 1) 0, o.now)] }).goesOn q))) ∧
  (∀ i span div, Starts s.dev 0x0903 c q → rd c.payload 0 1 = i → rd c.payload 1 1 = span → rd c.payload 4 2 = div → rd c.payload 2 1 < 2 →
    rd c.payload 3 1 = 0 → rd c.payload 6 2 = 0 → i ≤ 15 → span ≤ 3 → 16 ≤ div →
    let o := (s.dev.opened 0x0903 c q).interim 0x0903 c q []
    let oid := (s.dev.nextCall 0x0903 c q).oid
    (o.dacCh i).change = none → (o.dacCh i).divDue = none →
    (o.cstate i = 0 → span = o.fld (F.dacChCfg_span i) →
      exec (.dacConfig c) s = .next (s.after (((o.setFld (F.dacChCfg_div i) div).finish oid St.done []).goesOn q))) ∧
    (o.cstate i = 2 → span = o.fld (F.dacChCfg_span i) →
      exec (.dacConfig c) s = .next (s.after ((o.setDac i { o.dacCh i with divDue := some (div, oid) }).goesOn q))) ∧
    (o.cstate i = 0 → span ≠ o.fld (F.dacChCfg_span i) →
      exec (.dacConfig c) s = .next (s.after ((((o.setFld (F.dacChCfg_span i) span).setFld (F.dacChCfg_div i) div).setDac i
        { o.dacCh i with change := some ⟨span, div, oid, 4, o.now⟩ }).goesOn q))) ∧
    (o.cstate i = 2 → span ≠ o.fld (F.dacChCfg_span i) →
      exec (.dacConfig c) s = .next (s.after ((o.setDac i { o.dacCh i with
        change := some ⟨span, div, oid, 0, 0⟩, queue := if bit (rd c.payload 2 1) 0 then [] else (o.dacCh i).queue }).goesOn q)))) ∧
  (∀ m, Starts s.dev 0x0904 c q → rd c.payload 0 2 = m → rd c.payload 3 1 = 0 →
    let a := s.dev.opened 0x0904 c q
    let o := a.interim 0x0904 c q []
    let oid := (s.dev.nextCall 0x0904 c q).oid
    (rd c.payload 2 1 = 1 → (∀ i ∈ bitsOf m 16, a.cstate i = 0 ∧ a.spanChanging i = false) →
      exec (.dacEnable c) s = .next (s.after (((bitsOf m 16).foldl Dev.dacOn a).replied 0x0904 c q oid St.done []))) ∧
    (rd c.payload 2 1 = 0 → (∀ i ∈ bitsOf m 16, a.cstate i ≠ 3 ∧ (a.cstate i = 0 ∨ a.spanChanging i = false)) →
      (∀ i ∈ bitsOf m 16, ((bitsOf m 16).foldl Dev.dacOff a).cstate i = 0) →
      exec (.dacEnable c) s = .next (s.after (((bitsOf m 16).foldl Dev.dacOff a).replied 0x0904 c q oid St.done []))) ∧
    (rd c.payload 2 1 = 0 → (∀ i ∈ bitsOf m 16, a.cstate i ≠ 3 ∧ (a.cstate i = 0 ∨ a.spanChanging i = false)) →
      (∃ i ∈ bitsOf m 16, ((bitsOf m 16).foldl Dev.dacOff a).cstate i ≠ 0) → (∃ i ∈ bitsOf m 16, ((bitsOf m 16).foldl Dev.dacOff o).cstate i ≠ 0) →
      let d1 := (bitsOf m 16).foldl Dev.dacOff o
      exec (.dacEnable c) s = .next (s.after (({ d1 with dac := { d1.dac with drains := d1.dac.drains ++ [(oid, m)] } } : Dev).goesOn q))))

/-- The rows of the input converters (R348, R349, R351, R356, R357, R358): a slot that fires takes the lower slots of its pair that fire at the same
instant before it; a firing waits for the sample edge, is held by a free converter, becomes the pending conversion, or is dropped on overrun, and one of
an input under calibration keeps its result; a conversion ends 110 ns after its hold with its reply or its slot's result, or discarded where its pair was
disabled; a reference settles with event 0x0902; an injected conversion that cannot start in 100 µs is a CONFLICT; a pair is disabled unless a running
consumer uses it, and enabled. The rows of the output channels (R360 to R364): a push into a running channel is queued, one into a full queue or a
channel that is off is counted as discarded; a tick is handled in states 2 and 3, and in state 2 without a change it plays the head of the queue; an
enabled channel begins to play after 10 µs, a drained one is off after 10 µs at its safe value, and a relay has settled after 250 µs. Where nothing of the
kind is under way these rows have no effect.
Where the rules leave a choice the statement follows the model's: log entries 25, 85, 86, 88, 146. -/
def Obligations.ConverterRowsTakeEffect : Prop :=
  (∀ (s : State) (p : Nat), p < 6 →
  (∀ k t, k < 8 → s.dev.slotFires p k = some t →
    exec (.adcSlotFire p k) s = .next (s.after
      (((List.range k).filter (fun i => s.dev.slotFires p i = some t) ++ [k]).foldl (fun d i => d.fireAt p i t) s.dev))) ∧
  (∀ k, k < 8 → s.dev.slotFires p k = none → exec (.adcSlotFire p k) s = .next (s.after s.dev)) ∧
  (∀ b code x, (s.dev.adcPair p).convs.find? (fun y => y.1 = b) = some x →
    let d := settlePair p (x.2.hold + 880) 4 s.dev
    (d.adcPair p).convs.find? (fun y => y.1 = b) = some x →
    let d1 := (d.setPair p { d.adcPair p with convs := (d.adcPair p).convs.erase x }).advance (x.2.hold + 880)
    let r := d1.correct p b x.2 code
    (∀ oid, x.2.dropped = false → x.2.oid = some oid → exec (.adcConversionDone p b code) s = .next (s.after
      (((d1.finish oid St.done (le 2 r.2 ++ le 1 (b2n ((d.adcPair p).calInputs.contains x.2.input) + 2 * b2n x.2.unsettled) ++ le 1 0 ++
        le 8 (d1.taiOfTick x.2.hold))).checkPairDrained p).takeCalInputs p))) ∧
    (∀ k, x.2.dropped = false → x.2.oid = none → x.2.slot = some k →
      exec (.adcConversionDone p b code) s = .next (s.after (((d1.writeResult p k x.2 r.1 r.2).checkPairDrained p).takeCalInputs p))) ∧
    (∀ oid, x.2.dropped = true → x.2.oid = some oid → exec (.adcConversionDone p b code) s = .next (s.after
      ((((d1.setFlag (F.adcPairStat_discarded p) true).finish oid St.conflict []).checkPairDrained p).takeCalInputs p))) ∧
    (∀ k, x.2.dropped = true → x.2.oid = none → x.2.slot = some k → exec (.adcConversionDone p b code) s = .next (s.after
      ((((d1.setFlag (F.adcPairStat_discarded p) true).unserveSlot p k x.2.trig).checkPairDrained p).takeCalInputs p)))) ∧
  (s.dev.flag (F.adcPairStat_settling p) = true → exec (.adcRefSettled p) s = .next (s.after
    (((s.dev.advance (s.dev.adcPair p).settleEnd).setSettling p false).event 0x0902 p (le 1 (s.dev.fld (F.adcPairCfg_ref p)))))) ∧
  (s.dev.flag (F.adcPairStat_settling p) = false → exec (.adcRefSettled p) s = .next (s.after s.dev)) ∧
  (∀ oid i b t r, (s.dev.adcPair p).injects = (oid, i, b, t) :: r →
    let d := settlePair p (t + 100 * tickUs + 1) 4 s.dev
    (d.adcPair p).injects = (oid, i, b, t) :: r →
    exec (.adcInjectTimeout p) s = .next (s.after
      ((((d.advance (t + 100 * tickUs)).setPair p { d.adcPair p with injects := r }).finish oid St.conflict []).takeCalInputs p))) ∧
  (s.dev.bitAt R.adcCtrl p = true → s.dev.pairInUse p = false → exec (.adcPairDisable p) s = .next (s.after (s.dev.pairOff p))) ∧
  (s.dev.bitAt R.adcCtrl p = false ∨ s.dev.pairInUse p = true → exec (.adcPairDisable p) s = .next (s.after s.dev)) ∧
  (s.dev.bitAt R.adcCtrl p = false →
    let d1 := (s.dev.setBitAt R.adcCtrl p true).setFld F.adcStat_drained (setBit (s.dev.fld F.adcStat_drained) p false)
    exec (.adcPairEnable p) s = .next (s.after (d1.setPair p { d1.adcPair p with waitStrobe := true }))) ∧
  (s.dev.bitAt R.adcCtrl p = true → exec (.adcPairEnable p) s = .next (s.after s.dev))) ∧
  (∀ (d : Dev) (p k t : Nat),
    let w := d.slotWord p k
    let h := adcEdge d.shift t
    let d1 := settlePair p h 4 (d.advance t)
    let x := d1.adcPair p
    let d2 := d1.setPair p { x with fired := tput (fun _ => 0) x.fired k (t + 1) }
    let c := convOf (some k) (slotInput w) (slotBipolar w) h t none
    let parity := if slotSrc w = 4 ∧ slotDiv w = 1 then some (decide (d2.sampleNumber t % 2 = 1)) else none
    (d2.bitAt R.adcCtrl p = false → d.fireAt p k t = d2.unserveSlot p k t) ∧
    (d2.bitAt R.adcCtrl p = true → x.calInputs.contains (slotInput w) = true → d.fireAt p k t = d2.keepResult p k t) ∧
    (d2.bitAt R.adcCtrl p = true → x.calInputs.contains (slotInput w) = false →
      (∀ b, x.takes h parity = some b → x.pend = none → d.fireAt p k t = d2.beginConv p b c) ∧
      (x.takes h parity = none → x.pend = none → d.fireAt p k t = d2.setPend p (some c)) ∧
      (x.pend ≠ none → d.fireAt p k t = d2.overrun p k t))) ∧
  (∀ (s : State) (ch : Nat), ch < 16 →
  let x := s.dev.dacCh ch
  let st := s.dev.cstate ch
  (∀ v : Word, s.dev.flag F.cpxReady1_pcie = true →
    (1 ≤ st → st ≤ 3 → x.queue.length < 16 →
      exec (.dacQueuePush ch v) s = .next (s.after
        ((s.dev.setFld (F.dacQueue_code ch) (v.toNat % 65536)).setDac ch { x with queue := x.queue ++ [v.toNat % 65536] }))) ∧
    (1 ≤ st → st ≤ 3 → 16 ≤ x.queue.length →
      exec (.dacQueuePush ch v) s = .next (s.after ((s.dev.setFlag (F.dacChFlags_qFull ch) true).bumpSat (F.dacChCount_discarded ch)))) ∧
    (st = 0 ∨ 4 ≤ st →
      exec (.dacQueuePush ch v) s = .next (s.after ((s.dev.setFlag (F.dacChFlags_offWrite ch) true).bumpSat (F.dacChCount_discarded ch))))) ∧
  (∀ v : Word, s.dev.flag F.cpxReady1_pcie = false → exec (.dacQueuePush ch v) s = .next (s.after s.dev)) ∧
  (st = 2 ∨ st = 3 → exec (.dacSampleTick ch) s = .next (s.after (s.dev.dacSample ch))) ∧
  (st = 2 → s.dev.changeUnderWay ch = none → x.divDue = none →
    let t := s.dev.dacTick ch s.dev.now
    let d1 := (s.dev.advance t).setDac ch { x with tickAt := t + 1 }
    (d1.cstate ch = 2 → d1.changeUnderWay ch = none → (d1.dacCh ch).divDue = none → s.dev.dacSample ch = d1.playDac ch)) ∧
  (st ≠ 2 → st ≠ 3 → exec (.dacSampleTick ch) s = .next (s.after s.dev)) ∧
  (st = 1 →
    let t := s.dev.dacTick ch (x.stateAt + 10 * tickUs)
    exec (.dacEnableSettle ch) s = .next (s.after
      ((((s.dev.advance t).setDac ch { x with tickAt := t + 1 }).setCstate ch 2).playDac ch))) ∧
  (st ≠ 1 → exec (.dacEnableSettle ch) s = .next (s.after s.dev)) ∧
  (st = 4 →
    let d1 := (s.dev.advance (x.safeAt + 10 * tickUs)).setCstate ch 0
    let d2 := d1.setFld F.dacStat_drained (setBit (d1.fld F.dacStat_drained) ch true)
    exec (.dacDrainDone ch) s = .next (s.after (checkDacDrains d2.dac.drains d2))) ∧
  (st ≠ 4 → exec (.dacDrainDone ch) s = .next (s.after s.dev)) ∧
  (∀ y, x.change = some y →
    (y.phase = 4 → exec (.dacSpanRelaySettle ch) s = .next (s.after
      ((((s.dev.advance (y.at_ + 250 * tickUs)).setDac ch { x with change := none }).event 0x0904 ch (le 1 y.span)).finish y.oid St.done []))) ∧
    (y.phase = 1 → exec (.dacSpanRelaySettle ch) s = .next (s.after
      (((s.dev.advance (x.safeAt + 251 * tickUs)).setFld (F.dacChCfg_span ch) y.span).setDac ch { x with change := some { y with phase := 2 } }))) ∧
    (y.phase ≠ 1 → y.phase ≠ 4 → exec (.dacSpanRelaySettle ch) s = .next (s.after s.dev))) ∧
  (x.change = none → exec (.dacSpanRelaySettle ch) s = .next (s.after s.dev)))

/-- CAL_RUN (R376) with legal fields, and signed for an import, begins the job where no other runs and its targets do not clash with what runs; while a
job runs, or where the targets clash, it is a CONFLICT, and an import without the owner's signature is refused with REFUSED. Fields that are not legal are
answered BAD_PARAM. CAL_GAP (R381) declares the gap from its start, or answers DONE at once for one that has passed; with 16 gaps pending, or without
`ptp`, it is refused. On a unit that is not the active unit of a pair.
Where the rules leave a choice the statement follows the model's: log entry 92. -/
def Obligations.CalibrationCommandsTakeEffect : Prop :=
  ∀ (s : State) (c : Cmd) (q : Nat), s.dev.pairedActive = false →
  (Starts s.dev 0x0A01 c q → jobFieldsOk c.payload = true →
    let a := s.dev.opened 0x0A01 c q
    let o := a.interim 0x0A01 c q []
    let b := c.payload
    let oid := (s.dev.nextCall 0x0A01 c q).oid
    (a.cal.job = none → a.jobClash b = false → o.jobClash b = false →
      (rd b 0 1 = 6 → ∃ k, a.hst.ownerKey = some k ∧ Config.ecdsaVerify k c.image ((b.drop 32).take 96) = true) →
      exec (.calRun c) s = .next (s.after
        ((o.beginJob ⟨oid, rd b 0 1, rd b 4 4, rd b 8 2, rd b 10 2, rd b 16 8, rd b 24 4, c.image, o.now⟩).goesOn q))) ∧
    (a.cal.job.isSome = true ∨ a.jobClash b = true → exec (.calRun c) s = .next (s.after (a.replied 0x0A01 c q oid St.conflict []))) ∧
    (a.cal.job = none → a.jobClash b = false → rd b 0 1 = 6 →
      (∀ k, a.hst.ownerKey = some k → Config.ecdsaVerify k c.image ((b.drop 32).take 96) = false) →
      exec (.calRun c) s = .next (s.after (a.replied 0x0A01 c q oid St.refused [])))) ∧
  (Starts s.dev 0x0A01 c q → jobFieldsOk c.payload = false →
    exec (.calRun c) s = .next (s.after ((s.dev.opened 0x0A01 c q).replied 0x0A01 c q (s.dev.nextCall 0x0A01 c q).oid St.badParam []))) ∧
  (∀ l dur start, Starts s.dev 0x0A02 c q → rd c.payload 0 1 = l → rd c.payload 4 4 = dur → rd c.payload 8 8 = start → l ≤ 31 ∨ l = 0xFF →
    rd c.payload 1 3 = 0 → 200 ≤ dur → dur ≤ 10000000 →
    let o := s.dev.opened 0x0A02 c q
    let oid := (s.dev.nextCall 0x0A02 c q).oid
    let opens := (max (o.tickOfTai start) o.now).toNat
    let closes := o.tickOfTai ((start : Int) + dur * 1000)
    (start : Int) ≤ o.wall + 60000000000 →
    (16 ≤ o.cal.gaps.length ∨ o.flag F.cpxReady1_ptp = false → exec (.calGap c) s = .next (s.after (o.replied 0x0A02 c q oid St.refused []))) ∧
    (o.cal.gaps.length < 16 → o.flag F.cpxReady1_ptp = true →
    ((o.now : Int) < closes → exec (.calGap c) s = .next (s.after
      (({ o with cal := { o.cal with gaps := o.cal.gaps ++ [⟨l, opens, closes.toNat, decide (opens ≤ o.now)⟩] } } : Dev).replied 0x0A02 c q oid St.done
        []))) ∧
    (closes ≤ o.now → exec (.calGap c) s = .next (s.after (o.replied 0x0A02 c q oid St.done [])))))

/-- The rows of calibration (R231, R373, R375, R377, R379 to R383): a written bank is switched to at its strobe; the hourly check makes a bad inactive
bank invalid and has a bad active bank written anew into the other, and skips the bank being written; a job that ends well writes its bank, or its
export, and fails where a correction is implausible, its bank cannot be built or stored, or its elements are not measured in 60 s; gathered results are
committed with 64 elements or after 60 s; a rake or a live step counts, is judged invalid or is gathered; gaps open and close; CAL is enabled and
disabled. Where nothing of the kind is under way these rows have no effect.
Where the rules leave a choice the statement follows the model's: log entries 89, 90, 91, 92, 147. -/
def Obligations.CalibrationRowsTakeEffect : Prop :=
  ∀ s : State,
  (∀ oid n, s.dev.cal.written = some (oid, n) → exec .bankSwitch s = .next (s.after
    ((s.dev.advance (s.dev.strobeFrom (max s.dev.now (s.dev.frameTick n)))).switchBank oid))) ∧
  (s.dev.cal.written = none → exec .bankSwitch s = .next (s.after s.dev)) ∧
  (∀ okA okB,
    let second := s.dev.flag F.calStat_active
    let other := if second then s.dev.cal.bankA else s.dev.cal.bankB
    let good := if second then okB else okA
    let goodOther := if second then okA else okB
    let d1 := if goodOther = false ∧ other.valid = true ∧ s.dev.cal.written = none then
      s.dev.voidInactive.event 0x0A04 (b2n (!second)) (le 1 1) else s.dev
    (good = true ∨ s.dev.bank.valid = false → exec (.nvHourlyCheck okA okB) s = .next (s.after d1)) ∧
    (good = false → s.dev.bank.valid = true →
      let d2 := d1.event 0x0A04 (b2n second) (le 1 2)
      (d2.cal.written = none → exec (.nvHourlyCheck okA okB) s = .next (s.after (d2.writeBank d2.bank none))) ∧
      (d2.cal.written ≠ none → exec (.nvHourlyCheck okA okB) s = .next (s.after d2)))) ∧
  (∀ j recs, s.dev.cal.job = some j →
    (∀ good stored, s.dev.cal.written ≠ none → exec (.calJobComplete good stored recs) s = .next (s.after s.dev)) ∧
    (s.dev.cal.written = none →
      (∀ stored, exec (.calJobComplete false stored recs) s = .next (s.after (s.dev.failJob j))) ∧
      (∀ stored, j.kind = 7 →
        let img := (bankImage s.dev.bank).take j.length
        exec (.calJobComplete true stored recs) s = .next (s.after
          (((s.dev.send (.hostWrite j.addr img)).clearJob j true).reportJob j true (le 4 s.dev.bank.ident ++ le 4 img.length)))) ∧
      (∀ stored, j.kind = 4 ∨ j.kind = 5 → s.dev.jobMeasured j = false →
        (j.began + 60 * tickS ≤ s.dev.now → exec (.calJobComplete true stored recs) s = .next (s.after (s.dev.failJob j))) ∧
        (s.dev.now < j.began + 60 * tickS → exec (.calJobComplete true stored recs) s = .next (s.after s.dev))) ∧
      (j.kind ≠ 7 → (j.kind = 4 ∨ j.kind = 5 → s.dev.jobMeasured j = true) →
        (∀ stored, s.dev.jobBank j recs = none → exec (.calJobComplete true stored recs) s = .next (s.after (s.dev.failJob j))) ∧
        (∀ b, s.dev.jobBank j recs = some b →
          exec (.calJobComplete true false recs) s = .next (s.after ((s.dev.voidInactive.raise 301).failJob j)) ∧
          (let d1 := s.dev.writeBank b (some j.oid)
           exec (.calJobComplete true true recs) s = .next (s.after
             (if j.kind = 6 then d1 else { d1 with cal := { d1.cal with gathered := [], firstResult := none } }))))))) ∧
  (∀ good stored recs, s.dev.cal.job = none → exec (.calJobComplete good stored recs) s = .next (s.after s.dev)) ∧
  (∀ t, s.dev.cal.firstResult = some t →
    let d := if s.dev.cal.gathered.length < 64 then s.dev.advance (t + 60 * tickS) else s.dev
    let may := d.cal.job = none ∧ d.cal.written = none ∧ d.flag F.calCtrl_en = true
    (may → exec (.calCommit false) s = .next (s.after (d.voidInactive.raise 301))) ∧
    (may →
      let d1 := d.writeBank (d.cal.gathered.foldl d.joinResult d.bank) none
      exec (.calCommit true) s = .next (s.after { d1 with cal := { d1.cal with gathered := [], firstResult := none } })) ∧
    (∀ stored, ¬ may → exec (.calCommit stored) s = .next (s.after s.dev))) ∧
  (∀ stored, s.dev.cal.firstResult = none → exec (.calCommit stored) s = .next (s.after s.dev)) ∧
  (∀ (e : SluiceEnd) r, e.sluice < 64 → (∀ j, e.jump = some j → j < 64) →
    let d := match e.jump with | some j => s.dev.registerJump j s.dev.now | none => s.dev
    let found := d.cal.ended.find? (fun y => y.sluice = e.sluice && !y.live)
    (found = none → exec (.rakeComplete e r) s = .next (s.after d)) ∧
    (∀ x, found = some x →
      let d1 : Dev := { d with cal := { d.cal with ended := d.cal.ended.erase x } }
      (d1.cal.items.any (fun i => i.el = x.el) = false → exec (.rakeComplete e r) s = .next (s.after d1)) ∧
      (d1.cal.items.any (fun i => i.el = x.el) = true → x.invalid = true ∨ r.valid = false ∨ r.element ≠ x.el →
        exec (.rakeComplete e r) s = .next (s.after (d1.rakeInvalid x.el))) ∧
      (d1.cal.items.any (fun i => i.el = x.el) = true → x.invalid = false → r.valid = true → r.element = x.el →
        let d2 := d1.setFld F.calRakeCount_completed (d1.fld F.calRakeCount_completed + 1)
        (d2.plausible r = true → exec (.rakeComplete e r) s = .next (s.after (d2.gather r false))) ∧
        (∀ j, d2.plausible r = false → d2.cal.job = some j → d2.cal.items.any (fun i => i.el = x.el && i.job) = true →
          exec (.rakeComplete e r) s = .next (s.after (d2.failJob j))) ∧
        (d2.plausible r = false → d2.cal.job = none ∨ d2.cal.items.any (fun i => i.el = x.el && i.job) = false →
          exec (.rakeComplete e r) s = .next (s.after
            { d2 with cal := { d2.cal with items := d2.cal.items.filter (fun i => i.el ≠ x.el) } }))))) ∧
  (∀ r,
    let found := s.dev.cal.ended.find? (fun y => y.el = r.element && y.live)
    (found = none → exec (.liveStepComplete r) s = .next (s.after s.dev)) ∧
    (∀ x, found = some x →
      let d1 : Dev := { s.dev with cal := { s.dev.cal with ended := s.dev.cal.ended.erase x } }
      (d1.cal.items.find? (fun i => i.el = x.el) = none → exec (.liveStepComplete r) s = .next (s.after d1)) ∧
      (∀ i, d1.cal.items.find? (fun i => i.el = x.el) = some i →
        let d2 := d1.setFld F.calGapStat_steps (d1.fld F.calGapStat_steps + 1)
        let steps := i.steps.filter (fun t => decide (d2.now ≤ t + 3600 * tickS)) ++ [d2.now]
        let kept : Dev := { d2 with cal := { d2.cal with items := d2.cal.items.map (fun y => if y.el = x.el then { y with steps := steps } else y) } }
        (x.invalid = true ∨ r.valid = false → exec (.liveStepComplete r) s = .next (s.after d2)) ∧
        (x.invalid = false → r.valid = true → 4 ≤ steps.length → d2.plausible r = true →
          exec (.liveStepComplete r) s = .next (s.after (d2.gather r true))) ∧
        (∀ j, x.invalid = false → r.valid = true → 4 ≤ steps.length → d2.plausible r = false → i.job = true → d2.cal.job = some j →
          exec (.liveStepComplete r) s = .next (s.after (d2.failJob j))) ∧
        (x.invalid = false → r.valid = true → steps.length < 4 ∨ (d2.plausible r = false ∧ (i.job = false ∨ d2.cal.job = none)) →
          exec (.liveStepComplete r) s = .next (s.after kept))))) ∧
  (∀ i g, s.dev.cal.gaps[i]? = some g →
    (g.isOpen = false → exec (.gapOpen i) s = .next (s.after (
      let d := s.dev.advance g.opens
      { d with cal := { d.cal with gaps := d.cal.gaps.set i { g with isOpen := true } } }))) ∧
    (g.isOpen = true → exec (.gapOpen i) s = .next (s.after s.dev)) ∧
    exec (.declaredGapClose i) s = .next (s.after (
      let d := s.dev.advance g.closes
      sluiceNumbers.foldl (fun d s => match (d.sluice s).cur with
        | some x => if x.oid.isNone && x.klass = 2 && !x.rake && (g.link = 0xFF || g.link = x.link) && (d.openGaps x.el).isEmpty then
            d.stopSluice s none else d
        | none => d) { d with cal := { d.cal with gaps := d.cal.gaps.eraseIdx i } }))) ∧
  (∀ i, s.dev.cal.gaps[i]? = none →
    exec (.gapOpen i) s = .next (s.after s.dev) ∧ exec (.declaredGapClose i) s = .next (s.after s.dev)) ∧
  (∀ n, n < 1024 →
    (∀ x, s.dev.circuit n = some x → x.state = 2 → x.dark = true →
      let d := s.dev.advance (x.darkAt + 400 * tickFrame)
      ((∃ y ∈ d.cal.detected, y.1 = n ∧ x.darkAt ≤ y.2) → exec (.detectedGapOpen n) s = .next (s.after d)) ∧
      ((∀ y ∈ d.cal.detected, y.1 = n → y.2 < x.darkAt) → exec (.detectedGapOpen n) s = .next (s.after
        { d with cal := { d.cal with detected := d.cal.detected.filter (fun y => y.1 ≠ n) ++ [(n, d.now)] } }))) ∧
    ((∀ x, s.dev.circuit n = some x → x.state ≠ 2 ∨ x.dark = false) → exec (.detectedGapOpen n) s = .next (s.after s.dev))) ∧
  (s.dev.flag F.calCtrl_en = true →
    exec .calDisable s = .next (s.after s.dev.calOff) ∧ exec .calEnable s = .next (s.after s.dev)) ∧
  (s.dev.flag F.calCtrl_en = false →
    exec .calDisable s = .next (s.after s.dev) ∧ exec .calEnable s = .next (s.after s.dev.calOn))

/-! ### Sluices, ports, element links and faults (chapters 06, 10 and 16) -/

/-- The rows of the transition engine and of the ports (R133, R144 to R155, R160): TRN is enabled and disabled, and rakes admitted or not; the next sample
boundary first makes room for what waits with a deadline and counts the segments it misses, and then grants; a granted element starts; at a segment's end
a stop ends the transition, and without one or a jump a repeat, the next segment or the end follows; a write to the shaping store is refused and counted,
or put in its place, where a sluice that waits for it resumes; a sluice is free again after its rearm; a transition of a move that stalls for 4 µs is
abandoned with source 309; a port read above its ceiling for four frames is blanked with source 297. Where nothing of the kind is under way these rows
have no effect.
Where the rules leave a choice the statement follows the model's: log entries 63, 64, 95. -/
def Obligations.SluiceAndPortRowsTakeEffect : Prop :=
  ∀ (s : State) (k : Nat), k < 64 →
  let x := s.dev.sluice k
  (s.dev.flag F.trnCtrl_en = true → exec .trnDisable s = .next (s.after s.dev.trnOff) ∧ exec .trnEnable s = .next (s.after s.dev)) ∧
  (s.dev.flag F.trnCtrl_en = false → exec .trnDisable s = .next (s.after s.dev) ∧ exec .trnEnable s = .next (s.after s.dev.trnOn)) ∧
  (∀ en, exec (.rakeAdmissionSet en) s = .next (s.after (s.dev.setFlag F.trnCtrl_rakeEn en))) ∧
  exec .sluiceGrant s = .next (s.after
    ((sluiceNumbers.foldl Dev.preemptFor (s.dev.advance (sampleAt s.dev.shift s.dev.now))).countMisses).grantNow) ∧
  exec (.sluiceStart k) s = .next (s.after (s.dev.startSluice k)) ∧
  (x.cur ≠ none ∨ x.next = none → s.dev.startSluice k = s.dev) ∧
  (∀ jump, x.cur = none ∨ s.dev.segDesc x.desc = none ∨ x.stalledAt ≠ none → exec (.segmentEnd ⟨k, jump⟩) s = .next (s.after s.dev)) ∧
  (∀ g y jump, x.cur = some g → s.dev.segDesc x.desc = some y → x.stalledAt = none →
    let t := s.dev.passEnd k
    let d1 := s.dev.advance t
    let d2 := match jump with | some n => d1.registerJump k (t - n * tickSample) | none => d1
    let code := d2.lastCode k
    let d3 := d2.setSluice k { d2.sluice k with lastCode := code }
    (x.stop = true → exec (.segmentEnd ⟨k, jump⟩) s = .next (s.after (d3.endTransition k (x.stopCode.getD code)))) ∧
    (x.stop = false → (d3.sluice k).jump = none →
      (y.rep = 255 ∨ (d3.sluice k).passes < y.rep →
        exec (.segmentEnd ⟨k, jump⟩) s = .next (s.after (d3.playFrom k (d3.sluice k).desc d3.now ((d3.sluice k).passes + 1)))) ∧
      (y.rep ≠ 255 → y.rep ≤ (d3.sluice k).passes → y.last = true →
        exec (.segmentEnd ⟨k, jump⟩) s = .next (s.after (d3.endTransition k code))) ∧
      (y.rep ≠ 255 → y.rep ≤ (d3.sluice k).passes → y.last = false →
        exec (.segmentEnd ⟨k, jump⟩) s = .next (s.after (d3.goTo k y.next code))))) ∧
  (∀ w : SegWrite,
    (s.dev.segContent w = none → exec (.segmentWrite w) s = .next (s.after (s.dev.bumpSat F.trnWrRefused_segLen))) ∧
    (∀ tag rep jump last samples, s.dev.segContent w = some (tag, rep, jump, last, samples) →
      let len := (samples.length + 7) / 8
      let st := s.dev.segStatus w tag len
      (st = 0 →
        let d1 := (s.dev.putSegment w.desc { base := w.base, len := len, rep := rep, next := w.next, jump := jump, last := last, complete := w.complete,
                                             tag := tag } samples).noteSweep w
        (w.complete = true → exec (.segmentWrite w) s = .next (s.after (d1.resumeSluices w.desc))) ∧
        (w.complete = false → exec (.segmentWrite w) s = .next (s.after d1))) ∧
      (st = 1 → exec (.segmentWrite w) s = .next (s.after (s.dev.bumpSat F.trnWrRefused_segActive))) ∧
      (st ≠ 0 → st ≠ 1 → st ≠ 3 → exec (.segmentWrite w) s = .next (s.after (s.dev.bumpSat F.trnWrRefused_segLen))))) ∧
  (s.dev.fld (F.trnSlState_state k) = 1 → exec (.sluiceRearmEnd k) s = .next (s.after
    (((s.dev.advance x.freeAt).showSluice k (if x.next.isSome then 2 else 0)).updateTrnDrained))) ∧
  (s.dev.fld (F.trnSlState_state k) ≠ 1 → exec (.sluiceRearmEnd k) s = .next (s.after s.dev)) ∧
  (∀ t g, x.stalledAt = some t → x.cur = some g →
    (g.oid.isSome = true → exec (.stallAbandon k) s = .next (s.after
      ((((s.dev.advance (t + 4 * tickUs)).abandonTransition k).raise 309).recheckCalendar))) ∧
    (g.oid = none → exec (.stallAbandon k) s = .next (s.after s.dev))) ∧
  (x.stalledAt = none ∨ x.cur = none → exec (.stallAbandon k) s = .next (s.after s.dev)) ∧
  (∀ p, p < 512 →
    (∀ r, s.dev.rtp.map.port p = some r →
      let trips := s.dev.portBlanked p = false ∧ s.dev.linkReady (linkOf r.outTap) = true ∧ 4 ≤ s.dev.framesOver p
      (trips → exec (.ceilingTrip p) s = .next (s.after ((s.dev.blankPort p (s.dev.outReading p)).raiseLevel 297))) ∧
      (¬ trips → exec (.ceilingTrip p) s = .next (s.after s.dev))) ∧
    (s.dev.rtp.map.port p = none → exec (.ceilingTrip p) s = .next (s.after s.dev)))

/-- The rows of the element links (R77, R243, R251, R255 to R259, Tables 10-8 and 10-10): a link is enabled and disabled, lost, trained from state to
state and tried again; a SAMPLES record with a bad CRC is discarded and its part lost, one of the wrong unit ends the training, one of the frame is taken
once from state 4 on, and any other changes nothing; the last 8 fast-mode samples of a channel are kept; a RESP ends its CTRL; the CTRL longest without
its RESP is sent again, or the link retrains; a link masked for `late_max` frames is reported with source 32 + l. Where nothing of the kind is under way
these rows have no effect.
Where the rules leave a choice the statement follows the model's: log entries 77, 78, 79. -/
def Obligations.ElementLinkRowsTakeEffect : Prop :=
  ∀ (s : State) (l : Nat) (r : WireRec), l < 32 →
  let b := r.bytes
  let x := s.dev.elink l
  (s.dev.bitAt R.elkLinkEn l = true → exec (.linkEnable l) s = .next (s.after s.dev) ∧
    (let d1 := s.dev.setBitAt R.elkLinkEn l false
     (s.dev.linkState l = 6 → exec (.linkDisable l) s = .next (s.after
       ((((d1.setBitAt R.cpxReady0 l false).setFld (F.elkLinkStat_state l) 7).drainMoves l).checkLinkDrained l))) ∧
     (s.dev.linkState l ≠ 6 → exec (.linkDisable l) s = .next (s.after ((d1.enterState l 0).setBitAt R.elkDrained l true))))) ∧
  (s.dev.bitAt R.elkLinkEn l = false → exec (.linkDisable l) s = .next (s.after s.dev) ∧
    exec (.linkEnable l) s = .next (s.after (((s.dev.setBitAt R.elkLinkEn l true).setBitAt R.elkDrained l false).enterState l 1))) ∧
  (s.dev.bitAt R.elkLinkEn l = false ∨ x.retryAt.isSome = true → exec (.linkTrainStep l) s = .next (s.after s.dev)) ∧
  (s.dev.bitAt R.elkLinkEn l = true → x.retryAt = none →
    (s.dev.linkState l = 0 → exec (.linkTrainStep l) s = .next (s.after (s.dev.enterState l 1))) ∧
    (s.dev.linkState l = 1 → exec (.linkTrainStep l) s = .next (s.after (s.dev.enterState l 2))) ∧
    (s.dev.linkState l = 2 → x.serial.isSome = true → x.ctrls = [] → exec (.linkTrainStep l) s = .next (s.after (s.dev.enterState l 3))) ∧
    (s.dev.linkState l = 3 → 16 ≤ x.echoes.length →
      let m := echoMedian x.echoes
      let d1 := s.dev.setFld (F.elkLinkDelay_delay l) m
      (m * 80 ≤ 25000 → exec (.linkTrainStep l) s = .next (s.after (d1.enterState l 4))) ∧
      (25000 < m * 80 → exec (.linkTrainStep l) s = .next (s.after (d1.refuseLink l 3)))) ∧
    (s.dev.linkState l = 4 → 16 ≤ x.good → exec (.linkTrainStep l) s = .next (s.after (s.dev.enterState l 5))) ∧
    (s.dev.linkState l = 5 →
      (x.read < x.channels → exec (.linkTrainStep l) s = .next (s.after (pumpReads l 8 s.dev))) ∧
      (x.channels ≤ x.read → s.dev.flag F.cpxReady1_trn = true → exec (.linkTrainStep l) s = .next (s.after (s.dev.linkUp l))) ∧
      (x.channels ≤ x.read → s.dev.flag F.cpxReady1_trn = false → exec (.linkTrainStep l) s = .next (s.after s.dev)))) ∧
  (∀ t, x.retryAt = some t → s.dev.bitAt R.elkLinkEn l = true →
    exec (.linkRetryTimer l) s = .next (s.after ((s.dev.advance t).enterState l 1))) ∧
  (x.retryAt = none ∨ s.dev.bitAt R.elkLinkEn l = false → exec (.linkRetryTimer l) s = .next (s.after s.dev)) ∧
  (2 ≤ s.dev.linkState l → exec (.linkLost l 1) s = .next (s.after (s.dev.loseLink l 1)) ∧
    (400 ≤ x.silent → exec (.linkLost l 2) s = .next (s.after (s.dev.loseLink l 2))) ∧
    (x.silent < 400 → exec (.linkLost l 2) s = .next (s.after s.dev))) ∧
  (s.dev.linkState l < 2 → ∀ why, exec (.linkLost l why) s = .next (s.after s.dev)) ∧
  (s.dev.linkReady l = true → s.dev.fld F.elkCfg_lateMax ≤ x.masked → exec (.linkLate l) s = .next (s.after
    ((((s.dev.setElink l { x with masked := 0 }).setFlag (F.elkLinkErr_late l) true).event 0x0211 l (le 4 (s.dev.frame % 2 ^ 32))).raise (32 + l)))) ∧
  (s.dev.linkReady l = false ∨ x.masked < s.dev.fld F.elkCfg_lateMax → exec (.linkLate l) s = .next (s.after s.dev)) ∧
  (s.dev.linkState l < 2 ∨ x.retryAt.isSome = true → exec (.samplesReceived l r) s = .next (s.after s.dev)) ∧
  (2 ≤ s.dev.linkState l → x.retryAt = none →
    (recOk b 224 0x4B = false → exec (.samplesReceived l r) s = .next (s.after ((s.dev.discardRec l).losePart l))) ∧
    (recOk b 224 0x4B = true → b2n (bit (rd b 1 1) 2) ≠ s.dev.unit →
      exec (.samplesReceived l r) s = .next (s.after
        ((((s.dev.setFlag (F.elkLinkStat_port l) (bit (rd b 1 1) 2)).setBitAt R.cpxReady0 l false).refuseLink l 2).freeLinkSluices l))) ∧
    (recOk b 224 0x4B = true → b2n (bit (rd b 1 1) 2) = s.dev.unit → 4 ≤ s.dev.linkState l → rd b 2 2 = s.dev.frame % 65536 →
      bit x.gotParts (rd b 1 1 % 4) = false → exec (.samplesReceived l r) s = .next (s.after (s.dev.takePart l b))) ∧
    (recOk b 224 0x4B = true → b2n (bit (rd b 1 1) 2) = s.dev.unit →
      s.dev.linkState l < 4 ∨ rd b 2 2 ≠ s.dev.frame % 65536 ∨ bit x.gotParts (rd b 1 1 % 4) = true →
      exec (.samplesReceived l r) s = .next (s.after s.dev))) ∧
  (recOk b 24 0x55 = true → rd b 1 1 ≤ 191 →
    let new := (List.range (rd b 2 2 / 4096 % 4 + 1)).map (fun k => (rd b (8 + 4 * k) 2, rd b (10 + 4 * k) 2))
    let el := 192 * l + rd b 1 1
    let d1 : Dev := { s.dev with trn := { s.dev.trn with
      fast := aput s.dev.trn.fast el ((new.reverse ++ (aget s.dev.trn.fast el).getD []).take 8) } }
    (bit (rd b 2 2) 15 = false → exec (.fastupReceived l r) s = .next (s.after d1)) ∧
    (bit (rd b 2 2) 15 = true → exec (.fastupReceived l r) s = .next (s.after
      ((d1.setElink l { d1.elink l with fastOpen := (d1.elink l).fastOpen.filter (fun f => f.1 ≠ rd b 1 1) }).checkParts l)))) ∧
  (recOk b 24 0x55 = false ∨ 191 < rd b 1 1 → exec (.fastupReceived l r) s = .next (s.after (s.dev.discardRec l))) ∧
  (∀ rt, recOk b 32 0xC3 = false → exec (.respReceived l r rt) s = .next (s.after (s.dev.discardRec l))) ∧
  (∀ rt y, recOk b 32 0xC3 = true → x.ctrls.find? (fun y => y.rseq = rd b 2 2 && y.op = rd b 1 1) = some y →
    exec (.respReceived l r rt) s = .next (s.after (s.dev.takeResp l y b rt))) ∧
  (∀ rt, recOk b 32 0xC3 = true → x.ctrls.find? (fun y => y.rseq = rd b 2 2 && y.op = rd b 1 1) = none →
    exec (.respReceived l r rt) s = .next (s.after s.dev)) ∧
  (x.ctrls = [] → exec (.ctrlTimeout l) s = .next (s.after s.dev)) ∧
  (∀ c rest, x.ctrls = c :: rest →
    let old := rest.foldl (fun a b => if b.sent < a.sent then b else a) c
    let d1 := s.dev.advance (old.sent + s.dev.fld F.elkCfg_ctrlTmo * tickUs)
    (old.retries < s.dev.fld F.elkCfg_ctrlRetry → exec (.ctrlTimeout l) s = .next (s.after
      ((d1.setElink l { x with ctrls := x.ctrls.map (fun y =>
        if y.rseq = old.rseq then { y with sent := d1.now, retries := y.retries + 1 } else y) }).send
          (.element l 5 [old.op, old.rseq, old.first, old.count])))) ∧
    (s.dev.fld F.elkCfg_ctrlRetry ≤ old.retries →
      exec (.ctrlTimeout l) s = .next (s.after ((d1.setFlag (F.elkLinkErr_ctrlTmo l) true).loseLink l 3))))

/-- The rows of the fault manager (R385, R394, R400): an assertion of a source is that of its latch for a protection of the SST, sets a level source
present, and raises any other once; one of a reserved number has no effect. FAULT_O falls once its 100 µs end while a release waits, and a failed
self-check leads to device safe whatever the mapping. R388's cases: an assertion of a class 4 source whose sticky bit is clear gives up control where the
unit claims and its peer is eligible, and otherwise sets `relinq_blocked`, as on a unit in single operation.
Where the rules leave a choice the statement follows the model's: log entry 94. -/
def Obligations.FaultRowsTakeEffect : Prop :=
  (∀ s : State,
  (∀ src, src < 423 →
    let level := s.dev.fld (F.fltClass_kind src) = 0
    (311 ≤ src → src ≤ 319 → exec (.faultSourceAssert src) s = .next (s.after s.dev)) ∧
    (248 ≤ src → src ≤ 252 → exec (.faultSourceAssert src) s = .next (s.after (s.dev.protCondition (src - 248) true))) ∧
    (src = 253 ∨ src = 254 → exec (.faultSourceAssert src) s = .next (s.after (s.dev.protLatch (src - 248) true))) ∧
    (src < 248 ∨ 254 < src → src < 311 ∨ 319 < src →
      (level → exec (.faultSourceAssert src) s = .next (s.after (s.dev.raiseLevel src))) ∧
      (¬ level → exec (.faultSourceAssert src) s = .next (s.after (s.dev.raise src))))) ∧
  (∀ a r, s.dev.flt.release = a :: r → exec .faultOHoldExpiry s = .next (s.after ((s.dev.advance s.dev.flt.holdUntil).dropFaultO))) ∧
  (s.dev.flt.release = [] → exec .faultOHoldExpiry s = .next (s.after s.dev)) ∧
  (∀ k < 3, exec (.fltSelfCheckFail k) s = .next (s.after ((s.dev.setBitAt R.fltSelf k true).deviceSafe 0xFFFF)))) ∧
  (∀ (d : Dev) (n : Nat), d.sourceClass n = 4 →
    let d1 := d.bump R.fltCount
    d1.sticky n = false → d1.sourceClass n = 4 →
    let d3 := (d1.setSticky n true).event 0x0B01 n (le 1 4 ++ le 1 ((d1.setSticky n true).fld (F.fltClass_kind n)))
    (d3.claims = true → d3.flag F.twnStat_peerEligible = true → d.raiseCore n = d3.yield) ∧
    (d3.claims = false ∨ d3.flag F.twnStat_peerEligible = false → d.raiseCore n = d3.setFlag F.fltState_relinqBlocked true))

/-! ### The twin (chapter 17) -/

/-- The records of the peer (R407, R408, R416, R419 to R421, R423, R431): a record whose form or CRC is wrong, or that comes in single operation or to
the wrong role, changes nothing. HEARTBEAT and DIGEST are taken in. A MIRROR record with the next number puts its item into the standby and is
acknowledged, one further on opens a gap that is told, and one that has been applied is acknowledged again. A MACK lets the replies go that it covers, and
has what is missing sent again. A FORWARD record with the next number is taken, one further on told as a gap, and one that has been answered answered again.
An FRESULT lets the reply go that waits for it. A yield makes the active unit yield where its peer is eligible, and a standby claim where it may.
Where the rules leave a choice the statement follows the model's: log entries 26, 104, 105, 108, 144. -/
def Obligations.TwinRecordsTakeEffect : Prop :=
  ∀ (s : State) (r : WireRec),
  let b := r.bytes
  (recOk b 40 0x71 = true → s.dev.twinMode = true → exec (.heartbeatReceived r) s = .next (s.after (s.dev.heartbeat b))) ∧
  (recOk b 40 0x71 = false ∨ s.dev.twinMode = false → exec (.heartbeatReceived r) s = .next (s.after s.dev)) ∧
  (recOk b 128 0x72 = true → s.dev.twinMode = true → exec (.digestReceived r) s = .next (s.after (s.dev.digest b))) ∧
  (recOk b 128 0x72 = false ∨ s.dev.twinMode = false → exec (.digestReceived r) s = .next (s.after s.dev)) ∧
  (let ok := recOk b b.length 0x73 = true ∧ 16 ≤ b.length ∧ b.length ≤ 1024 ∧ b.length % 8 = 0 ∧ s.dev.standby = true
   let n := rd b 8 4
   (ok → n = (s.dev.twn.mapplied + 1) % 2 ^ 32 →
     let d1 := (s.dev.putItem (rd b 12 1) (Config.mirrorItem (rd b 12 1) (b.drop 16) s.dev.mirrored)).setRegN R.twnMseq n
     let d2 : Dev := { d1 with twn := { d1.twn with mapplied := n, gapFrom := none } }
     exec (.mirrorReceived r) s = .next (s.after
       ((if d2.twn.resync = 0 ∨ d2.twn.resync = 5 then d2.elig 5 false else d2).sendMack false))) ∧
   (ok → n ≠ (s.dev.twn.mapplied + 1) % 2 ^ 32 → seqAbove n s.dev.twn.mapplied = true → exec (.mirrorReceived r) s = .next (s.after
     (({ s.dev with twn := { s.dev.twn with gapFrom := some (s.dev.twn.gapFrom.getD s.dev.now) } } : Dev).send
       (.twin twinMack [s.dev.twn.mapplied, 1])))) ∧
   (ok → n ≠ (s.dev.twn.mapplied + 1) % 2 ^ 32 → seqAbove n s.dev.twn.mapplied = false → exec (.mirrorReceived r) s = .next (s.after
     (s.dev.send (.twin twinMack [s.dev.twn.mapplied, 0])))) ∧
   (¬ ok → exec (.mirrorReceived r) s = .next (s.after s.dev))) ∧
  (recOk b 16 0x74 = true → s.dev.active = true →
    let d := s.dev.releaseMack (rd b 8 4)
    (bit (rd b 12 1) 0 = true → exec (.mackReceived r) s = .next (s.after d.resend)) ∧
    (bit (rd b 12 1) 0 = false → d.twn.mirrorSent = [] → exec (.mackReceived r) s = .next (s.after (d.elig 5 false))) ∧
    (bit (rd b 12 1) 0 = false → d.twn.mirrorSent ≠ [] → exec (.mackReceived r) s = .next (s.after d))) ∧
  (recOk b 16 0x74 = false ∨ s.dev.active = false → exec (.mackReceived r) s = .next (s.after s.dev)) ∧
  (let ok := recOk b b.length 0x75 = true ∧ 32 ≤ b.length ∧ b.length ≤ 1040 ∧ b.length % 8 = 0 ∧ s.dev.standby = true
   let n := rd b 8 4
   let open_ := s.dev.twn.fwdOpen.any (fun x => x.2 = n) || s.dev.twn.forwarded.any (fun f => f.number = n)
   (ok → n = (s.dev.twn.fapplied + 1) % 2 ^ 32 →
     exec (.forwardReceived r) s = .next (s.after (s.dev.takeForward n (rd b 12 2) (rd b 16 8) (b.drop 32)))) ∧
   (ok → n ≠ (s.dev.twn.fapplied + 1) % 2 ^ 32 → seqAbove n s.dev.twn.fapplied = true →
     exec (.forwardReceived r) s = .next (s.after (s.dev.send (.twin twinMack [s.dev.twn.mapplied, 1])))) ∧
   (ok → n ≠ (s.dev.twn.fapplied + 1) % 2 ^ 32 → seqAbove n s.dev.twn.fapplied = false →
     (open_ = true → exec (.forwardReceived r) s = .next (s.after s.dev)) ∧
     (open_ = false → exec (.forwardReceived r) s = .next (s.after (s.dev.send (.twin twinFresult [n, s.dev.twn.fstatus]))))) ∧
   (¬ ok → exec (.forwardReceived r) s = .next (s.after s.dev))) ∧
  (recOk b 16 0x76 = true →
    let n := rd b 8 4
    exec (.fresultReceived r) s = .next (s.after
      ((s.dev.twn.waitForward.filter (fun w => w.number = n)).foldl (fun d w => d.reply (patchPeer (changing (rd b 12 1)) w.reply))
        { s.dev with twn := { s.dev.twn with
          fwdSent := s.dev.twn.fwdSent.map (fun e => if e.number = n then { e with status := some (rd b 12 1) } else e),
          waitForward := s.dev.twn.waitForward.filter (fun w => w.number ≠ n) } }))) ∧
  (recOk b 16 0x76 = false → exec (.fresultReceived r) s = .next (s.after s.dev)) ∧
  (recOk b 16 0x77 = true → s.dev.twinMode = true →
    (s.dev.active = true → s.dev.flag F.twnStat_peerEligible = true → exec (.yieldReceived r) s = .next (s.after s.dev.yield.afterRole)) ∧
    (s.dev.active = true → s.dev.flag F.twnStat_peerEligible = false → exec (.yieldReceived r) s = .next (s.after s.dev)) ∧
    (s.dev.active = false → exec (.yieldReceived r) s = .next (s.after
      ({ s.dev with twn := { s.dev.twn with peerYield := true } } : Dev).claimOnYield))) ∧
  (recOk b 16 0x77 = false ∨ s.dev.twinMode = false → exec (.yieldReceived r) s = .next (s.after s.dev))

/-- What the twin manager does when a time is over or a pin changes (R409, R412, R415, R416, R418, R420, R421, R429): the third heartbeat missed in a row
and a lost lane end the pairing; a wait for MACK or FRESULT ends with the reply; a standby whose drift exceeds 2 counts resynchronises; a conflict of
claims is withdrawn by the lower rank, and by unit 1 where nothing has been heard of the peer; a unit without a twin link claims after its wait; the next
step of a resynchronisation follows; the level of PEER_CLAIM_IN is shown and followed. A row whose condition does not hold has no effect.
Where the rules leave a choice the statement follows the model's: log entries 103, 106, 107, 109. -/
def Obligations.TwinTimersAndPinsTakeEffect : Prop :=
  ∀ s : State,
  (∀ t, s.dev.twn.hbDue = some t →
    let d := s.dev.advance (t + tickUs)
    let n := d.twn.streak + 1
    let d1 := ({ d with twn := { d.twn with hbDue := some (t + 10 * tickUs), streak := n } } : Dev).bumpSat F.twnHbMiss_missed
    (n = 3 → exec .heartbeatMissed s = .next (s.after ((d1.loseTwin.raiseLevel 421).tryClaim 3))) ∧
    (n ≠ 3 → exec .heartbeatMissed s = .next (s.after d1))) ∧
  (s.dev.twn.hbDue = none → exec .heartbeatMissed s = .next (s.after s.dev)) ∧
  (∀ lane < 4, exec (.twinLinkLost lane) s = .next (s.after s.dev.loseTwin)) ∧
  (∀ w r, s.dev.twn.waitMack = w :: r →
    exec .mirrorTimeout s = .next (s.after
      ((((({ s.dev.advance w.due with twn := { (s.dev.advance w.due).twn with waitMack := r } } : Dev).reply w.reply).setFlag
        F.twnStat_peerEligible false)).elig 5 true))) ∧
  (s.dev.twn.waitMack = [] → exec .mirrorTimeout s = .next (s.after s.dev)) ∧
  (∀ t, s.dev.twn.gapFrom = some t → exec .mirrorGapTimeout s = .next (s.after ((s.dev.advance (t + 100 * tickUs)).elig 5 true))) ∧
  (s.dev.twn.gapFrom = none → exec .mirrorGapTimeout s = .next (s.after s.dev)) ∧
  (∀ w r, s.dev.twn.waitForward = w :: r →
    exec .forwardTimeout s = .next (s.after
      (({ s.dev.advance w.due with twn := { (s.dev.advance w.due).twn with waitForward := r } } : Dev).reply (patchPeer false w.reply)))) ∧
  (s.dev.twn.waitForward = [] → exec .forwardTimeout s = .next (s.after s.dev)) ∧
  (∀ drift : Int, s.dev.standby = true → s.dev.flag F.twnStat_paired = true →
    (2 < drift.natAbs → exec (.pairOffsetCheck drift) s = .next (s.after ((s.dev.elig 8 true).beginResync))) ∧
    (drift.natAbs ≤ 2 → exec (.pairOffsetCheck drift) s = .next (s.after (s.dev.elig 8 false)))) ∧
  (∀ drift : Int, s.dev.standby = false ∨ s.dev.flag F.twnStat_paired = false → exec (.pairOffsetCheck drift) s = .next (s.after s.dev)) ∧
  (let below := (s.dev.twn.heard.isSome = true ∧ outranks (s.dev.fld F.twnPeer_term) (1 - s.dev.unit) s.dev.term s.dev.unit = true) ∨
     (s.dev.twn.heard = none ∧ s.dev.unit = 1)
   let both := s.dev.twinMode = true ∧ s.dev.claims = true ∧ s.dev.peerHigh = true
   (both → below → exec .peerClaimConflict s = .next (s.after
     (((s.dev.advance (s.dev.twn.peerHighFrom + 100 * tickUs)).withdraw (s.dev.fld F.twnPeer_term)).afterRole))) ∧
   (¬ (both ∧ below) → exec .peerClaimConflict s = .next (s.after s.dev))) ∧
  (let alone := s.dev.twinMode = true ∧ s.dev.fld F.twnStat_role = 0 ∧ s.dev.flag F.cpxReady1_frame = true ∧
     s.dev.flag F.twnStat_linkUp = false ∧ s.dev.peerHigh = false
   (alone → exec .soloWaitExpiry s = .next (s.after (((s.dev.advance (s.dev.twn.peerLowFrom + (s.dev.fld F.twnCtrl_soloWait * 10 * tickMs +
      s.dev.unit * 500 * tickMs))).claim 1).afterRole))) ∧
   (¬ alone → exec .soloWaitExpiry s = .next (s.after s.dev))) ∧
  (s.dev.twinMode = true → s.dev.active = false → exec .resyncStep s = .next (s.after s.dev.resyncStep)) ∧
  (s.dev.twinMode = false ∨ s.dev.active = true → exec .resyncStep s = .next (s.after s.dev)) ∧
  (∀ level, s.dev.peerHigh = level → exec (.peerClaimInChange level) s = .next (s.after (s.dev.setFlag F.twnStat_peerClaimIn level))) ∧
  (s.dev.peerHigh = false →
    let d := s.dev.setFlag F.twnStat_peerClaimIn true
    let d1 := ({ d with twn := { d.twn with peerHighFrom := d.now } } : Dev).level 422 (d.twinMode && d.claims)
    let yields := d1.twinMode = true ∧ d1.fld F.twnStat_role = 0 ∧ d1.flag F.cpxReady1_frame = true
    (yields → exec (.peerClaimInChange true) s = .next (s.after ((d1.setRole 2 1).beginResync.afterRole))) ∧
    (¬ yields → exec (.peerClaimInChange true) s = .next (s.after d1))) ∧
  (s.dev.peerHigh = true →
    let d := s.dev.setFlag F.twnStat_peerClaimIn false
    let d2 := (({ d with twn := { d.twn with peerLowFrom := d.now } } : Dev).clearLevel 422).claimOnYield
    (3 ≤ d2.twn.streak → exec (.peerClaimInChange false) s = .next (s.after (d2.tryClaim 3))) ∧
    (d2.twn.streak < 3 → exec (.peerClaimInChange false) s = .next (s.after d2)))

/-- On the active unit of a pair, the reply of a mirrored command that has changed something waits for MACK (R420): a MIRROR record with the next
number goes to the standby, and nothing goes to the requester. The MACK that covers that number lets the reply go, with the instant of its decision.
Where the rules leave a choice the statement follows the model's: log entries 104, 105. -/
def Obligations.MirroredReplyWaitsForMack : Prop :=
  ∀ (d : Dev) (r : Reply), d.pairedActive = true → changing r.status = true → mirroredOpcode r.opcode = true →
    d.twn.fwdSent.find? (fun e => e.owner = r.owner && e.tag = r.tag) = none →
    let n := (d.twn.mseq + 1) % 2 ^ 32
    let a := d.answer r
    let x := { r with time := some (r.time.getD d.tai) }
    a.cpx.emissions = d.cpx.emissions ∧ a.twn.waitMack = d.twn.waitMack ++ [⟨n, d.now + 20 * tickUs, x⟩] ∧
      a.twn.mirrorSent = d.twn.mirrorSent ++ [(n, [r.opcode, r.requester, r.tag, r.status])] ∧
      (d.twn.waitMack = [] →
        (a.releaseMack n).cpx.emissions = d.cpx.emissions ++
          (if r.final && r.publish then [.reply d.now x, .done d.now x] else [.reply d.now x]) ∧ (a.releaseMack n).twn.waitMack = [])

/-! ### Words, numbers and records that the rules define -/

/-- R12: a read of the low word of a 64-bit quantity returns it and captures the high word; the next read of the high word returns what was captured,
whatever has happened since, and uses the capture up. A read of a high word without a capture returns the current word. -/
def Obligations.LowWordReadCapturesHighWord : Prop :=
  ∀ (d : Dev) (off : Nat), lowWord off = true →
    (d.readReg off).1 = d.view off ∧
    (∀ t : Dev, t.shadow = (d.readReg off).2.shadow →
      (t.readReg (off + 4)).1 = d.view (off + 4) ∧ ((t.readReg (off + 4)).2.readReg (off + 4)).1 = (t.readReg (off + 4)).2.view (off + 4)) ∧
    (tget (fun _ => 0) d.shadow (off + 4) = 0 → (d.readReg (off + 4)).1 = d.view (off + 4))

/-- R171: the value of a coefficient word with mantissa m in bits [23:0] and exponent e in bits [31:24], both signed, is m × 2^(e − 23); that of an
extended word is m × 2^(e − 31), and its 64 bits hold m in [31:0], e in [39:32] and 0 above. -/
def Obligations.CoefficientWordsHaveTheirValue : Prop :=
  (∀ w : Word,
    let m : Int := if w.toNat % 2 ^ 24 < 2 ^ 23 then (w.toNat % 2 ^ 24 : Nat) else (w.toNat % 2 ^ 24 : Nat) - (2 ^ 24 : Int)
    let e : Int := if w.toNat / 2 ^ 24 < 2 ^ 7 then (w.toNat / 2 ^ 24 : Nat) else (w.toNat / 2 ^ 24 : Nat) - (2 ^ 8 : Int)
    let v := coefValue w
    0 < v.den ∧ v.num * (2 ^ (23 - e).toNat : Nat) = m * (2 ^ (e - 23).toNat : Nat) * v.den) ∧
  (∀ x : Ext, -(2 ^ 31 : Int) ≤ x.mant → x.mant < 2 ^ 31 → -128 ≤ x.exp → x.exp ≤ 127 →
    let v := extValue x
    0 < v.den ∧ v.num * (2 ^ (31 - x.exp).toNat : Nat) = x.mant * (2 ^ (x.exp - 31).toNat : Nat) * v.den ∧
    signed 32 (rd (extBytes x) 0 4) = x.mant ∧ signed 8 (rd (extBytes x) 4 1) = x.exp ∧ rd (extBytes x) 5 3 = 0)

/-- R143: the code that a shape sample s of Q2.14 plays between c0 and c1 is c0 + (c1 − c0) × s, rounded half away from zero to a whole number and held
to 0x0000 to 0xFFFF. Here x is that value in 1/16384 and n its rounding. -/
def Obligations.ShapeSamplePlaysRoundedCode : Prop :=
  ∀ (c0 c1 : Nat) (x n : Int) (q : Int), x = (c0 : Int) * 16384 + ((c1 : Int) - c0) * q →
    (0 ≤ x → n * 16384 - 8192 ≤ x ∧ x < n * 16384 + 8192) → (x < 0 → n * 16384 - 8192 < x ∧ x ≤ n * 16384 + 8192) →
    (playCode c0 c1 q : Int) = max 0 (min 0xFFFF n)

/-- R113: drive element e sits on link ⌊e / 192⌋ at channel e mod 192, and monitor-only tap m on link ⌊(m − 6144) / 32⌋ at tap (m − 6144) mod 32. Every
link from 0 to 31 has 192 drive channels and 32 taps, and no ID lies anywhere else. -/
def Obligations.ElementIdNamesItsLink : Prop :=
  (∀ e < 6144, linkOf e = e / 192 ∧ linkOf e < 32) ∧ (∀ m, 6144 ≤ m → m ≤ 7167 → linkOf m = (m - 6144) / 32 ∧ linkOf m < 32) ∧
  (∀ l < 32, ∀ ch < 192, linkOf (192 * l + ch) = l ∧ (192 * l + ch) % 192 = ch) ∧
  (∀ l < 32, ∀ t < 32, linkOf (6144 + 32 * l + t) = l ∧ (6144 + 32 * l + t - 6144) % 32 = t)

/-! ### The intake of commands (chapter 02) -/

/-- Every command of Table 2-7 enters by the same intake (R39, R44, R46, R55): the row of a host command is what the command processor does with a
packet of its opcode, as it would be for the same packet fetched by SQ_TAIL_DOORBELL or received by UDP_DATAGRAM.
Where the rules leave a choice the statement follows the model's: log entry 27. -/
def Obligations.HostCommandsEnterOneIntake : Prop :=
  ∀ (s : State) (c : Cmd),
  exec (.devInfo c) s = .next (s.after (s.dev.host 0x0101 c)) ∧
  exec (.devRestart c) s = .next (s.after (s.dev.host 0x0102 c)) ∧
  exec (.eventSubscribe c) s = .next (s.after (s.dev.host 0x0103 c)) ∧
  exec (.reqClose c) s = .next (s.after (s.dev.host 0x0104 c)) ∧
  exec (.econConfig c) s = .next (s.after (s.dev.host 0x0105 c)) ∧
  exec (.mapLoad c) s = .next (s.after (s.dev.host 0x0201 c)) ∧
  exec (.circuitSet c) s = .next (s.after (s.dev.host 0x0202 c)) ∧
  exec (.circuitClear c) s = .next (s.after (s.dev.host 0x0203 c)) ∧
  exec (.circuitQuery c) s = .next (s.after (s.dev.host 0x0204 c)) ∧
  exec (.portCeiling c) s = .next (s.after (s.dev.host 0x0205 c)) ∧
  exec (.circuitBatch c) s = .next (s.after (s.dev.host 0x0206 c)) ∧
  exec (.scheduleQuery c) s = .next (s.after (s.dev.host 0x0301 c)) ∧
  exec (.moveCancel c) s = .next (s.after (s.dev.host 0x0302 c)) ∧
  exec (.sluiceStatus c) s = .next (s.after (s.dev.host 0x0303 c)) ∧
  exec (.lawLoad c) s = .next (s.after (s.dev.host 0x0401 c)) ∧
  exec (.loopBind c) s = .next (s.after (s.dev.host 0x0402 c)) ∧
  exec (.coefSwap c) s = .next (s.after (s.dev.host 0x0403 c)) ∧
  exec (.setpointSet c) s = .next (s.after (s.dev.host 0x0404 c)) ∧
  exec (.loopQuery c) s = .next (s.after (s.dev.host 0x0405 c)) ∧
  exec (.placePin c) s = .next (s.after (s.dev.host 0x0501 c)) ∧
  exec (.placeUnpin c) s = .next (s.after (s.dev.host 0x0502 c)) ∧
  exec (.placeHint c) s = .next (s.after (s.dev.host 0x0503 c)) ∧
  exec (.placeStats c) s = .next (s.after (s.dev.host 0x0504 c)) ∧
  exec (.trainReport c) s = .next (s.after (s.dev.host 0x0601 c)) ∧
  exec (.trainDrop c) s = .next (s.after (s.dev.host 0x0602 c)) ∧
  exec (.wsenseConfig c) s = .next (s.after (s.dev.host 0x0603 c)) ∧
  exec (.timeQuery c) s = .next (s.after (s.dev.host 0x0604 c)) ∧
  exec (.sstStart c) s = .next (s.after (s.dev.host 0x0701 c)) ∧
  exec (.sstStop c) s = .next (s.after (s.dev.host 0x0702 c)) ∧
  exec (.periodSet c) s = .next (s.after (s.dev.host 0x0703 c)) ∧
  exec (.cellBypass c) s = .next (s.after (s.dev.host 0x0704 c)) ∧
  exec (.neutralSection c) s = .next (s.after (s.dev.host 0x0705 c)) ∧
  exec (.sstQuery c) s = .next (s.after (s.dev.host 0x0706 c)) ∧
  exec (.legConfig c) s = .next (s.after (s.dev.host 0x0801 c)) ∧
  exec (.legEnable c) s = .next (s.after (s.dev.host 0x0802 c)) ∧
  exec (.lvReference c) s = .next (s.after (s.dev.host 0x0803 c)) ∧
  exec (.legQuery c) s = .next (s.after (s.dev.host 0x0804 c)) ∧
  exec (.adcConfig c) s = .next (s.after (s.dev.host 0x0901 c)) ∧
  exec (.adcInject c) s = .next (s.after (s.dev.host 0x0902 c)) ∧
  exec (.dacConfig c) s = .next (s.after (s.dev.host 0x0903 c)) ∧
  exec (.dacEnable c) s = .next (s.after (s.dev.host 0x0904 c)) ∧
  exec (.calRun c) s = .next (s.after (s.dev.host 0x0A01 c)) ∧
  exec (.calGap c) s = .next (s.after (s.dev.host 0x0A02 c)) ∧
  exec (.calBank c) s = .next (s.after (s.dev.host 0x0A03 c)) ∧
  exec (.faultMap c) s = .next (s.after (s.dev.host 0x0B01 c)) ∧
  exec (.faultClear c) s = .next (s.after (s.dev.host 0x0B02 c)) ∧
  exec (.faultORelease c) s = .next (s.after (s.dev.host 0x0B03 c)) ∧
  exec (.faultQuery c) s = .next (s.after (s.dev.host 0x0B04 c)) ∧
  exec (.twinPair c) s = .next (s.after (s.dev.host 0x0C01 c)) ∧
  exec (.twinYield c) s = .next (s.after (s.dev.host 0x0C02 c)) ∧
  exec (.twinQuery c) s = .next (s.after (s.dev.host 0x0C03 c)) ∧
  exec (.traceArm c) s = .next (s.after (s.dev.host 0x0D01 c)) ∧
  exec (.harvest c) s = .next (s.after (s.dev.host 0x0D02 c)) ∧
  exec (.traceStop c) s = .next (s.after (s.dev.host 0x0D03 c)) ∧
  exec (.regRead c) s = .next (s.after (s.dev.host 0x0E01 c)) ∧
  exec (.regWrite c) s = .next (s.after (s.dev.host 0x0E02 c)) ∧
  exec (.echo c) s = .next (s.after (s.dev.host 0x0E03 c)) ∧
  exec (.memStatus c) s = .next (s.after (s.dev.host 0x0E04 c)) ∧
  exec (.cfgWrite c) s = .next (s.after (s.dev.host 0x0E05 c)) ∧
  exec (.sessionOpen c) s = .next (s.after (s.dev.host 0x0F01 c)) ∧
  exec (.sessionClose c) s = .next (s.after (s.dev.host 0x0F02 c)) ∧
  exec (.imageUpdate c) s = .next (s.after (s.dev.host 0x0F03 c)) ∧
  exec (.attest c) s = .next (s.after (s.dev.host 0x0F04 c))

/-- The replay window (R46): a packet whose tag is in its requester's window with the same CRC is not executed; it is counted, and answered with the
recorded final reply, number and time, or with DUPLICATE where there is no final reply yet. With another CRC it is refused with CONFLICT, and
nothing is recorded.
Where the rules leave a choice the statement follows the model's: log entry 27. -/
def Obligations.DuplicateCommandsAreNotExecuted : Prop :=
  ∀ (d : Dev) (q : Nat) (p : Packet) (e : WinEntry),
    let d1 := d.bump R.cpxCmdCount
    (d1.requester q).window.find? (fun x => x.tag = p.cmd.tag.toNat) = some e →
    let base := { replyTo p q St.duplicate false [] with dup := true, record := false, publish := false }
    (∀ x, e.crc = packetCrc p → e.reply = some x → x.final = true →
      d.take q true p = (d1.bump R.cpxDupCount).reply { base with
        status := x.status, final := true, lowConf := x.lowConf, result := x.result, desc := descFor p, again := some (x.evseq, x.time), cut := x.cut }) ∧
    (e.crc = packetCrc p → (∀ x, e.reply = some x → x.final = false) → d.take q true p = (d1.bump R.cpxDupCount).reply base) ∧
    (e.crc ≠ packetCrc p → d.take q true p = d1.reply { replyTo p q St.conflict true [] with record := false })

/-- A packet that its checks refuse (R10, R39, R40, R55, R480) is answered with that status, its function does not run, and nothing outside the command
processor changes but what follows from the registers of the packet counts. A command marked A in Table 2-7 sent to a standby is refused with
NOT_ACTIVE, and one whose function is not ready with NOT_READY, where the header and payload are well formed (R55, R428). In optical safe the commands
that R390 names are refused with REFUSED and change nothing, where their function does not find them malformed.
Where the rules leave a choice the statement follows the model's: log entries 27, 29, 30. -/
def Obligations.CommandsAreCheckedBeforeTheyRun : Prop :=
  (∀ (d : Dev) (q st : Nat) (p : Packet), d.pairedActive = false → d.twn.fwdSent = [] → d.refusal q true p = some st →
    d.startCmd q true p = d.close p q true st [] ∧ d.Keeps (d.startCmd q true p) ∧
      (d.startCmd q true p).cpx.opened = d.cpx.opened ∧ (d.startCmd q true p).cpx.waiting = d.cpx.waiting) ∧
  (∀ (d : Dev) (q : Nat) (p : Packet) (row : OpRow), opRow p.opcode.toNat = some row → row.key = none → p.cmd.requester.toNat = q → 1 ≤ q → q < 0xFFFF →
    row.lengthOk p.cmd.length = true → flagReserved p.cmd.flags = false → descOk p = true →
    (row.active = true → d.standby = true → d.refusal q true p = some St.notActive) ∧
    (d.standby = false → d.groupReady p.opcode.toNat p.cmd.payload (d.namedChain p) = false → d.refusal q true p = some St.notReady) ∧
    (d.standby = false → d.groupReady p.opcode.toNat p.cmd.payload (d.namedChain p) = true → d.refusal q true p = none)) ∧
  (∀ (d : Dev) (op : Nat) (c : Call),
    (opticalSafeRefuses op c.packet.cmd.payload = true → d.flag F.fltState_osafe = true → (functionOf op d c).2 ≠ .final St.badParam [] →
      bodyOf op d c = (d, .final St.refused [])) ∧
    (opticalSafeRefuses op c.packet.cmd.payload = false ∨ d.flag F.fltState_osafe = false ∨ (functionOf op d c).2 = .final St.badParam [] →
      bodyOf op d c = functionOf op d c))

/-- The frame of the queries: where no twin follows, no command waits and economy mode is calm, a query that runs leaves everything outside the command
processor as it was, but for what economy mode shows; this holds of whatever it answers. REG_READ is not among them: it uses captured high words
(R12). -/
def Obligations.QueriesChangeNothingElse : Prop :=
  ∀ (s t : State) (c : Cmd) (q : Nat), s.dev.pairedActive = false → (s.dev.standby && s.dev.flag F.twnStat_paired) = false →
    s.dev.twn.fwdSent = [] → s.dev.cpx.waiting = [] → s.dev.cpx.post = [] → (s.dev.econCauses = 0 ∨ s.dev.economy = true) →
    (Starts s.dev 0x0101 c q ∧ exec (.devInfo c) s = .next t) ∨ (Starts s.dev 0x0204 c q ∧ exec (.circuitQuery c) s = .next t) ∨
    (Starts s.dev 0x0301 c q ∧ exec (.scheduleQuery c) s = .next t) ∨ (Starts s.dev 0x0303 c q ∧ exec (.sluiceStatus c) s = .next t) ∨
    (Starts s.dev 0x0405 c q ∧ exec (.loopQuery c) s = .next t) ∨ (Starts s.dev 0x0504 c q ∧ exec (.placeStats c) s = .next t) ∨
    (Starts s.dev 0x0604 c q ∧ exec (.timeQuery c) s = .next t) ∨ (Starts s.dev 0x0706 c q ∧ exec (.sstQuery c) s = .next t) ∨
    (Starts s.dev 0x0804 c q ∧ exec (.legQuery c) s = .next t) ∨ (Starts s.dev 0x0A03 c q ∧ exec (.calBank c) s = .next t) ∨
    (Starts s.dev 0x0B04 c q ∧ exec (.faultQuery c) s = .next t) ∨ (Starts s.dev 0x0C03 c q ∧ exec (.twinQuery c) s = .next t) ∨
    (Starts s.dev 0x0E03 c q ∧ exec (.echo c) s = .next t) ∨ (Starts s.dev 0x0E04 c q ∧ exec (.memStatus c) s = .next t) ∨
    (Starts s.dev 0x0F04 c q ∧ exec (.attest c) s = .next t) →
    s.dev.Keeps t.dev ∧ t.pending = s.pending ∧ t.dev.cpx.opened = s.dev.cpx.opened
end

