-- ==== Sys2Proof/Laws/State.lean ====
section
/-! SUPPORT. One lemma for each field that an update of the device leaves as it was: no proof has to unfold a record update. -/

namespace Sys2Proof.Machine

variable (d : Dev)

/-! `Dev.setReg` changes `regs` only. -/

@[simp] theorem Dev.setReg_now (off : Nat) (w : Word) : (d.setReg off w).now = d.now := rfl
@[simp] theorem Dev.setReg_shadow (off : Nat) (w : Word) : (d.setReg off w).shadow = d.shadow := rfl
@[simp] theorem Dev.setReg_cpx (off : Nat) (w : Word) : (d.setReg off w).cpx = d.cpx := rfl
@[simp] theorem Dev.setReg_hst (off : Nat) (w : Word) : (d.setReg off w).hst = d.hst := rfl
@[simp] theorem Dev.setReg_tbu (off : Nat) (w : Word) : (d.setReg off w).tbu = d.tbu := rfl
@[simp] theorem Dev.setReg_twn (off : Nat) (w : Word) : (d.setReg off w).twn = d.twn := rfl
@[simp] theorem Dev.setReg_rtp (off : Nat) (w : Word) : (d.setReg off w).rtp = d.rtp := rfl
@[simp] theorem Dev.setReg_trn (off : Nat) (w : Word) : (d.setReg off w).trn = d.trn := rfl
@[simp] theorem Dev.setReg_lpc (off : Nat) (w : Word) : (d.setReg off w).lpc = d.lpc := rfl
@[simp] theorem Dev.setReg_cal (off : Nat) (w : Word) : (d.setReg off w).cal = d.cal := rfl
@[simp] theorem Dev.setReg_flt (off : Nat) (w : Word) : (d.setReg off w).flt = d.flt := rfl
@[simp] theorem Dev.setReg_ths (off : Nat) (w : Word) : (d.setReg off w).ths = d.ths := rfl
@[simp] theorem Dev.setReg_mem (off : Nat) (w : Word) : (d.setReg off w).mem = d.mem := rfl
@[simp] theorem Dev.setReg_pwm (off : Nat) (w : Word) : (d.setReg off w).pwm = d.pwm := rfl
@[simp] theorem Dev.setReg_cln (off : Nat) (w : Word) : (d.setReg off w).cln = d.cln := rfl
@[simp] theorem Dev.setReg_cmu (off : Nat) (w : Word) : (d.setReg off w).cmu = d.cmu := rfl
@[simp] theorem Dev.setReg_elk (off : Nat) (w : Word) : (d.setReg off w).elk = d.elk := rfl
@[simp] theorem Dev.setReg_plm (off : Nat) (w : Word) : (d.setReg off w).plm = d.plm := rfl
@[simp] theorem Dev.setReg_adc (off : Nat) (w : Word) : (d.setReg off w).adc = d.adc := rfl
@[simp] theorem Dev.setReg_dac (off : Nat) (w : Word) : (d.setReg off w).dac = d.dac := rfl
@[simp] theorem Dev.setReg_free (off : Nat) (w : Word) : (d.setReg off w).free = d.free := rfl
@[simp] theorem Dev.setReg_out (off : Nat) (w : Word) : (d.setReg off w).out = d.out := rfl

/-! `Dev.setFld` changes `regs` only. -/

@[simp] theorem Dev.setFld_now (f : FieldRef) (n : Nat) : (d.setFld f n).now = d.now := rfl
@[simp] theorem Dev.setFld_shadow (f : FieldRef) (n : Nat) : (d.setFld f n).shadow = d.shadow := rfl
@[simp] theorem Dev.setFld_cpx (f : FieldRef) (n : Nat) : (d.setFld f n).cpx = d.cpx := rfl
@[simp] theorem Dev.setFld_hst (f : FieldRef) (n : Nat) : (d.setFld f n).hst = d.hst := rfl
@[simp] theorem Dev.setFld_tbu (f : FieldRef) (n : Nat) : (d.setFld f n).tbu = d.tbu := rfl
@[simp] theorem Dev.setFld_twn (f : FieldRef) (n : Nat) : (d.setFld f n).twn = d.twn := rfl
@[simp] theorem Dev.setFld_rtp (f : FieldRef) (n : Nat) : (d.setFld f n).rtp = d.rtp := rfl
@[simp] theorem Dev.setFld_trn (f : FieldRef) (n : Nat) : (d.setFld f n).trn = d.trn := rfl
@[simp] theorem Dev.setFld_lpc (f : FieldRef) (n : Nat) : (d.setFld f n).lpc = d.lpc := rfl
@[simp] theorem Dev.setFld_cal (f : FieldRef) (n : Nat) : (d.setFld f n).cal = d.cal := rfl
@[simp] theorem Dev.setFld_flt (f : FieldRef) (n : Nat) : (d.setFld f n).flt = d.flt := rfl
@[simp] theorem Dev.setFld_ths (f : FieldRef) (n : Nat) : (d.setFld f n).ths = d.ths := rfl
@[simp] theorem Dev.setFld_mem (f : FieldRef) (n : Nat) : (d.setFld f n).mem = d.mem := rfl
@[simp] theorem Dev.setFld_pwm (f : FieldRef) (n : Nat) : (d.setFld f n).pwm = d.pwm := rfl
@[simp] theorem Dev.setFld_cln (f : FieldRef) (n : Nat) : (d.setFld f n).cln = d.cln := rfl
@[simp] theorem Dev.setFld_cmu (f : FieldRef) (n : Nat) : (d.setFld f n).cmu = d.cmu := rfl
@[simp] theorem Dev.setFld_elk (f : FieldRef) (n : Nat) : (d.setFld f n).elk = d.elk := rfl
@[simp] theorem Dev.setFld_plm (f : FieldRef) (n : Nat) : (d.setFld f n).plm = d.plm := rfl
@[simp] theorem Dev.setFld_adc (f : FieldRef) (n : Nat) : (d.setFld f n).adc = d.adc := rfl
@[simp] theorem Dev.setFld_dac (f : FieldRef) (n : Nat) : (d.setFld f n).dac = d.dac := rfl
@[simp] theorem Dev.setFld_free (f : FieldRef) (n : Nat) : (d.setFld f n).free = d.free := rfl
@[simp] theorem Dev.setFld_out (f : FieldRef) (n : Nat) : (d.setFld f n).out = d.out := rfl

/-! `Dev.setFlag` changes `regs` only. -/

@[simp] theorem Dev.setFlag_now (f : FieldRef) (v : Bool) : (d.setFlag f v).now = d.now := rfl
@[simp] theorem Dev.setFlag_shadow (f : FieldRef) (v : Bool) : (d.setFlag f v).shadow = d.shadow := rfl
@[simp] theorem Dev.setFlag_cpx (f : FieldRef) (v : Bool) : (d.setFlag f v).cpx = d.cpx := rfl
@[simp] theorem Dev.setFlag_hst (f : FieldRef) (v : Bool) : (d.setFlag f v).hst = d.hst := rfl
@[simp] theorem Dev.setFlag_tbu (f : FieldRef) (v : Bool) : (d.setFlag f v).tbu = d.tbu := rfl
@[simp] theorem Dev.setFlag_twn (f : FieldRef) (v : Bool) : (d.setFlag f v).twn = d.twn := rfl
@[simp] theorem Dev.setFlag_rtp (f : FieldRef) (v : Bool) : (d.setFlag f v).rtp = d.rtp := rfl
@[simp] theorem Dev.setFlag_trn (f : FieldRef) (v : Bool) : (d.setFlag f v).trn = d.trn := rfl
@[simp] theorem Dev.setFlag_lpc (f : FieldRef) (v : Bool) : (d.setFlag f v).lpc = d.lpc := rfl
@[simp] theorem Dev.setFlag_cal (f : FieldRef) (v : Bool) : (d.setFlag f v).cal = d.cal := rfl
@[simp] theorem Dev.setFlag_flt (f : FieldRef) (v : Bool) : (d.setFlag f v).flt = d.flt := rfl
@[simp] theorem Dev.setFlag_ths (f : FieldRef) (v : Bool) : (d.setFlag f v).ths = d.ths := rfl
@[simp] theorem Dev.setFlag_mem (f : FieldRef) (v : Bool) : (d.setFlag f v).mem = d.mem := rfl
@[simp] theorem Dev.setFlag_pwm (f : FieldRef) (v : Bool) : (d.setFlag f v).pwm = d.pwm := rfl
@[simp] theorem Dev.setFlag_cln (f : FieldRef) (v : Bool) : (d.setFlag f v).cln = d.cln := rfl
@[simp] theorem Dev.setFlag_cmu (f : FieldRef) (v : Bool) : (d.setFlag f v).cmu = d.cmu := rfl
@[simp] theorem Dev.setFlag_elk (f : FieldRef) (v : Bool) : (d.setFlag f v).elk = d.elk := rfl
@[simp] theorem Dev.setFlag_plm (f : FieldRef) (v : Bool) : (d.setFlag f v).plm = d.plm := rfl
@[simp] theorem Dev.setFlag_adc (f : FieldRef) (v : Bool) : (d.setFlag f v).adc = d.adc := rfl
@[simp] theorem Dev.setFlag_dac (f : FieldRef) (v : Bool) : (d.setFlag f v).dac = d.dac := rfl
@[simp] theorem Dev.setFlag_free (f : FieldRef) (v : Bool) : (d.setFlag f v).free = d.free := rfl
@[simp] theorem Dev.setFlag_out (f : FieldRef) (v : Bool) : (d.setFlag f v).out = d.out := rfl

/-! `Dev.setRegN` changes `regs` only. -/

@[simp] theorem Dev.setRegN_now (off n : Nat) : (d.setRegN off n).now = d.now := rfl
@[simp] theorem Dev.setRegN_shadow (off n : Nat) : (d.setRegN off n).shadow = d.shadow := rfl
@[simp] theorem Dev.setRegN_cpx (off n : Nat) : (d.setRegN off n).cpx = d.cpx := rfl
@[simp] theorem Dev.setRegN_hst (off n : Nat) : (d.setRegN off n).hst = d.hst := rfl
@[simp] theorem Dev.setRegN_tbu (off n : Nat) : (d.setRegN off n).tbu = d.tbu := rfl
@[simp] theorem Dev.setRegN_twn (off n : Nat) : (d.setRegN off n).twn = d.twn := rfl
@[simp] theorem Dev.setRegN_rtp (off n : Nat) : (d.setRegN off n).rtp = d.rtp := rfl
@[simp] theorem Dev.setRegN_trn (off n : Nat) : (d.setRegN off n).trn = d.trn := rfl
@[simp] theorem Dev.setRegN_lpc (off n : Nat) : (d.setRegN off n).lpc = d.lpc := rfl
@[simp] theorem Dev.setRegN_cal (off n : Nat) : (d.setRegN off n).cal = d.cal := rfl
@[simp] theorem Dev.setRegN_flt (off n : Nat) : (d.setRegN off n).flt = d.flt := rfl
@[simp] theorem Dev.setRegN_ths (off n : Nat) : (d.setRegN off n).ths = d.ths := rfl
@[simp] theorem Dev.setRegN_mem (off n : Nat) : (d.setRegN off n).mem = d.mem := rfl
@[simp] theorem Dev.setRegN_pwm (off n : Nat) : (d.setRegN off n).pwm = d.pwm := rfl
@[simp] theorem Dev.setRegN_cln (off n : Nat) : (d.setRegN off n).cln = d.cln := rfl
@[simp] theorem Dev.setRegN_cmu (off n : Nat) : (d.setRegN off n).cmu = d.cmu := rfl
@[simp] theorem Dev.setRegN_elk (off n : Nat) : (d.setRegN off n).elk = d.elk := rfl
@[simp] theorem Dev.setRegN_plm (off n : Nat) : (d.setRegN off n).plm = d.plm := rfl
@[simp] theorem Dev.setRegN_adc (off n : Nat) : (d.setRegN off n).adc = d.adc := rfl
@[simp] theorem Dev.setRegN_dac (off n : Nat) : (d.setRegN off n).dac = d.dac := rfl
@[simp] theorem Dev.setRegN_free (off n : Nat) : (d.setRegN off n).free = d.free := rfl
@[simp] theorem Dev.setRegN_out (off n : Nat) : (d.setRegN off n).out = d.out := rfl

/-! `Dev.setBitAt` changes `regs` only. -/

@[simp] theorem Dev.setBitAt_now (off i : Nat) (v : Bool) : (d.setBitAt off i v).now = d.now := rfl
@[simp] theorem Dev.setBitAt_shadow (off i : Nat) (v : Bool) : (d.setBitAt off i v).shadow = d.shadow := rfl
@[simp] theorem Dev.setBitAt_cpx (off i : Nat) (v : Bool) : (d.setBitAt off i v).cpx = d.cpx := rfl
@[simp] theorem Dev.setBitAt_hst (off i : Nat) (v : Bool) : (d.setBitAt off i v).hst = d.hst := rfl
@[simp] theorem Dev.setBitAt_tbu (off i : Nat) (v : Bool) : (d.setBitAt off i v).tbu = d.tbu := rfl
@[simp] theorem Dev.setBitAt_twn (off i : Nat) (v : Bool) : (d.setBitAt off i v).twn = d.twn := rfl
@[simp] theorem Dev.setBitAt_rtp (off i : Nat) (v : Bool) : (d.setBitAt off i v).rtp = d.rtp := rfl
@[simp] theorem Dev.setBitAt_trn (off i : Nat) (v : Bool) : (d.setBitAt off i v).trn = d.trn := rfl
@[simp] theorem Dev.setBitAt_lpc (off i : Nat) (v : Bool) : (d.setBitAt off i v).lpc = d.lpc := rfl
@[simp] theorem Dev.setBitAt_cal (off i : Nat) (v : Bool) : (d.setBitAt off i v).cal = d.cal := rfl
@[simp] theorem Dev.setBitAt_flt (off i : Nat) (v : Bool) : (d.setBitAt off i v).flt = d.flt := rfl
@[simp] theorem Dev.setBitAt_ths (off i : Nat) (v : Bool) : (d.setBitAt off i v).ths = d.ths := rfl
@[simp] theorem Dev.setBitAt_mem (off i : Nat) (v : Bool) : (d.setBitAt off i v).mem = d.mem := rfl
@[simp] theorem Dev.setBitAt_pwm (off i : Nat) (v : Bool) : (d.setBitAt off i v).pwm = d.pwm := rfl
@[simp] theorem Dev.setBitAt_cln (off i : Nat) (v : Bool) : (d.setBitAt off i v).cln = d.cln := rfl
@[simp] theorem Dev.setBitAt_cmu (off i : Nat) (v : Bool) : (d.setBitAt off i v).cmu = d.cmu := rfl
@[simp] theorem Dev.setBitAt_elk (off i : Nat) (v : Bool) : (d.setBitAt off i v).elk = d.elk := rfl
@[simp] theorem Dev.setBitAt_plm (off i : Nat) (v : Bool) : (d.setBitAt off i v).plm = d.plm := rfl
@[simp] theorem Dev.setBitAt_adc (off i : Nat) (v : Bool) : (d.setBitAt off i v).adc = d.adc := rfl
@[simp] theorem Dev.setBitAt_dac (off i : Nat) (v : Bool) : (d.setBitAt off i v).dac = d.dac := rfl
@[simp] theorem Dev.setBitAt_free (off i : Nat) (v : Bool) : (d.setBitAt off i v).free = d.free := rfl
@[simp] theorem Dev.setBitAt_out (off i : Nat) (v : Bool) : (d.setBitAt off i v).out = d.out := rfl

/-! `Dev.bump` changes `regs` only. -/

@[simp] theorem Dev.bump_now (off : Nat) : (d.bump off).now = d.now := rfl
@[simp] theorem Dev.bump_shadow (off : Nat) : (d.bump off).shadow = d.shadow := rfl
@[simp] theorem Dev.bump_cpx (off : Nat) : (d.bump off).cpx = d.cpx := rfl
@[simp] theorem Dev.bump_hst (off : Nat) : (d.bump off).hst = d.hst := rfl
@[simp] theorem Dev.bump_tbu (off : Nat) : (d.bump off).tbu = d.tbu := rfl
@[simp] theorem Dev.bump_twn (off : Nat) : (d.bump off).twn = d.twn := rfl
@[simp] theorem Dev.bump_rtp (off : Nat) : (d.bump off).rtp = d.rtp := rfl
@[simp] theorem Dev.bump_trn (off : Nat) : (d.bump off).trn = d.trn := rfl
@[simp] theorem Dev.bump_lpc (off : Nat) : (d.bump off).lpc = d.lpc := rfl
@[simp] theorem Dev.bump_cal (off : Nat) : (d.bump off).cal = d.cal := rfl
@[simp] theorem Dev.bump_flt (off : Nat) : (d.bump off).flt = d.flt := rfl
@[simp] theorem Dev.bump_ths (off : Nat) : (d.bump off).ths = d.ths := rfl
@[simp] theorem Dev.bump_mem (off : Nat) : (d.bump off).mem = d.mem := rfl
@[simp] theorem Dev.bump_pwm (off : Nat) : (d.bump off).pwm = d.pwm := rfl
@[simp] theorem Dev.bump_cln (off : Nat) : (d.bump off).cln = d.cln := rfl
@[simp] theorem Dev.bump_cmu (off : Nat) : (d.bump off).cmu = d.cmu := rfl
@[simp] theorem Dev.bump_elk (off : Nat) : (d.bump off).elk = d.elk := rfl
@[simp] theorem Dev.bump_plm (off : Nat) : (d.bump off).plm = d.plm := rfl
@[simp] theorem Dev.bump_adc (off : Nat) : (d.bump off).adc = d.adc := rfl
@[simp] theorem Dev.bump_dac (off : Nat) : (d.bump off).dac = d.dac := rfl
@[simp] theorem Dev.bump_free (off : Nat) : (d.bump off).free = d.free := rfl
@[simp] theorem Dev.bump_out (off : Nat) : (d.bump off).out = d.out := rfl

/-! `Dev.addSat` changes `regs` only. -/

@[simp] theorem Dev.addSat_now (f : FieldRef) (n : Nat) : (d.addSat f n).now = d.now := rfl
@[simp] theorem Dev.addSat_shadow (f : FieldRef) (n : Nat) : (d.addSat f n).shadow = d.shadow := rfl
@[simp] theorem Dev.addSat_cpx (f : FieldRef) (n : Nat) : (d.addSat f n).cpx = d.cpx := rfl
@[simp] theorem Dev.addSat_hst (f : FieldRef) (n : Nat) : (d.addSat f n).hst = d.hst := rfl
@[simp] theorem Dev.addSat_tbu (f : FieldRef) (n : Nat) : (d.addSat f n).tbu = d.tbu := rfl
@[simp] theorem Dev.addSat_twn (f : FieldRef) (n : Nat) : (d.addSat f n).twn = d.twn := rfl
@[simp] theorem Dev.addSat_rtp (f : FieldRef) (n : Nat) : (d.addSat f n).rtp = d.rtp := rfl
@[simp] theorem Dev.addSat_trn (f : FieldRef) (n : Nat) : (d.addSat f n).trn = d.trn := rfl
@[simp] theorem Dev.addSat_lpc (f : FieldRef) (n : Nat) : (d.addSat f n).lpc = d.lpc := rfl
@[simp] theorem Dev.addSat_cal (f : FieldRef) (n : Nat) : (d.addSat f n).cal = d.cal := rfl
@[simp] theorem Dev.addSat_flt (f : FieldRef) (n : Nat) : (d.addSat f n).flt = d.flt := rfl
@[simp] theorem Dev.addSat_ths (f : FieldRef) (n : Nat) : (d.addSat f n).ths = d.ths := rfl
@[simp] theorem Dev.addSat_mem (f : FieldRef) (n : Nat) : (d.addSat f n).mem = d.mem := rfl
@[simp] theorem Dev.addSat_pwm (f : FieldRef) (n : Nat) : (d.addSat f n).pwm = d.pwm := rfl
@[simp] theorem Dev.addSat_cln (f : FieldRef) (n : Nat) : (d.addSat f n).cln = d.cln := rfl
@[simp] theorem Dev.addSat_cmu (f : FieldRef) (n : Nat) : (d.addSat f n).cmu = d.cmu := rfl
@[simp] theorem Dev.addSat_elk (f : FieldRef) (n : Nat) : (d.addSat f n).elk = d.elk := rfl
@[simp] theorem Dev.addSat_plm (f : FieldRef) (n : Nat) : (d.addSat f n).plm = d.plm := rfl
@[simp] theorem Dev.addSat_adc (f : FieldRef) (n : Nat) : (d.addSat f n).adc = d.adc := rfl
@[simp] theorem Dev.addSat_dac (f : FieldRef) (n : Nat) : (d.addSat f n).dac = d.dac := rfl
@[simp] theorem Dev.addSat_free (f : FieldRef) (n : Nat) : (d.addSat f n).free = d.free := rfl
@[simp] theorem Dev.addSat_out (f : FieldRef) (n : Nat) : (d.addSat f n).out = d.out := rfl

/-! `Dev.bumpSat` changes `regs` only. -/

@[simp] theorem Dev.bumpSat_now (f : FieldRef) : (d.bumpSat f).now = d.now := rfl
@[simp] theorem Dev.bumpSat_shadow (f : FieldRef) : (d.bumpSat f).shadow = d.shadow := rfl
@[simp] theorem Dev.bumpSat_cpx (f : FieldRef) : (d.bumpSat f).cpx = d.cpx := rfl
@[simp] theorem Dev.bumpSat_hst (f : FieldRef) : (d.bumpSat f).hst = d.hst := rfl
@[simp] theorem Dev.bumpSat_tbu (f : FieldRef) : (d.bumpSat f).tbu = d.tbu := rfl
@[simp] theorem Dev.bumpSat_twn (f : FieldRef) : (d.bumpSat f).twn = d.twn := rfl
@[simp] theorem Dev.bumpSat_rtp (f : FieldRef) : (d.bumpSat f).rtp = d.rtp := rfl
@[simp] theorem Dev.bumpSat_trn (f : FieldRef) : (d.bumpSat f).trn = d.trn := rfl
@[simp] theorem Dev.bumpSat_lpc (f : FieldRef) : (d.bumpSat f).lpc = d.lpc := rfl
@[simp] theorem Dev.bumpSat_cal (f : FieldRef) : (d.bumpSat f).cal = d.cal := rfl
@[simp] theorem Dev.bumpSat_flt (f : FieldRef) : (d.bumpSat f).flt = d.flt := rfl
@[simp] theorem Dev.bumpSat_ths (f : FieldRef) : (d.bumpSat f).ths = d.ths := rfl
@[simp] theorem Dev.bumpSat_mem (f : FieldRef) : (d.bumpSat f).mem = d.mem := rfl
@[simp] theorem Dev.bumpSat_pwm (f : FieldRef) : (d.bumpSat f).pwm = d.pwm := rfl
@[simp] theorem Dev.bumpSat_cln (f : FieldRef) : (d.bumpSat f).cln = d.cln := rfl
@[simp] theorem Dev.bumpSat_cmu (f : FieldRef) : (d.bumpSat f).cmu = d.cmu := rfl
@[simp] theorem Dev.bumpSat_elk (f : FieldRef) : (d.bumpSat f).elk = d.elk := rfl
@[simp] theorem Dev.bumpSat_plm (f : FieldRef) : (d.bumpSat f).plm = d.plm := rfl
@[simp] theorem Dev.bumpSat_adc (f : FieldRef) : (d.bumpSat f).adc = d.adc := rfl
@[simp] theorem Dev.bumpSat_dac (f : FieldRef) : (d.bumpSat f).dac = d.dac := rfl
@[simp] theorem Dev.bumpSat_free (f : FieldRef) : (d.bumpSat f).free = d.free := rfl
@[simp] theorem Dev.bumpSat_out (f : FieldRef) : (d.bumpSat f).out = d.out := rfl

/-! `Dev.advance` changes `now` only. -/

@[simp] theorem Dev.advance_regs (t : Nat) : (d.advance t).regs = d.regs := rfl
@[simp] theorem Dev.advance_shadow (t : Nat) : (d.advance t).shadow = d.shadow := rfl
@[simp] theorem Dev.advance_cpx (t : Nat) : (d.advance t).cpx = d.cpx := rfl
@[simp] theorem Dev.advance_hst (t : Nat) : (d.advance t).hst = d.hst := rfl
@[simp] theorem Dev.advance_tbu (t : Nat) : (d.advance t).tbu = d.tbu := rfl
@[simp] theorem Dev.advance_twn (t : Nat) : (d.advance t).twn = d.twn := rfl
@[simp] theorem Dev.advance_rtp (t : Nat) : (d.advance t).rtp = d.rtp := rfl
@[simp] theorem Dev.advance_trn (t : Nat) : (d.advance t).trn = d.trn := rfl
@[simp] theorem Dev.advance_lpc (t : Nat) : (d.advance t).lpc = d.lpc := rfl
@[simp] theorem Dev.advance_cal (t : Nat) : (d.advance t).cal = d.cal := rfl
@[simp] theorem Dev.advance_flt (t : Nat) : (d.advance t).flt = d.flt := rfl
@[simp] theorem Dev.advance_ths (t : Nat) : (d.advance t).ths = d.ths := rfl
@[simp] theorem Dev.advance_mem (t : Nat) : (d.advance t).mem = d.mem := rfl
@[simp] theorem Dev.advance_pwm (t : Nat) : (d.advance t).pwm = d.pwm := rfl
@[simp] theorem Dev.advance_cln (t : Nat) : (d.advance t).cln = d.cln := rfl
@[simp] theorem Dev.advance_cmu (t : Nat) : (d.advance t).cmu = d.cmu := rfl
@[simp] theorem Dev.advance_elk (t : Nat) : (d.advance t).elk = d.elk := rfl
@[simp] theorem Dev.advance_plm (t : Nat) : (d.advance t).plm = d.plm := rfl
@[simp] theorem Dev.advance_adc (t : Nat) : (d.advance t).adc = d.adc := rfl
@[simp] theorem Dev.advance_dac (t : Nat) : (d.advance t).dac = d.dac := rfl
@[simp] theorem Dev.advance_free (t : Nat) : (d.advance t).free = d.free := rfl
@[simp] theorem Dev.advance_out (t : Nat) : (d.advance t).out = d.out := rfl
@[simp] theorem Dev.advance_reg (t : Nat) (r : Nat) : (d.advance t).reg r = d.reg r := rfl
@[simp] theorem Dev.advance_fld (t : Nat) (g : FieldRef) : (d.advance t).fld g = d.fld g := rfl
@[simp] theorem Dev.advance_flag (t : Nat) (g : FieldRef) : (d.advance t).flag g = d.flag g := rfl
@[simp] theorem Dev.advance_regN (t : Nat) (r : Nat) : (d.advance t).regN r = d.regN r := rfl

/-! `Dev.send` changes `out` only. -/

@[simp] theorem Dev.send_now (o : Output) : (d.send o).now = d.now := rfl
@[simp] theorem Dev.send_regs (o : Output) : (d.send o).regs = d.regs := rfl
@[simp] theorem Dev.send_shadow (o : Output) : (d.send o).shadow = d.shadow := rfl
@[simp] theorem Dev.send_cpx (o : Output) : (d.send o).cpx = d.cpx := rfl
@[simp] theorem Dev.send_hst (o : Output) : (d.send o).hst = d.hst := rfl
@[simp] theorem Dev.send_tbu (o : Output) : (d.send o).tbu = d.tbu := rfl
@[simp] theorem Dev.send_twn (o : Output) : (d.send o).twn = d.twn := rfl
@[simp] theorem Dev.send_rtp (o : Output) : (d.send o).rtp = d.rtp := rfl
@[simp] theorem Dev.send_trn (o : Output) : (d.send o).trn = d.trn := rfl
@[simp] theorem Dev.send_lpc (o : Output) : (d.send o).lpc = d.lpc := rfl
@[simp] theorem Dev.send_cal (o : Output) : (d.send o).cal = d.cal := rfl
@[simp] theorem Dev.send_flt (o : Output) : (d.send o).flt = d.flt := rfl
@[simp] theorem Dev.send_ths (o : Output) : (d.send o).ths = d.ths := rfl
@[simp] theorem Dev.send_mem (o : Output) : (d.send o).mem = d.mem := rfl
@[simp] theorem Dev.send_pwm (o : Output) : (d.send o).pwm = d.pwm := rfl
@[simp] theorem Dev.send_cln (o : Output) : (d.send o).cln = d.cln := rfl
@[simp] theorem Dev.send_cmu (o : Output) : (d.send o).cmu = d.cmu := rfl
@[simp] theorem Dev.send_elk (o : Output) : (d.send o).elk = d.elk := rfl
@[simp] theorem Dev.send_plm (o : Output) : (d.send o).plm = d.plm := rfl
@[simp] theorem Dev.send_adc (o : Output) : (d.send o).adc = d.adc := rfl
@[simp] theorem Dev.send_dac (o : Output) : (d.send o).dac = d.dac := rfl
@[simp] theorem Dev.send_free (o : Output) : (d.send o).free = d.free := rfl
@[simp] theorem Dev.send_reg (o : Output) (r : Nat) : (d.send o).reg r = d.reg r := rfl
@[simp] theorem Dev.send_fld (o : Output) (g : FieldRef) : (d.send o).fld g = d.fld g := rfl
@[simp] theorem Dev.send_flag (o : Output) (g : FieldRef) : (d.send o).flag g = d.flag g := rfl
@[simp] theorem Dev.send_regN (o : Output) (r : Nat) : (d.send o).regN r = d.regN r := rfl

/-! `Dev.event` changes `cpx` only. -/

@[simp] theorem Dev.event_now (code source : Nat) (data : Bytes) (low : Bool) : (d.event code source data low).now = d.now := rfl
@[simp] theorem Dev.event_regs (code source : Nat) (data : Bytes) (low : Bool) : (d.event code source data low).regs = d.regs := rfl
@[simp] theorem Dev.event_shadow (code source : Nat) (data : Bytes) (low : Bool) : (d.event code source data low).shadow = d.shadow := rfl
@[simp] theorem Dev.event_hst (code source : Nat) (data : Bytes) (low : Bool) : (d.event code source data low).hst = d.hst := rfl
@[simp] theorem Dev.event_tbu (code source : Nat) (data : Bytes) (low : Bool) : (d.event code source data low).tbu = d.tbu := rfl
@[simp] theorem Dev.event_twn (code source : Nat) (data : Bytes) (low : Bool) : (d.event code source data low).twn = d.twn := rfl
@[simp] theorem Dev.event_rtp (code source : Nat) (data : Bytes) (low : Bool) : (d.event code source data low).rtp = d.rtp := rfl
@[simp] theorem Dev.event_trn (code source : Nat) (data : Bytes) (low : Bool) : (d.event code source data low).trn = d.trn := rfl
@[simp] theorem Dev.event_lpc (code source : Nat) (data : Bytes) (low : Bool) : (d.event code source data low).lpc = d.lpc := rfl
@[simp] theorem Dev.event_cal (code source : Nat) (data : Bytes) (low : Bool) : (d.event code source data low).cal = d.cal := rfl
@[simp] theorem Dev.event_flt (code source : Nat) (data : Bytes) (low : Bool) : (d.event code source data low).flt = d.flt := rfl
@[simp] theorem Dev.event_ths (code source : Nat) (data : Bytes) (low : Bool) : (d.event code source data low).ths = d.ths := rfl
@[simp] theorem Dev.event_mem (code source : Nat) (data : Bytes) (low : Bool) : (d.event code source data low).mem = d.mem := rfl
@[simp] theorem Dev.event_pwm (code source : Nat) (data : Bytes) (low : Bool) : (d.event code source data low).pwm = d.pwm := rfl
@[simp] theorem Dev.event_cln (code source : Nat) (data : Bytes) (low : Bool) : (d.event code source data low).cln = d.cln := rfl
@[simp] theorem Dev.event_cmu (code source : Nat) (data : Bytes) (low : Bool) : (d.event code source data low).cmu = d.cmu := rfl
@[simp] theorem Dev.event_elk (code source : Nat) (data : Bytes) (low : Bool) : (d.event code source data low).elk = d.elk := rfl
@[simp] theorem Dev.event_plm (code source : Nat) (data : Bytes) (low : Bool) : (d.event code source data low).plm = d.plm := rfl
@[simp] theorem Dev.event_adc (code source : Nat) (data : Bytes) (low : Bool) : (d.event code source data low).adc = d.adc := rfl
@[simp] theorem Dev.event_dac (code source : Nat) (data : Bytes) (low : Bool) : (d.event code source data low).dac = d.dac := rfl
@[simp] theorem Dev.event_free (code source : Nat) (data : Bytes) (low : Bool) : (d.event code source data low).free = d.free := rfl
@[simp] theorem Dev.event_out (code source : Nat) (data : Bytes) (low : Bool) : (d.event code source data low).out = d.out := rfl
@[simp] theorem Dev.event_reg (code source : Nat) (data : Bytes) (low : Bool) (r : Nat) : (d.event code source data low).reg r = d.reg r := rfl
@[simp] theorem Dev.event_fld (code source : Nat) (data : Bytes) (low : Bool) (g : FieldRef) : (d.event code source data low).fld g = d.fld g := rfl
@[simp] theorem Dev.event_flag (code source : Nat) (data : Bytes) (low : Bool) (g : FieldRef) : (d.event code source data low).flag g = d.flag g := rfl
@[simp] theorem Dev.event_regN (code source : Nat) (data : Bytes) (low : Bool) (r : Nat) : (d.event code source data low).regN r = d.regN r := rfl

/-! `Dev.reply` changes `cpx` only. -/

@[simp] theorem Dev.reply_now (x : Reply) : (d.reply x).now = d.now := rfl
@[simp] theorem Dev.reply_regs (x : Reply) : (d.reply x).regs = d.regs := rfl
@[simp] theorem Dev.reply_shadow (x : Reply) : (d.reply x).shadow = d.shadow := rfl
@[simp] theorem Dev.reply_hst (x : Reply) : (d.reply x).hst = d.hst := rfl
@[simp] theorem Dev.reply_tbu (x : Reply) : (d.reply x).tbu = d.tbu := rfl
@[simp] theorem Dev.reply_twn (x : Reply) : (d.reply x).twn = d.twn := rfl
@[simp] theorem Dev.reply_rtp (x : Reply) : (d.reply x).rtp = d.rtp := rfl
@[simp] theorem Dev.reply_trn (x : Reply) : (d.reply x).trn = d.trn := rfl
@[simp] theorem Dev.reply_lpc (x : Reply) : (d.reply x).lpc = d.lpc := rfl
@[simp] theorem Dev.reply_cal (x : Reply) : (d.reply x).cal = d.cal := rfl
@[simp] theorem Dev.reply_flt (x : Reply) : (d.reply x).flt = d.flt := rfl
@[simp] theorem Dev.reply_ths (x : Reply) : (d.reply x).ths = d.ths := rfl
@[simp] theorem Dev.reply_mem (x : Reply) : (d.reply x).mem = d.mem := rfl
@[simp] theorem Dev.reply_pwm (x : Reply) : (d.reply x).pwm = d.pwm := rfl
@[simp] theorem Dev.reply_cln (x : Reply) : (d.reply x).cln = d.cln := rfl
@[simp] theorem Dev.reply_cmu (x : Reply) : (d.reply x).cmu = d.cmu := rfl
@[simp] theorem Dev.reply_elk (x : Reply) : (d.reply x).elk = d.elk := rfl
@[simp] theorem Dev.reply_plm (x : Reply) : (d.reply x).plm = d.plm := rfl
@[simp] theorem Dev.reply_adc (x : Reply) : (d.reply x).adc = d.adc := rfl
@[simp] theorem Dev.reply_dac (x : Reply) : (d.reply x).dac = d.dac := rfl
@[simp] theorem Dev.reply_free (x : Reply) : (d.reply x).free = d.free := rfl
@[simp] theorem Dev.reply_out (x : Reply) : (d.reply x).out = d.out := rfl
@[simp] theorem Dev.reply_reg (x : Reply) (r : Nat) : (d.reply x).reg r = d.reg r := rfl
@[simp] theorem Dev.reply_fld (x : Reply) (g : FieldRef) : (d.reply x).fld g = d.fld g := rfl
@[simp] theorem Dev.reply_flag (x : Reply) (g : FieldRef) : (d.reply x).flag g = d.flag g := rfl
@[simp] theorem Dev.reply_regN (x : Reply) (r : Nat) : (d.reply x).regN r = d.regN r := rfl

/-! `Dev.setRequester` changes `cpx` only. -/

@[simp] theorem Dev.setRequester_now (n : Nat) (q : Requester) : (d.setRequester n q).now = d.now := rfl
@[simp] theorem Dev.setRequester_regs (n : Nat) (q : Requester) : (d.setRequester n q).regs = d.regs := rfl
@[simp] theorem Dev.setRequester_shadow (n : Nat) (q : Requester) : (d.setRequester n q).shadow = d.shadow := rfl
@[simp] theorem Dev.setRequester_hst (n : Nat) (q : Requester) : (d.setRequester n q).hst = d.hst := rfl
@[simp] theorem Dev.setRequester_tbu (n : Nat) (q : Requester) : (d.setRequester n q).tbu = d.tbu := rfl
@[simp] theorem Dev.setRequester_twn (n : Nat) (q : Requester) : (d.setRequester n q).twn = d.twn := rfl
@[simp] theorem Dev.setRequester_rtp (n : Nat) (q : Requester) : (d.setRequester n q).rtp = d.rtp := rfl
@[simp] theorem Dev.setRequester_trn (n : Nat) (q : Requester) : (d.setRequester n q).trn = d.trn := rfl
@[simp] theorem Dev.setRequester_lpc (n : Nat) (q : Requester) : (d.setRequester n q).lpc = d.lpc := rfl
@[simp] theorem Dev.setRequester_cal (n : Nat) (q : Requester) : (d.setRequester n q).cal = d.cal := rfl
@[simp] theorem Dev.setRequester_flt (n : Nat) (q : Requester) : (d.setRequester n q).flt = d.flt := rfl
@[simp] theorem Dev.setRequester_ths (n : Nat) (q : Requester) : (d.setRequester n q).ths = d.ths := rfl
@[simp] theorem Dev.setRequester_mem (n : Nat) (q : Requester) : (d.setRequester n q).mem = d.mem := rfl
@[simp] theorem Dev.setRequester_pwm (n : Nat) (q : Requester) : (d.setRequester n q).pwm = d.pwm := rfl
@[simp] theorem Dev.setRequester_cln (n : Nat) (q : Requester) : (d.setRequester n q).cln = d.cln := rfl
@[simp] theorem Dev.setRequester_cmu (n : Nat) (q : Requester) : (d.setRequester n q).cmu = d.cmu := rfl
@[simp] theorem Dev.setRequester_elk (n : Nat) (q : Requester) : (d.setRequester n q).elk = d.elk := rfl
@[simp] theorem Dev.setRequester_plm (n : Nat) (q : Requester) : (d.setRequester n q).plm = d.plm := rfl
@[simp] theorem Dev.setRequester_adc (n : Nat) (q : Requester) : (d.setRequester n q).adc = d.adc := rfl
@[simp] theorem Dev.setRequester_dac (n : Nat) (q : Requester) : (d.setRequester n q).dac = d.dac := rfl
@[simp] theorem Dev.setRequester_free (n : Nat) (q : Requester) : (d.setRequester n q).free = d.free := rfl
@[simp] theorem Dev.setRequester_out (n : Nat) (q : Requester) : (d.setRequester n q).out = d.out := rfl
@[simp] theorem Dev.setRequester_reg (n : Nat) (q : Requester) (r : Nat) : (d.setRequester n q).reg r = d.reg r := rfl
@[simp] theorem Dev.setRequester_fld (n : Nat) (q : Requester) (g : FieldRef) : (d.setRequester n q).fld g = d.fld g := rfl
@[simp] theorem Dev.setRequester_flag (n : Nat) (q : Requester) (g : FieldRef) : (d.setRequester n q).flag g = d.flag g := rfl
@[simp] theorem Dev.setRequester_regN (n : Nat) (q : Requester) (r : Nat) : (d.setRequester n q).regN r = d.regN r := rfl

/-! `Dev.setRing` changes `cpx` only. -/

@[simp] theorem Dev.setRing_now (n : Nat) (x : Ring) : (d.setRing n x).now = d.now := rfl
@[simp] theorem Dev.setRing_regs (n : Nat) (x : Ring) : (d.setRing n x).regs = d.regs := rfl
@[simp] theorem Dev.setRing_shadow (n : Nat) (x : Ring) : (d.setRing n x).shadow = d.shadow := rfl
@[simp] theorem Dev.setRing_hst (n : Nat) (x : Ring) : (d.setRing n x).hst = d.hst := rfl
@[simp] theorem Dev.setRing_tbu (n : Nat) (x : Ring) : (d.setRing n x).tbu = d.tbu := rfl
@[simp] theorem Dev.setRing_twn (n : Nat) (x : Ring) : (d.setRing n x).twn = d.twn := rfl
@[simp] theorem Dev.setRing_rtp (n : Nat) (x : Ring) : (d.setRing n x).rtp = d.rtp := rfl
@[simp] theorem Dev.setRing_trn (n : Nat) (x : Ring) : (d.setRing n x).trn = d.trn := rfl
@[simp] theorem Dev.setRing_lpc (n : Nat) (x : Ring) : (d.setRing n x).lpc = d.lpc := rfl
@[simp] theorem Dev.setRing_cal (n : Nat) (x : Ring) : (d.setRing n x).cal = d.cal := rfl
@[simp] theorem Dev.setRing_flt (n : Nat) (x : Ring) : (d.setRing n x).flt = d.flt := rfl
@[simp] theorem Dev.setRing_ths (n : Nat) (x : Ring) : (d.setRing n x).ths = d.ths := rfl
@[simp] theorem Dev.setRing_mem (n : Nat) (x : Ring) : (d.setRing n x).mem = d.mem := rfl
@[simp] theorem Dev.setRing_pwm (n : Nat) (x : Ring) : (d.setRing n x).pwm = d.pwm := rfl
@[simp] theorem Dev.setRing_cln (n : Nat) (x : Ring) : (d.setRing n x).cln = d.cln := rfl
@[simp] theorem Dev.setRing_cmu (n : Nat) (x : Ring) : (d.setRing n x).cmu = d.cmu := rfl
@[simp] theorem Dev.setRing_elk (n : Nat) (x : Ring) : (d.setRing n x).elk = d.elk := rfl
@[simp] theorem Dev.setRing_plm (n : Nat) (x : Ring) : (d.setRing n x).plm = d.plm := rfl
@[simp] theorem Dev.setRing_adc (n : Nat) (x : Ring) : (d.setRing n x).adc = d.adc := rfl
@[simp] theorem Dev.setRing_dac (n : Nat) (x : Ring) : (d.setRing n x).dac = d.dac := rfl
@[simp] theorem Dev.setRing_free (n : Nat) (x : Ring) : (d.setRing n x).free = d.free := rfl
@[simp] theorem Dev.setRing_out (n : Nat) (x : Ring) : (d.setRing n x).out = d.out := rfl
@[simp] theorem Dev.setRing_reg (n : Nat) (x : Ring) (r : Nat) : (d.setRing n x).reg r = d.reg r := rfl
@[simp] theorem Dev.setRing_fld (n : Nat) (x : Ring) (g : FieldRef) : (d.setRing n x).fld g = d.fld g := rfl
@[simp] theorem Dev.setRing_flag (n : Nat) (x : Ring) (g : FieldRef) : (d.setRing n x).flag g = d.flag g := rfl
@[simp] theorem Dev.setRing_regN (n : Nat) (x : Ring) (r : Nat) : (d.setRing n x).regN r = d.regN r := rfl

/-! `Dev.openCmd` changes `cpx` only. -/

@[simp] theorem Dev.openCmd_now (p : Packet) (owner : Nat) : (d.openCmd p owner).now = d.now := rfl
@[simp] theorem Dev.openCmd_regs (p : Packet) (owner : Nat) : (d.openCmd p owner).regs = d.regs := rfl
@[simp] theorem Dev.openCmd_shadow (p : Packet) (owner : Nat) : (d.openCmd p owner).shadow = d.shadow := rfl
@[simp] theorem Dev.openCmd_hst (p : Packet) (owner : Nat) : (d.openCmd p owner).hst = d.hst := rfl
@[simp] theorem Dev.openCmd_tbu (p : Packet) (owner : Nat) : (d.openCmd p owner).tbu = d.tbu := rfl
@[simp] theorem Dev.openCmd_twn (p : Packet) (owner : Nat) : (d.openCmd p owner).twn = d.twn := rfl
@[simp] theorem Dev.openCmd_rtp (p : Packet) (owner : Nat) : (d.openCmd p owner).rtp = d.rtp := rfl
@[simp] theorem Dev.openCmd_trn (p : Packet) (owner : Nat) : (d.openCmd p owner).trn = d.trn := rfl
@[simp] theorem Dev.openCmd_lpc (p : Packet) (owner : Nat) : (d.openCmd p owner).lpc = d.lpc := rfl
@[simp] theorem Dev.openCmd_cal (p : Packet) (owner : Nat) : (d.openCmd p owner).cal = d.cal := rfl
@[simp] theorem Dev.openCmd_flt (p : Packet) (owner : Nat) : (d.openCmd p owner).flt = d.flt := rfl
@[simp] theorem Dev.openCmd_ths (p : Packet) (owner : Nat) : (d.openCmd p owner).ths = d.ths := rfl
@[simp] theorem Dev.openCmd_mem (p : Packet) (owner : Nat) : (d.openCmd p owner).mem = d.mem := rfl
@[simp] theorem Dev.openCmd_pwm (p : Packet) (owner : Nat) : (d.openCmd p owner).pwm = d.pwm := rfl
@[simp] theorem Dev.openCmd_cln (p : Packet) (owner : Nat) : (d.openCmd p owner).cln = d.cln := rfl
@[simp] theorem Dev.openCmd_cmu (p : Packet) (owner : Nat) : (d.openCmd p owner).cmu = d.cmu := rfl
@[simp] theorem Dev.openCmd_elk (p : Packet) (owner : Nat) : (d.openCmd p owner).elk = d.elk := rfl
@[simp] theorem Dev.openCmd_plm (p : Packet) (owner : Nat) : (d.openCmd p owner).plm = d.plm := rfl
@[simp] theorem Dev.openCmd_adc (p : Packet) (owner : Nat) : (d.openCmd p owner).adc = d.adc := rfl
@[simp] theorem Dev.openCmd_dac (p : Packet) (owner : Nat) : (d.openCmd p owner).dac = d.dac := rfl
@[simp] theorem Dev.openCmd_free (p : Packet) (owner : Nat) : (d.openCmd p owner).free = d.free := rfl
@[simp] theorem Dev.openCmd_out (p : Packet) (owner : Nat) : (d.openCmd p owner).out = d.out := rfl
@[simp] theorem Dev.openCmd_reg (p : Packet) (owner : Nat) (r : Nat) : (d.openCmd p owner).reg r = d.reg r := rfl
@[simp] theorem Dev.openCmd_fld (p : Packet) (owner : Nat) (g : FieldRef) : (d.openCmd p owner).fld g = d.fld g := rfl
@[simp] theorem Dev.openCmd_flag (p : Packet) (owner : Nat) (g : FieldRef) : (d.openCmd p owner).flag g = d.flag g := rfl
@[simp] theorem Dev.openCmd_regN (p : Packet) (owner : Nat) (r : Nat) : (d.openCmd p owner).regN r = d.regN r := rfl

/-! `Dev.strike` changes `cpx` only. -/

@[simp] theorem Dev.strike_now (oid : Nat) : (d.strike oid).now = d.now := rfl
@[simp] theorem Dev.strike_regs (oid : Nat) : (d.strike oid).regs = d.regs := rfl
@[simp] theorem Dev.strike_shadow (oid : Nat) : (d.strike oid).shadow = d.shadow := rfl
@[simp] theorem Dev.strike_hst (oid : Nat) : (d.strike oid).hst = d.hst := rfl
@[simp] theorem Dev.strike_tbu (oid : Nat) : (d.strike oid).tbu = d.tbu := rfl
@[simp] theorem Dev.strike_twn (oid : Nat) : (d.strike oid).twn = d.twn := rfl
@[simp] theorem Dev.strike_rtp (oid : Nat) : (d.strike oid).rtp = d.rtp := rfl
@[simp] theorem Dev.strike_trn (oid : Nat) : (d.strike oid).trn = d.trn := rfl
@[simp] theorem Dev.strike_lpc (oid : Nat) : (d.strike oid).lpc = d.lpc := rfl
@[simp] theorem Dev.strike_cal (oid : Nat) : (d.strike oid).cal = d.cal := rfl
@[simp] theorem Dev.strike_flt (oid : Nat) : (d.strike oid).flt = d.flt := rfl
@[simp] theorem Dev.strike_ths (oid : Nat) : (d.strike oid).ths = d.ths := rfl
@[simp] theorem Dev.strike_mem (oid : Nat) : (d.strike oid).mem = d.mem := rfl
@[simp] theorem Dev.strike_pwm (oid : Nat) : (d.strike oid).pwm = d.pwm := rfl
@[simp] theorem Dev.strike_cln (oid : Nat) : (d.strike oid).cln = d.cln := rfl
@[simp] theorem Dev.strike_cmu (oid : Nat) : (d.strike oid).cmu = d.cmu := rfl
@[simp] theorem Dev.strike_elk (oid : Nat) : (d.strike oid).elk = d.elk := rfl
@[simp] theorem Dev.strike_plm (oid : Nat) : (d.strike oid).plm = d.plm := rfl
@[simp] theorem Dev.strike_adc (oid : Nat) : (d.strike oid).adc = d.adc := rfl
@[simp] theorem Dev.strike_dac (oid : Nat) : (d.strike oid).dac = d.dac := rfl
@[simp] theorem Dev.strike_free (oid : Nat) : (d.strike oid).free = d.free := rfl
@[simp] theorem Dev.strike_out (oid : Nat) : (d.strike oid).out = d.out := rfl
@[simp] theorem Dev.strike_reg (oid : Nat) (r : Nat) : (d.strike oid).reg r = d.reg r := rfl
@[simp] theorem Dev.strike_fld (oid : Nat) (g : FieldRef) : (d.strike oid).fld g = d.fld g := rfl
@[simp] theorem Dev.strike_flag (oid : Nat) (g : FieldRef) : (d.strike oid).flag g = d.flag g := rfl
@[simp] theorem Dev.strike_regN (oid : Nat) (r : Nat) : (d.strike oid).regN r = d.regN r := rfl

/-! `Dev.fresh` changes `free` only. -/

@[simp] theorem Dev.fresh_now (bound : Nat) : ((d.fresh bound).2).now = d.now := rfl
@[simp] theorem Dev.fresh_regs (bound : Nat) : ((d.fresh bound).2).regs = d.regs := rfl
@[simp] theorem Dev.fresh_shadow (bound : Nat) : ((d.fresh bound).2).shadow = d.shadow := rfl
@[simp] theorem Dev.fresh_cpx (bound : Nat) : ((d.fresh bound).2).cpx = d.cpx := rfl
@[simp] theorem Dev.fresh_hst (bound : Nat) : ((d.fresh bound).2).hst = d.hst := rfl
@[simp] theorem Dev.fresh_tbu (bound : Nat) : ((d.fresh bound).2).tbu = d.tbu := rfl
@[simp] theorem Dev.fresh_twn (bound : Nat) : ((d.fresh bound).2).twn = d.twn := rfl
@[simp] theorem Dev.fresh_rtp (bound : Nat) : ((d.fresh bound).2).rtp = d.rtp := rfl
@[simp] theorem Dev.fresh_trn (bound : Nat) : ((d.fresh bound).2).trn = d.trn := rfl
@[simp] theorem Dev.fresh_lpc (bound : Nat) : ((d.fresh bound).2).lpc = d.lpc := rfl
@[simp] theorem Dev.fresh_cal (bound : Nat) : ((d.fresh bound).2).cal = d.cal := rfl
@[simp] theorem Dev.fresh_flt (bound : Nat) : ((d.fresh bound).2).flt = d.flt := rfl
@[simp] theorem Dev.fresh_ths (bound : Nat) : ((d.fresh bound).2).ths = d.ths := rfl
@[simp] theorem Dev.fresh_mem (bound : Nat) : ((d.fresh bound).2).mem = d.mem := rfl
@[simp] theorem Dev.fresh_pwm (bound : Nat) : ((d.fresh bound).2).pwm = d.pwm := rfl
@[simp] theorem Dev.fresh_cln (bound : Nat) : ((d.fresh bound).2).cln = d.cln := rfl
@[simp] theorem Dev.fresh_cmu (bound : Nat) : ((d.fresh bound).2).cmu = d.cmu := rfl
@[simp] theorem Dev.fresh_elk (bound : Nat) : ((d.fresh bound).2).elk = d.elk := rfl
@[simp] theorem Dev.fresh_plm (bound : Nat) : ((d.fresh bound).2).plm = d.plm := rfl
@[simp] theorem Dev.fresh_adc (bound : Nat) : ((d.fresh bound).2).adc = d.adc := rfl
@[simp] theorem Dev.fresh_dac (bound : Nat) : ((d.fresh bound).2).dac = d.dac := rfl
@[simp] theorem Dev.fresh_out (bound : Nat) : ((d.fresh bound).2).out = d.out := rfl
@[simp] theorem Dev.fresh_reg (bound : Nat) (r : Nat) : ((d.fresh bound).2).reg r = d.reg r := rfl
@[simp] theorem Dev.fresh_fld (bound : Nat) (g : FieldRef) : ((d.fresh bound).2).fld g = d.fld g := rfl
@[simp] theorem Dev.fresh_flag (bound : Nat) (g : FieldRef) : ((d.fresh bound).2).flag g = d.flag g := rfl
@[simp] theorem Dev.fresh_regN (bound : Nat) (r : Nat) : ((d.fresh bound).2).regN r = d.regN r := rfl

/-! `Dev.setEntry` changes `tbu` only. -/

@[simp] theorem Dev.setEntry_now (i : Nat) (f : SchedEntry → SchedEntry) : (d.setEntry i f).now = d.now := rfl
@[simp] theorem Dev.setEntry_regs (i : Nat) (f : SchedEntry → SchedEntry) : (d.setEntry i f).regs = d.regs := rfl
@[simp] theorem Dev.setEntry_shadow (i : Nat) (f : SchedEntry → SchedEntry) : (d.setEntry i f).shadow = d.shadow := rfl
@[simp] theorem Dev.setEntry_cpx (i : Nat) (f : SchedEntry → SchedEntry) : (d.setEntry i f).cpx = d.cpx := rfl
@[simp] theorem Dev.setEntry_hst (i : Nat) (f : SchedEntry → SchedEntry) : (d.setEntry i f).hst = d.hst := rfl
@[simp] theorem Dev.setEntry_twn (i : Nat) (f : SchedEntry → SchedEntry) : (d.setEntry i f).twn = d.twn := rfl
@[simp] theorem Dev.setEntry_rtp (i : Nat) (f : SchedEntry → SchedEntry) : (d.setEntry i f).rtp = d.rtp := rfl
@[simp] theorem Dev.setEntry_trn (i : Nat) (f : SchedEntry → SchedEntry) : (d.setEntry i f).trn = d.trn := rfl
@[simp] theorem Dev.setEntry_lpc (i : Nat) (f : SchedEntry → SchedEntry) : (d.setEntry i f).lpc = d.lpc := rfl
@[simp] theorem Dev.setEntry_cal (i : Nat) (f : SchedEntry → SchedEntry) : (d.setEntry i f).cal = d.cal := rfl
@[simp] theorem Dev.setEntry_flt (i : Nat) (f : SchedEntry → SchedEntry) : (d.setEntry i f).flt = d.flt := rfl
@[simp] theorem Dev.setEntry_ths (i : Nat) (f : SchedEntry → SchedEntry) : (d.setEntry i f).ths = d.ths := rfl
@[simp] theorem Dev.setEntry_mem (i : Nat) (f : SchedEntry → SchedEntry) : (d.setEntry i f).mem = d.mem := rfl
@[simp] theorem Dev.setEntry_pwm (i : Nat) (f : SchedEntry → SchedEntry) : (d.setEntry i f).pwm = d.pwm := rfl
@[simp] theorem Dev.setEntry_cln (i : Nat) (f : SchedEntry → SchedEntry) : (d.setEntry i f).cln = d.cln := rfl
@[simp] theorem Dev.setEntry_cmu (i : Nat) (f : SchedEntry → SchedEntry) : (d.setEntry i f).cmu = d.cmu := rfl
@[simp] theorem Dev.setEntry_elk (i : Nat) (f : SchedEntry → SchedEntry) : (d.setEntry i f).elk = d.elk := rfl
@[simp] theorem Dev.setEntry_plm (i : Nat) (f : SchedEntry → SchedEntry) : (d.setEntry i f).plm = d.plm := rfl
@[simp] theorem Dev.setEntry_adc (i : Nat) (f : SchedEntry → SchedEntry) : (d.setEntry i f).adc = d.adc := rfl
@[simp] theorem Dev.setEntry_dac (i : Nat) (f : SchedEntry → SchedEntry) : (d.setEntry i f).dac = d.dac := rfl
@[simp] theorem Dev.setEntry_free (i : Nat) (f : SchedEntry → SchedEntry) : (d.setEntry i f).free = d.free := rfl
@[simp] theorem Dev.setEntry_out (i : Nat) (f : SchedEntry → SchedEntry) : (d.setEntry i f).out = d.out := rfl
@[simp] theorem Dev.setEntry_reg (i : Nat) (f : SchedEntry → SchedEntry) (r : Nat) : (d.setEntry i f).reg r = d.reg r := rfl
@[simp] theorem Dev.setEntry_fld (i : Nat) (f : SchedEntry → SchedEntry) (g : FieldRef) : (d.setEntry i f).fld g = d.fld g := rfl
@[simp] theorem Dev.setEntry_flag (i : Nat) (f : SchedEntry → SchedEntry) (g : FieldRef) : (d.setEntry i f).flag g = d.flag g := rfl
@[simp] theorem Dev.setEntry_regN (i : Nat) (f : SchedEntry → SchedEntry) (r : Nat) : (d.setEntry i f).regN r = d.regN r := rfl

/-! `Dev.setTrain` changes `tbu` only. -/

@[simp] theorem Dev.setTrain_now (t : Nat) (x : Train) : (d.setTrain t x).now = d.now := rfl
@[simp] theorem Dev.setTrain_regs (t : Nat) (x : Train) : (d.setTrain t x).regs = d.regs := rfl
@[simp] theorem Dev.setTrain_shadow (t : Nat) (x : Train) : (d.setTrain t x).shadow = d.shadow := rfl
@[simp] theorem Dev.setTrain_cpx (t : Nat) (x : Train) : (d.setTrain t x).cpx = d.cpx := rfl
@[simp] theorem Dev.setTrain_hst (t : Nat) (x : Train) : (d.setTrain t x).hst = d.hst := rfl
@[simp] theorem Dev.setTrain_twn (t : Nat) (x : Train) : (d.setTrain t x).twn = d.twn := rfl
@[simp] theorem Dev.setTrain_rtp (t : Nat) (x : Train) : (d.setTrain t x).rtp = d.rtp := rfl
@[simp] theorem Dev.setTrain_trn (t : Nat) (x : Train) : (d.setTrain t x).trn = d.trn := rfl
@[simp] theorem Dev.setTrain_lpc (t : Nat) (x : Train) : (d.setTrain t x).lpc = d.lpc := rfl
@[simp] theorem Dev.setTrain_cal (t : Nat) (x : Train) : (d.setTrain t x).cal = d.cal := rfl
@[simp] theorem Dev.setTrain_flt (t : Nat) (x : Train) : (d.setTrain t x).flt = d.flt := rfl
@[simp] theorem Dev.setTrain_ths (t : Nat) (x : Train) : (d.setTrain t x).ths = d.ths := rfl
@[simp] theorem Dev.setTrain_mem (t : Nat) (x : Train) : (d.setTrain t x).mem = d.mem := rfl
@[simp] theorem Dev.setTrain_pwm (t : Nat) (x : Train) : (d.setTrain t x).pwm = d.pwm := rfl
@[simp] theorem Dev.setTrain_cln (t : Nat) (x : Train) : (d.setTrain t x).cln = d.cln := rfl
@[simp] theorem Dev.setTrain_cmu (t : Nat) (x : Train) : (d.setTrain t x).cmu = d.cmu := rfl
@[simp] theorem Dev.setTrain_elk (t : Nat) (x : Train) : (d.setTrain t x).elk = d.elk := rfl
@[simp] theorem Dev.setTrain_plm (t : Nat) (x : Train) : (d.setTrain t x).plm = d.plm := rfl
@[simp] theorem Dev.setTrain_adc (t : Nat) (x : Train) : (d.setTrain t x).adc = d.adc := rfl
@[simp] theorem Dev.setTrain_dac (t : Nat) (x : Train) : (d.setTrain t x).dac = d.dac := rfl
@[simp] theorem Dev.setTrain_free (t : Nat) (x : Train) : (d.setTrain t x).free = d.free := rfl
@[simp] theorem Dev.setTrain_out (t : Nat) (x : Train) : (d.setTrain t x).out = d.out := rfl
@[simp] theorem Dev.setTrain_reg (t : Nat) (x : Train) (r : Nat) : (d.setTrain t x).reg r = d.reg r := rfl
@[simp] theorem Dev.setTrain_fld (t : Nat) (x : Train) (g : FieldRef) : (d.setTrain t x).fld g = d.fld g := rfl
@[simp] theorem Dev.setTrain_flag (t : Nat) (x : Train) (g : FieldRef) : (d.setTrain t x).flag g = d.flag g := rfl
@[simp] theorem Dev.setTrain_regN (t : Nat) (x : Train) (r : Nat) : (d.setTrain t x).regN r = d.regN r := rfl

/-! `Dev.setWheel` changes `tbu` only. -/

@[simp] theorem Dev.setWheel_now (i : Nat) (x : WheelSensor) : (d.setWheel i x).now = d.now := rfl
@[simp] theorem Dev.setWheel_regs (i : Nat) (x : WheelSensor) : (d.setWheel i x).regs = d.regs := rfl
@[simp] theorem Dev.setWheel_shadow (i : Nat) (x : WheelSensor) : (d.setWheel i x).shadow = d.shadow := rfl
@[simp] theorem Dev.setWheel_cpx (i : Nat) (x : WheelSensor) : (d.setWheel i x).cpx = d.cpx := rfl
@[simp] theorem Dev.setWheel_hst (i : Nat) (x : WheelSensor) : (d.setWheel i x).hst = d.hst := rfl
@[simp] theorem Dev.setWheel_twn (i : Nat) (x : WheelSensor) : (d.setWheel i x).twn = d.twn := rfl
@[simp] theorem Dev.setWheel_rtp (i : Nat) (x : WheelSensor) : (d.setWheel i x).rtp = d.rtp := rfl
@[simp] theorem Dev.setWheel_trn (i : Nat) (x : WheelSensor) : (d.setWheel i x).trn = d.trn := rfl
@[simp] theorem Dev.setWheel_lpc (i : Nat) (x : WheelSensor) : (d.setWheel i x).lpc = d.lpc := rfl
@[simp] theorem Dev.setWheel_cal (i : Nat) (x : WheelSensor) : (d.setWheel i x).cal = d.cal := rfl
@[simp] theorem Dev.setWheel_flt (i : Nat) (x : WheelSensor) : (d.setWheel i x).flt = d.flt := rfl
@[simp] theorem Dev.setWheel_ths (i : Nat) (x : WheelSensor) : (d.setWheel i x).ths = d.ths := rfl
@[simp] theorem Dev.setWheel_mem (i : Nat) (x : WheelSensor) : (d.setWheel i x).mem = d.mem := rfl
@[simp] theorem Dev.setWheel_pwm (i : Nat) (x : WheelSensor) : (d.setWheel i x).pwm = d.pwm := rfl
@[simp] theorem Dev.setWheel_cln (i : Nat) (x : WheelSensor) : (d.setWheel i x).cln = d.cln := rfl
@[simp] theorem Dev.setWheel_cmu (i : Nat) (x : WheelSensor) : (d.setWheel i x).cmu = d.cmu := rfl
@[simp] theorem Dev.setWheel_elk (i : Nat) (x : WheelSensor) : (d.setWheel i x).elk = d.elk := rfl
@[simp] theorem Dev.setWheel_plm (i : Nat) (x : WheelSensor) : (d.setWheel i x).plm = d.plm := rfl
@[simp] theorem Dev.setWheel_adc (i : Nat) (x : WheelSensor) : (d.setWheel i x).adc = d.adc := rfl
@[simp] theorem Dev.setWheel_dac (i : Nat) (x : WheelSensor) : (d.setWheel i x).dac = d.dac := rfl
@[simp] theorem Dev.setWheel_free (i : Nat) (x : WheelSensor) : (d.setWheel i x).free = d.free := rfl
@[simp] theorem Dev.setWheel_out (i : Nat) (x : WheelSensor) : (d.setWheel i x).out = d.out := rfl
@[simp] theorem Dev.setWheel_reg (i : Nat) (x : WheelSensor) (r : Nat) : (d.setWheel i x).reg r = d.reg r := rfl
@[simp] theorem Dev.setWheel_fld (i : Nat) (x : WheelSensor) (g : FieldRef) : (d.setWheel i x).fld g = d.fld g := rfl
@[simp] theorem Dev.setWheel_flag (i : Nat) (x : WheelSensor) (g : FieldRef) : (d.setWheel i x).flag g = d.flag g := rfl
@[simp] theorem Dev.setWheel_regN (i : Nat) (x : WheelSensor) (r : Nat) : (d.setWheel i x).regN r = d.regN r := rfl

/-! `Dev.setCircuit` changes `rtp` only. -/

@[simp] theorem Dev.setCircuit_now (n : Nat) (c : Circuit) : (d.setCircuit n c).now = d.now := rfl
@[simp] theorem Dev.setCircuit_regs (n : Nat) (c : Circuit) : (d.setCircuit n c).regs = d.regs := rfl
@[simp] theorem Dev.setCircuit_shadow (n : Nat) (c : Circuit) : (d.setCircuit n c).shadow = d.shadow := rfl
@[simp] theorem Dev.setCircuit_cpx (n : Nat) (c : Circuit) : (d.setCircuit n c).cpx = d.cpx := rfl
@[simp] theorem Dev.setCircuit_hst (n : Nat) (c : Circuit) : (d.setCircuit n c).hst = d.hst := rfl
@[simp] theorem Dev.setCircuit_tbu (n : Nat) (c : Circuit) : (d.setCircuit n c).tbu = d.tbu := rfl
@[simp] theorem Dev.setCircuit_twn (n : Nat) (c : Circuit) : (d.setCircuit n c).twn = d.twn := rfl
@[simp] theorem Dev.setCircuit_trn (n : Nat) (c : Circuit) : (d.setCircuit n c).trn = d.trn := rfl
@[simp] theorem Dev.setCircuit_lpc (n : Nat) (c : Circuit) : (d.setCircuit n c).lpc = d.lpc := rfl
@[simp] theorem Dev.setCircuit_cal (n : Nat) (c : Circuit) : (d.setCircuit n c).cal = d.cal := rfl
@[simp] theorem Dev.setCircuit_flt (n : Nat) (c : Circuit) : (d.setCircuit n c).flt = d.flt := rfl
@[simp] theorem Dev.setCircuit_ths (n : Nat) (c : Circuit) : (d.setCircuit n c).ths = d.ths := rfl
@[simp] theorem Dev.setCircuit_mem (n : Nat) (c : Circuit) : (d.setCircuit n c).mem = d.mem := rfl
@[simp] theorem Dev.setCircuit_pwm (n : Nat) (c : Circuit) : (d.setCircuit n c).pwm = d.pwm := rfl
@[simp] theorem Dev.setCircuit_cln (n : Nat) (c : Circuit) : (d.setCircuit n c).cln = d.cln := rfl
@[simp] theorem Dev.setCircuit_cmu (n : Nat) (c : Circuit) : (d.setCircuit n c).cmu = d.cmu := rfl
@[simp] theorem Dev.setCircuit_elk (n : Nat) (c : Circuit) : (d.setCircuit n c).elk = d.elk := rfl
@[simp] theorem Dev.setCircuit_plm (n : Nat) (c : Circuit) : (d.setCircuit n c).plm = d.plm := rfl
@[simp] theorem Dev.setCircuit_adc (n : Nat) (c : Circuit) : (d.setCircuit n c).adc = d.adc := rfl
@[simp] theorem Dev.setCircuit_dac (n : Nat) (c : Circuit) : (d.setCircuit n c).dac = d.dac := rfl
@[simp] theorem Dev.setCircuit_free (n : Nat) (c : Circuit) : (d.setCircuit n c).free = d.free := rfl
@[simp] theorem Dev.setCircuit_out (n : Nat) (c : Circuit) : (d.setCircuit n c).out = d.out := rfl
@[simp] theorem Dev.setCircuit_reg (n : Nat) (c : Circuit) (r : Nat) : (d.setCircuit n c).reg r = d.reg r := rfl
@[simp] theorem Dev.setCircuit_fld (n : Nat) (c : Circuit) (g : FieldRef) : (d.setCircuit n c).fld g = d.fld g := rfl
@[simp] theorem Dev.setCircuit_flag (n : Nat) (c : Circuit) (g : FieldRef) : (d.setCircuit n c).flag g = d.flag g := rfl
@[simp] theorem Dev.setCircuit_regN (n : Nat) (c : Circuit) (r : Nat) : (d.setCircuit n c).regN r = d.regN r := rfl

/-! `Dev.setCell` changes `rtp` only. -/

@[simp] theorem Dev.setCell_now (c : Nat) (x : Bool) : (d.setCell c x).now = d.now := rfl
@[simp] theorem Dev.setCell_regs (c : Nat) (x : Bool) : (d.setCell c x).regs = d.regs := rfl
@[simp] theorem Dev.setCell_shadow (c : Nat) (x : Bool) : (d.setCell c x).shadow = d.shadow := rfl
@[simp] theorem Dev.setCell_cpx (c : Nat) (x : Bool) : (d.setCell c x).cpx = d.cpx := rfl
@[simp] theorem Dev.setCell_hst (c : Nat) (x : Bool) : (d.setCell c x).hst = d.hst := rfl
@[simp] theorem Dev.setCell_tbu (c : Nat) (x : Bool) : (d.setCell c x).tbu = d.tbu := rfl
@[simp] theorem Dev.setCell_twn (c : Nat) (x : Bool) : (d.setCell c x).twn = d.twn := rfl
@[simp] theorem Dev.setCell_trn (c : Nat) (x : Bool) : (d.setCell c x).trn = d.trn := rfl
@[simp] theorem Dev.setCell_lpc (c : Nat) (x : Bool) : (d.setCell c x).lpc = d.lpc := rfl
@[simp] theorem Dev.setCell_cal (c : Nat) (x : Bool) : (d.setCell c x).cal = d.cal := rfl
@[simp] theorem Dev.setCell_flt (c : Nat) (x : Bool) : (d.setCell c x).flt = d.flt := rfl
@[simp] theorem Dev.setCell_ths (c : Nat) (x : Bool) : (d.setCell c x).ths = d.ths := rfl
@[simp] theorem Dev.setCell_mem (c : Nat) (x : Bool) : (d.setCell c x).mem = d.mem := rfl
@[simp] theorem Dev.setCell_pwm (c : Nat) (x : Bool) : (d.setCell c x).pwm = d.pwm := rfl
@[simp] theorem Dev.setCell_cln (c : Nat) (x : Bool) : (d.setCell c x).cln = d.cln := rfl
@[simp] theorem Dev.setCell_cmu (c : Nat) (x : Bool) : (d.setCell c x).cmu = d.cmu := rfl
@[simp] theorem Dev.setCell_elk (c : Nat) (x : Bool) : (d.setCell c x).elk = d.elk := rfl
@[simp] theorem Dev.setCell_plm (c : Nat) (x : Bool) : (d.setCell c x).plm = d.plm := rfl
@[simp] theorem Dev.setCell_adc (c : Nat) (x : Bool) : (d.setCell c x).adc = d.adc := rfl
@[simp] theorem Dev.setCell_dac (c : Nat) (x : Bool) : (d.setCell c x).dac = d.dac := rfl
@[simp] theorem Dev.setCell_free (c : Nat) (x : Bool) : (d.setCell c x).free = d.free := rfl
@[simp] theorem Dev.setCell_out (c : Nat) (x : Bool) : (d.setCell c x).out = d.out := rfl
@[simp] theorem Dev.setCell_reg (c : Nat) (x : Bool) (r : Nat) : (d.setCell c x).reg r = d.reg r := rfl
@[simp] theorem Dev.setCell_fld (c : Nat) (x : Bool) (g : FieldRef) : (d.setCell c x).fld g = d.fld g := rfl
@[simp] theorem Dev.setCell_flag (c : Nat) (x : Bool) (g : FieldRef) : (d.setCell c x).flag g = d.flag g := rfl
@[simp] theorem Dev.setCell_regN (c : Nat) (x : Bool) (r : Nat) : (d.setCell c x).regN r = d.regN r := rfl

/-! `Dev.setMove` changes `rtp` only. -/

@[simp] theorem Dev.setMove_now (m : Move) : (d.setMove m).now = d.now := rfl
@[simp] theorem Dev.setMove_regs (m : Move) : (d.setMove m).regs = d.regs := rfl
@[simp] theorem Dev.setMove_shadow (m : Move) : (d.setMove m).shadow = d.shadow := rfl
@[simp] theorem Dev.setMove_cpx (m : Move) : (d.setMove m).cpx = d.cpx := rfl
@[simp] theorem Dev.setMove_hst (m : Move) : (d.setMove m).hst = d.hst := rfl
@[simp] theorem Dev.setMove_tbu (m : Move) : (d.setMove m).tbu = d.tbu := rfl
@[simp] theorem Dev.setMove_twn (m : Move) : (d.setMove m).twn = d.twn := rfl
@[simp] theorem Dev.setMove_trn (m : Move) : (d.setMove m).trn = d.trn := rfl
@[simp] theorem Dev.setMove_lpc (m : Move) : (d.setMove m).lpc = d.lpc := rfl
@[simp] theorem Dev.setMove_cal (m : Move) : (d.setMove m).cal = d.cal := rfl
@[simp] theorem Dev.setMove_flt (m : Move) : (d.setMove m).flt = d.flt := rfl
@[simp] theorem Dev.setMove_ths (m : Move) : (d.setMove m).ths = d.ths := rfl
@[simp] theorem Dev.setMove_mem (m : Move) : (d.setMove m).mem = d.mem := rfl
@[simp] theorem Dev.setMove_pwm (m : Move) : (d.setMove m).pwm = d.pwm := rfl
@[simp] theorem Dev.setMove_cln (m : Move) : (d.setMove m).cln = d.cln := rfl
@[simp] theorem Dev.setMove_cmu (m : Move) : (d.setMove m).cmu = d.cmu := rfl
@[simp] theorem Dev.setMove_elk (m : Move) : (d.setMove m).elk = d.elk := rfl
@[simp] theorem Dev.setMove_plm (m : Move) : (d.setMove m).plm = d.plm := rfl
@[simp] theorem Dev.setMove_adc (m : Move) : (d.setMove m).adc = d.adc := rfl
@[simp] theorem Dev.setMove_dac (m : Move) : (d.setMove m).dac = d.dac := rfl
@[simp] theorem Dev.setMove_free (m : Move) : (d.setMove m).free = d.free := rfl
@[simp] theorem Dev.setMove_out (m : Move) : (d.setMove m).out = d.out := rfl
@[simp] theorem Dev.setMove_reg (m : Move) (r : Nat) : (d.setMove m).reg r = d.reg r := rfl
@[simp] theorem Dev.setMove_fld (m : Move) (g : FieldRef) : (d.setMove m).fld g = d.fld g := rfl
@[simp] theorem Dev.setMove_flag (m : Move) (g : FieldRef) : (d.setMove m).flag g = d.flag g := rfl
@[simp] theorem Dev.setMove_regN (m : Move) (r : Nat) : (d.setMove m).regN r = d.regN r := rfl

/-! `Dev.movePhase` changes `rtp` only. -/

@[simp] theorem Dev.movePhase_now (oid el ph : Nat) (b : Bool) : (d.movePhase oid el ph b).now = d.now := rfl
@[simp] theorem Dev.movePhase_regs (oid el ph : Nat) (b : Bool) : (d.movePhase oid el ph b).regs = d.regs := rfl
@[simp] theorem Dev.movePhase_shadow (oid el ph : Nat) (b : Bool) : (d.movePhase oid el ph b).shadow = d.shadow := rfl
@[simp] theorem Dev.movePhase_cpx (oid el ph : Nat) (b : Bool) : (d.movePhase oid el ph b).cpx = d.cpx := rfl
@[simp] theorem Dev.movePhase_hst (oid el ph : Nat) (b : Bool) : (d.movePhase oid el ph b).hst = d.hst := rfl
@[simp] theorem Dev.movePhase_tbu (oid el ph : Nat) (b : Bool) : (d.movePhase oid el ph b).tbu = d.tbu := rfl
@[simp] theorem Dev.movePhase_twn (oid el ph : Nat) (b : Bool) : (d.movePhase oid el ph b).twn = d.twn := rfl
@[simp] theorem Dev.movePhase_trn (oid el ph : Nat) (b : Bool) : (d.movePhase oid el ph b).trn = d.trn := rfl
@[simp] theorem Dev.movePhase_lpc (oid el ph : Nat) (b : Bool) : (d.movePhase oid el ph b).lpc = d.lpc := rfl
@[simp] theorem Dev.movePhase_cal (oid el ph : Nat) (b : Bool) : (d.movePhase oid el ph b).cal = d.cal := rfl
@[simp] theorem Dev.movePhase_flt (oid el ph : Nat) (b : Bool) : (d.movePhase oid el ph b).flt = d.flt := rfl
@[simp] theorem Dev.movePhase_ths (oid el ph : Nat) (b : Bool) : (d.movePhase oid el ph b).ths = d.ths := rfl
@[simp] theorem Dev.movePhase_mem (oid el ph : Nat) (b : Bool) : (d.movePhase oid el ph b).mem = d.mem := rfl
@[simp] theorem Dev.movePhase_pwm (oid el ph : Nat) (b : Bool) : (d.movePhase oid el ph b).pwm = d.pwm := rfl
@[simp] theorem Dev.movePhase_cln (oid el ph : Nat) (b : Bool) : (d.movePhase oid el ph b).cln = d.cln := rfl
@[simp] theorem Dev.movePhase_cmu (oid el ph : Nat) (b : Bool) : (d.movePhase oid el ph b).cmu = d.cmu := rfl
@[simp] theorem Dev.movePhase_elk (oid el ph : Nat) (b : Bool) : (d.movePhase oid el ph b).elk = d.elk := rfl
@[simp] theorem Dev.movePhase_plm (oid el ph : Nat) (b : Bool) : (d.movePhase oid el ph b).plm = d.plm := rfl
@[simp] theorem Dev.movePhase_adc (oid el ph : Nat) (b : Bool) : (d.movePhase oid el ph b).adc = d.adc := rfl
@[simp] theorem Dev.movePhase_dac (oid el ph : Nat) (b : Bool) : (d.movePhase oid el ph b).dac = d.dac := rfl
@[simp] theorem Dev.movePhase_free (oid el ph : Nat) (b : Bool) : (d.movePhase oid el ph b).free = d.free := rfl
@[simp] theorem Dev.movePhase_out (oid el ph : Nat) (b : Bool) : (d.movePhase oid el ph b).out = d.out := rfl
@[simp] theorem Dev.movePhase_reg (oid el ph : Nat) (b : Bool) (r : Nat) : (d.movePhase oid el ph b).reg r = d.reg r := rfl
@[simp] theorem Dev.movePhase_fld (oid el ph : Nat) (b : Bool) (g : FieldRef) : (d.movePhase oid el ph b).fld g = d.fld g := rfl
@[simp] theorem Dev.movePhase_flag (oid el ph : Nat) (b : Bool) (g : FieldRef) : (d.movePhase oid el ph b).flag g = d.flag g := rfl
@[simp] theorem Dev.movePhase_regN (oid el ph : Nat) (b : Bool) (r : Nat) : (d.movePhase oid el ph b).regN r = d.regN r := rfl

/-! `Dev.setSluice` changes `trn` only. -/

@[simp] theorem Dev.setSluice_now (s : Nat) (x : Sluice) : (d.setSluice s x).now = d.now := rfl
@[simp] theorem Dev.setSluice_regs (s : Nat) (x : Sluice) : (d.setSluice s x).regs = d.regs := rfl
@[simp] theorem Dev.setSluice_shadow (s : Nat) (x : Sluice) : (d.setSluice s x).shadow = d.shadow := rfl
@[simp] theorem Dev.setSluice_cpx (s : Nat) (x : Sluice) : (d.setSluice s x).cpx = d.cpx := rfl
@[simp] theorem Dev.setSluice_hst (s : Nat) (x : Sluice) : (d.setSluice s x).hst = d.hst := rfl
@[simp] theorem Dev.setSluice_tbu (s : Nat) (x : Sluice) : (d.setSluice s x).tbu = d.tbu := rfl
@[simp] theorem Dev.setSluice_twn (s : Nat) (x : Sluice) : (d.setSluice s x).twn = d.twn := rfl
@[simp] theorem Dev.setSluice_rtp (s : Nat) (x : Sluice) : (d.setSluice s x).rtp = d.rtp := rfl
@[simp] theorem Dev.setSluice_lpc (s : Nat) (x : Sluice) : (d.setSluice s x).lpc = d.lpc := rfl
@[simp] theorem Dev.setSluice_cal (s : Nat) (x : Sluice) : (d.setSluice s x).cal = d.cal := rfl
@[simp] theorem Dev.setSluice_flt (s : Nat) (x : Sluice) : (d.setSluice s x).flt = d.flt := rfl
@[simp] theorem Dev.setSluice_ths (s : Nat) (x : Sluice) : (d.setSluice s x).ths = d.ths := rfl
@[simp] theorem Dev.setSluice_mem (s : Nat) (x : Sluice) : (d.setSluice s x).mem = d.mem := rfl
@[simp] theorem Dev.setSluice_pwm (s : Nat) (x : Sluice) : (d.setSluice s x).pwm = d.pwm := rfl
@[simp] theorem Dev.setSluice_cln (s : Nat) (x : Sluice) : (d.setSluice s x).cln = d.cln := rfl
@[simp] theorem Dev.setSluice_cmu (s : Nat) (x : Sluice) : (d.setSluice s x).cmu = d.cmu := rfl
@[simp] theorem Dev.setSluice_elk (s : Nat) (x : Sluice) : (d.setSluice s x).elk = d.elk := rfl
@[simp] theorem Dev.setSluice_plm (s : Nat) (x : Sluice) : (d.setSluice s x).plm = d.plm := rfl
@[simp] theorem Dev.setSluice_adc (s : Nat) (x : Sluice) : (d.setSluice s x).adc = d.adc := rfl
@[simp] theorem Dev.setSluice_dac (s : Nat) (x : Sluice) : (d.setSluice s x).dac = d.dac := rfl
@[simp] theorem Dev.setSluice_free (s : Nat) (x : Sluice) : (d.setSluice s x).free = d.free := rfl
@[simp] theorem Dev.setSluice_out (s : Nat) (x : Sluice) : (d.setSluice s x).out = d.out := rfl
@[simp] theorem Dev.setSluice_reg (s : Nat) (x : Sluice) (r : Nat) : (d.setSluice s x).reg r = d.reg r := rfl
@[simp] theorem Dev.setSluice_fld (s : Nat) (x : Sluice) (g : FieldRef) : (d.setSluice s x).fld g = d.fld g := rfl
@[simp] theorem Dev.setSluice_flag (s : Nat) (x : Sluice) (g : FieldRef) : (d.setSluice s x).flag g = d.flag g := rfl
@[simp] theorem Dev.setSluice_regN (s : Nat) (x : Sluice) (r : Nat) : (d.setSluice s x).regN r = d.regN r := rfl

/-! `Dev.setLoop` changes `lpc` only. -/

@[simp] theorem Dev.setLoop_now (e : Nat) (x : Loop) : (d.setLoop e x).now = d.now := rfl
@[simp] theorem Dev.setLoop_regs (e : Nat) (x : Loop) : (d.setLoop e x).regs = d.regs := rfl
@[simp] theorem Dev.setLoop_shadow (e : Nat) (x : Loop) : (d.setLoop e x).shadow = d.shadow := rfl
@[simp] theorem Dev.setLoop_cpx (e : Nat) (x : Loop) : (d.setLoop e x).cpx = d.cpx := rfl
@[simp] theorem Dev.setLoop_hst (e : Nat) (x : Loop) : (d.setLoop e x).hst = d.hst := rfl
@[simp] theorem Dev.setLoop_tbu (e : Nat) (x : Loop) : (d.setLoop e x).tbu = d.tbu := rfl
@[simp] theorem Dev.setLoop_twn (e : Nat) (x : Loop) : (d.setLoop e x).twn = d.twn := rfl
@[simp] theorem Dev.setLoop_rtp (e : Nat) (x : Loop) : (d.setLoop e x).rtp = d.rtp := rfl
@[simp] theorem Dev.setLoop_trn (e : Nat) (x : Loop) : (d.setLoop e x).trn = d.trn := rfl
@[simp] theorem Dev.setLoop_cal (e : Nat) (x : Loop) : (d.setLoop e x).cal = d.cal := rfl
@[simp] theorem Dev.setLoop_flt (e : Nat) (x : Loop) : (d.setLoop e x).flt = d.flt := rfl
@[simp] theorem Dev.setLoop_ths (e : Nat) (x : Loop) : (d.setLoop e x).ths = d.ths := rfl
@[simp] theorem Dev.setLoop_mem (e : Nat) (x : Loop) : (d.setLoop e x).mem = d.mem := rfl
@[simp] theorem Dev.setLoop_pwm (e : Nat) (x : Loop) : (d.setLoop e x).pwm = d.pwm := rfl
@[simp] theorem Dev.setLoop_cln (e : Nat) (x : Loop) : (d.setLoop e x).cln = d.cln := rfl
@[simp] theorem Dev.setLoop_cmu (e : Nat) (x : Loop) : (d.setLoop e x).cmu = d.cmu := rfl
@[simp] theorem Dev.setLoop_elk (e : Nat) (x : Loop) : (d.setLoop e x).elk = d.elk := rfl
@[simp] theorem Dev.setLoop_plm (e : Nat) (x : Loop) : (d.setLoop e x).plm = d.plm := rfl
@[simp] theorem Dev.setLoop_adc (e : Nat) (x : Loop) : (d.setLoop e x).adc = d.adc := rfl
@[simp] theorem Dev.setLoop_dac (e : Nat) (x : Loop) : (d.setLoop e x).dac = d.dac := rfl
@[simp] theorem Dev.setLoop_free (e : Nat) (x : Loop) : (d.setLoop e x).free = d.free := rfl
@[simp] theorem Dev.setLoop_out (e : Nat) (x : Loop) : (d.setLoop e x).out = d.out := rfl
@[simp] theorem Dev.setLoop_reg (e : Nat) (x : Loop) (r : Nat) : (d.setLoop e x).reg r = d.reg r := rfl
@[simp] theorem Dev.setLoop_fld (e : Nat) (x : Loop) (g : FieldRef) : (d.setLoop e x).fld g = d.fld g := rfl
@[simp] theorem Dev.setLoop_flag (e : Nat) (x : Loop) (g : FieldRef) : (d.setLoop e x).flag g = d.flag g := rfl
@[simp] theorem Dev.setLoop_regN (e : Nat) (x : Loop) (r : Nat) : (d.setLoop e x).regN r = d.regN r := rfl

/-! `Dev.setBlocks` changes `lpc` only. -/

@[simp] theorem Dev.setBlocks_now (e : Nat) (l : List LpcBlock) : (d.setBlocks e l).now = d.now := rfl
@[simp] theorem Dev.setBlocks_regs (e : Nat) (l : List LpcBlock) : (d.setBlocks e l).regs = d.regs := rfl
@[simp] theorem Dev.setBlocks_shadow (e : Nat) (l : List LpcBlock) : (d.setBlocks e l).shadow = d.shadow := rfl
@[simp] theorem Dev.setBlocks_cpx (e : Nat) (l : List LpcBlock) : (d.setBlocks e l).cpx = d.cpx := rfl
@[simp] theorem Dev.setBlocks_hst (e : Nat) (l : List LpcBlock) : (d.setBlocks e l).hst = d.hst := rfl
@[simp] theorem Dev.setBlocks_tbu (e : Nat) (l : List LpcBlock) : (d.setBlocks e l).tbu = d.tbu := rfl
@[simp] theorem Dev.setBlocks_twn (e : Nat) (l : List LpcBlock) : (d.setBlocks e l).twn = d.twn := rfl
@[simp] theorem Dev.setBlocks_rtp (e : Nat) (l : List LpcBlock) : (d.setBlocks e l).rtp = d.rtp := rfl
@[simp] theorem Dev.setBlocks_trn (e : Nat) (l : List LpcBlock) : (d.setBlocks e l).trn = d.trn := rfl
@[simp] theorem Dev.setBlocks_cal (e : Nat) (l : List LpcBlock) : (d.setBlocks e l).cal = d.cal := rfl
@[simp] theorem Dev.setBlocks_flt (e : Nat) (l : List LpcBlock) : (d.setBlocks e l).flt = d.flt := rfl
@[simp] theorem Dev.setBlocks_ths (e : Nat) (l : List LpcBlock) : (d.setBlocks e l).ths = d.ths := rfl
@[simp] theorem Dev.setBlocks_mem (e : Nat) (l : List LpcBlock) : (d.setBlocks e l).mem = d.mem := rfl
@[simp] theorem Dev.setBlocks_pwm (e : Nat) (l : List LpcBlock) : (d.setBlocks e l).pwm = d.pwm := rfl
@[simp] theorem Dev.setBlocks_cln (e : Nat) (l : List LpcBlock) : (d.setBlocks e l).cln = d.cln := rfl
@[simp] theorem Dev.setBlocks_cmu (e : Nat) (l : List LpcBlock) : (d.setBlocks e l).cmu = d.cmu := rfl
@[simp] theorem Dev.setBlocks_elk (e : Nat) (l : List LpcBlock) : (d.setBlocks e l).elk = d.elk := rfl
@[simp] theorem Dev.setBlocks_plm (e : Nat) (l : List LpcBlock) : (d.setBlocks e l).plm = d.plm := rfl
@[simp] theorem Dev.setBlocks_adc (e : Nat) (l : List LpcBlock) : (d.setBlocks e l).adc = d.adc := rfl
@[simp] theorem Dev.setBlocks_dac (e : Nat) (l : List LpcBlock) : (d.setBlocks e l).dac = d.dac := rfl
@[simp] theorem Dev.setBlocks_free (e : Nat) (l : List LpcBlock) : (d.setBlocks e l).free = d.free := rfl
@[simp] theorem Dev.setBlocks_out (e : Nat) (l : List LpcBlock) : (d.setBlocks e l).out = d.out := rfl
@[simp] theorem Dev.setBlocks_reg (e : Nat) (l : List LpcBlock) (r : Nat) : (d.setBlocks e l).reg r = d.reg r := rfl
@[simp] theorem Dev.setBlocks_fld (e : Nat) (l : List LpcBlock) (g : FieldRef) : (d.setBlocks e l).fld g = d.fld g := rfl
@[simp] theorem Dev.setBlocks_flag (e : Nat) (l : List LpcBlock) (g : FieldRef) : (d.setBlocks e l).flag g = d.flag g := rfl
@[simp] theorem Dev.setBlocks_regN (e : Nat) (l : List LpcBlock) (r : Nat) : (d.setBlocks e l).regN r = d.regN r := rfl

/-! `Dev.setElink` changes `elk` only. -/

@[simp] theorem Dev.setElink_now (l : Nat) (x : Link) : (d.setElink l x).now = d.now := rfl
@[simp] theorem Dev.setElink_regs (l : Nat) (x : Link) : (d.setElink l x).regs = d.regs := rfl
@[simp] theorem Dev.setElink_shadow (l : Nat) (x : Link) : (d.setElink l x).shadow = d.shadow := rfl
@[simp] theorem Dev.setElink_cpx (l : Nat) (x : Link) : (d.setElink l x).cpx = d.cpx := rfl
@[simp] theorem Dev.setElink_hst (l : Nat) (x : Link) : (d.setElink l x).hst = d.hst := rfl
@[simp] theorem Dev.setElink_tbu (l : Nat) (x : Link) : (d.setElink l x).tbu = d.tbu := rfl
@[simp] theorem Dev.setElink_twn (l : Nat) (x : Link) : (d.setElink l x).twn = d.twn := rfl
@[simp] theorem Dev.setElink_rtp (l : Nat) (x : Link) : (d.setElink l x).rtp = d.rtp := rfl
@[simp] theorem Dev.setElink_trn (l : Nat) (x : Link) : (d.setElink l x).trn = d.trn := rfl
@[simp] theorem Dev.setElink_lpc (l : Nat) (x : Link) : (d.setElink l x).lpc = d.lpc := rfl
@[simp] theorem Dev.setElink_cal (l : Nat) (x : Link) : (d.setElink l x).cal = d.cal := rfl
@[simp] theorem Dev.setElink_flt (l : Nat) (x : Link) : (d.setElink l x).flt = d.flt := rfl
@[simp] theorem Dev.setElink_ths (l : Nat) (x : Link) : (d.setElink l x).ths = d.ths := rfl
@[simp] theorem Dev.setElink_mem (l : Nat) (x : Link) : (d.setElink l x).mem = d.mem := rfl
@[simp] theorem Dev.setElink_pwm (l : Nat) (x : Link) : (d.setElink l x).pwm = d.pwm := rfl
@[simp] theorem Dev.setElink_cln (l : Nat) (x : Link) : (d.setElink l x).cln = d.cln := rfl
@[simp] theorem Dev.setElink_cmu (l : Nat) (x : Link) : (d.setElink l x).cmu = d.cmu := rfl
@[simp] theorem Dev.setElink_plm (l : Nat) (x : Link) : (d.setElink l x).plm = d.plm := rfl
@[simp] theorem Dev.setElink_adc (l : Nat) (x : Link) : (d.setElink l x).adc = d.adc := rfl
@[simp] theorem Dev.setElink_dac (l : Nat) (x : Link) : (d.setElink l x).dac = d.dac := rfl
@[simp] theorem Dev.setElink_free (l : Nat) (x : Link) : (d.setElink l x).free = d.free := rfl
@[simp] theorem Dev.setElink_out (l : Nat) (x : Link) : (d.setElink l x).out = d.out := rfl
@[simp] theorem Dev.setElink_reg (l : Nat) (x : Link) (r : Nat) : (d.setElink l x).reg r = d.reg r := rfl
@[simp] theorem Dev.setElink_fld (l : Nat) (x : Link) (g : FieldRef) : (d.setElink l x).fld g = d.fld g := rfl
@[simp] theorem Dev.setElink_flag (l : Nat) (x : Link) (g : FieldRef) : (d.setElink l x).flag g = d.flag g := rfl
@[simp] theorem Dev.setElink_regN (l : Nat) (x : Link) (r : Nat) : (d.setElink l x).regN r = d.regN r := rfl

/-! `Dev.setLeg` changes `pwm` only. -/

@[simp] theorem Dev.setLeg_now (l : Nat) (x : Leg) : (d.setLeg l x).now = d.now := rfl
@[simp] theorem Dev.setLeg_regs (l : Nat) (x : Leg) : (d.setLeg l x).regs = d.regs := rfl
@[simp] theorem Dev.setLeg_shadow (l : Nat) (x : Leg) : (d.setLeg l x).shadow = d.shadow := rfl
@[simp] theorem Dev.setLeg_cpx (l : Nat) (x : Leg) : (d.setLeg l x).cpx = d.cpx := rfl
@[simp] theorem Dev.setLeg_hst (l : Nat) (x : Leg) : (d.setLeg l x).hst = d.hst := rfl
@[simp] theorem Dev.setLeg_tbu (l : Nat) (x : Leg) : (d.setLeg l x).tbu = d.tbu := rfl
@[simp] theorem Dev.setLeg_twn (l : Nat) (x : Leg) : (d.setLeg l x).twn = d.twn := rfl
@[simp] theorem Dev.setLeg_rtp (l : Nat) (x : Leg) : (d.setLeg l x).rtp = d.rtp := rfl
@[simp] theorem Dev.setLeg_trn (l : Nat) (x : Leg) : (d.setLeg l x).trn = d.trn := rfl
@[simp] theorem Dev.setLeg_lpc (l : Nat) (x : Leg) : (d.setLeg l x).lpc = d.lpc := rfl
@[simp] theorem Dev.setLeg_cal (l : Nat) (x : Leg) : (d.setLeg l x).cal = d.cal := rfl
@[simp] theorem Dev.setLeg_flt (l : Nat) (x : Leg) : (d.setLeg l x).flt = d.flt := rfl
@[simp] theorem Dev.setLeg_ths (l : Nat) (x : Leg) : (d.setLeg l x).ths = d.ths := rfl
@[simp] theorem Dev.setLeg_mem (l : Nat) (x : Leg) : (d.setLeg l x).mem = d.mem := rfl
@[simp] theorem Dev.setLeg_cln (l : Nat) (x : Leg) : (d.setLeg l x).cln = d.cln := rfl
@[simp] theorem Dev.setLeg_cmu (l : Nat) (x : Leg) : (d.setLeg l x).cmu = d.cmu := rfl
@[simp] theorem Dev.setLeg_elk (l : Nat) (x : Leg) : (d.setLeg l x).elk = d.elk := rfl
@[simp] theorem Dev.setLeg_plm (l : Nat) (x : Leg) : (d.setLeg l x).plm = d.plm := rfl
@[simp] theorem Dev.setLeg_adc (l : Nat) (x : Leg) : (d.setLeg l x).adc = d.adc := rfl
@[simp] theorem Dev.setLeg_dac (l : Nat) (x : Leg) : (d.setLeg l x).dac = d.dac := rfl
@[simp] theorem Dev.setLeg_free (l : Nat) (x : Leg) : (d.setLeg l x).free = d.free := rfl
@[simp] theorem Dev.setLeg_out (l : Nat) (x : Leg) : (d.setLeg l x).out = d.out := rfl
@[simp] theorem Dev.setLeg_reg (l : Nat) (x : Leg) (r : Nat) : (d.setLeg l x).reg r = d.reg r := rfl
@[simp] theorem Dev.setLeg_fld (l : Nat) (x : Leg) (g : FieldRef) : (d.setLeg l x).fld g = d.fld g := rfl
@[simp] theorem Dev.setLeg_flag (l : Nat) (x : Leg) (g : FieldRef) : (d.setLeg l x).flag g = d.flag g := rfl
@[simp] theorem Dev.setLeg_regN (l : Nat) (x : Leg) (r : Nat) : (d.setLeg l x).regN r = d.regN r := rfl

/-! `Dev.setCellNode` changes `cln` only. -/

@[simp] theorem Dev.setCellNode_now (n : Nat) (x : CellNode) : (d.setCellNode n x).now = d.now := rfl
@[simp] theorem Dev.setCellNode_regs (n : Nat) (x : CellNode) : (d.setCellNode n x).regs = d.regs := rfl
@[simp] theorem Dev.setCellNode_shadow (n : Nat) (x : CellNode) : (d.setCellNode n x).shadow = d.shadow := rfl
@[simp] theorem Dev.setCellNode_cpx (n : Nat) (x : CellNode) : (d.setCellNode n x).cpx = d.cpx := rfl
@[simp] theorem Dev.setCellNode_hst (n : Nat) (x : CellNode) : (d.setCellNode n x).hst = d.hst := rfl
@[simp] theorem Dev.setCellNode_tbu (n : Nat) (x : CellNode) : (d.setCellNode n x).tbu = d.tbu := rfl
@[simp] theorem Dev.setCellNode_twn (n : Nat) (x : CellNode) : (d.setCellNode n x).twn = d.twn := rfl
@[simp] theorem Dev.setCellNode_rtp (n : Nat) (x : CellNode) : (d.setCellNode n x).rtp = d.rtp := rfl
@[simp] theorem Dev.setCellNode_trn (n : Nat) (x : CellNode) : (d.setCellNode n x).trn = d.trn := rfl
@[simp] theorem Dev.setCellNode_lpc (n : Nat) (x : CellNode) : (d.setCellNode n x).lpc = d.lpc := rfl
@[simp] theorem Dev.setCellNode_cal (n : Nat) (x : CellNode) : (d.setCellNode n x).cal = d.cal := rfl
@[simp] theorem Dev.setCellNode_flt (n : Nat) (x : CellNode) : (d.setCellNode n x).flt = d.flt := rfl
@[simp] theorem Dev.setCellNode_ths (n : Nat) (x : CellNode) : (d.setCellNode n x).ths = d.ths := rfl
@[simp] theorem Dev.setCellNode_mem (n : Nat) (x : CellNode) : (d.setCellNode n x).mem = d.mem := rfl
@[simp] theorem Dev.setCellNode_pwm (n : Nat) (x : CellNode) : (d.setCellNode n x).pwm = d.pwm := rfl
@[simp] theorem Dev.setCellNode_cmu (n : Nat) (x : CellNode) : (d.setCellNode n x).cmu = d.cmu := rfl
@[simp] theorem Dev.setCellNode_elk (n : Nat) (x : CellNode) : (d.setCellNode n x).elk = d.elk := rfl
@[simp] theorem Dev.setCellNode_plm (n : Nat) (x : CellNode) : (d.setCellNode n x).plm = d.plm := rfl
@[simp] theorem Dev.setCellNode_adc (n : Nat) (x : CellNode) : (d.setCellNode n x).adc = d.adc := rfl
@[simp] theorem Dev.setCellNode_dac (n : Nat) (x : CellNode) : (d.setCellNode n x).dac = d.dac := rfl
@[simp] theorem Dev.setCellNode_free (n : Nat) (x : CellNode) : (d.setCellNode n x).free = d.free := rfl
@[simp] theorem Dev.setCellNode_out (n : Nat) (x : CellNode) : (d.setCellNode n x).out = d.out := rfl
@[simp] theorem Dev.setCellNode_reg (n : Nat) (x : CellNode) (r : Nat) : (d.setCellNode n x).reg r = d.reg r := rfl
@[simp] theorem Dev.setCellNode_fld (n : Nat) (x : CellNode) (g : FieldRef) : (d.setCellNode n x).fld g = d.fld g := rfl
@[simp] theorem Dev.setCellNode_flag (n : Nat) (x : CellNode) (g : FieldRef) : (d.setCellNode n x).flag g = d.flag g := rfl
@[simp] theorem Dev.setCellNode_regN (n : Nat) (x : CellNode) (r : Nat) : (d.setCellNode n x).regN r = d.regN r := rfl

/-! `Dev.setChain` changes `cln` only. -/

@[simp] theorem Dev.setChain_now (c : Nat) (x : Chain) : (d.setChain c x).now = d.now := rfl
@[simp] theorem Dev.setChain_regs (c : Nat) (x : Chain) : (d.setChain c x).regs = d.regs := rfl
@[simp] theorem Dev.setChain_shadow (c : Nat) (x : Chain) : (d.setChain c x).shadow = d.shadow := rfl
@[simp] theorem Dev.setChain_cpx (c : Nat) (x : Chain) : (d.setChain c x).cpx = d.cpx := rfl
@[simp] theorem Dev.setChain_hst (c : Nat) (x : Chain) : (d.setChain c x).hst = d.hst := rfl
@[simp] theorem Dev.setChain_tbu (c : Nat) (x : Chain) : (d.setChain c x).tbu = d.tbu := rfl
@[simp] theorem Dev.setChain_twn (c : Nat) (x : Chain) : (d.setChain c x).twn = d.twn := rfl
@[simp] theorem Dev.setChain_rtp (c : Nat) (x : Chain) : (d.setChain c x).rtp = d.rtp := rfl
@[simp] theorem Dev.setChain_trn (c : Nat) (x : Chain) : (d.setChain c x).trn = d.trn := rfl
@[simp] theorem Dev.setChain_lpc (c : Nat) (x : Chain) : (d.setChain c x).lpc = d.lpc := rfl
@[simp] theorem Dev.setChain_cal (c : Nat) (x : Chain) : (d.setChain c x).cal = d.cal := rfl
@[simp] theorem Dev.setChain_flt (c : Nat) (x : Chain) : (d.setChain c x).flt = d.flt := rfl
@[simp] theorem Dev.setChain_ths (c : Nat) (x : Chain) : (d.setChain c x).ths = d.ths := rfl
@[simp] theorem Dev.setChain_mem (c : Nat) (x : Chain) : (d.setChain c x).mem = d.mem := rfl
@[simp] theorem Dev.setChain_pwm (c : Nat) (x : Chain) : (d.setChain c x).pwm = d.pwm := rfl
@[simp] theorem Dev.setChain_cmu (c : Nat) (x : Chain) : (d.setChain c x).cmu = d.cmu := rfl
@[simp] theorem Dev.setChain_elk (c : Nat) (x : Chain) : (d.setChain c x).elk = d.elk := rfl
@[simp] theorem Dev.setChain_plm (c : Nat) (x : Chain) : (d.setChain c x).plm = d.plm := rfl
@[simp] theorem Dev.setChain_adc (c : Nat) (x : Chain) : (d.setChain c x).adc = d.adc := rfl
@[simp] theorem Dev.setChain_dac (c : Nat) (x : Chain) : (d.setChain c x).dac = d.dac := rfl
@[simp] theorem Dev.setChain_free (c : Nat) (x : Chain) : (d.setChain c x).free = d.free := rfl
@[simp] theorem Dev.setChain_out (c : Nat) (x : Chain) : (d.setChain c x).out = d.out := rfl
@[simp] theorem Dev.setChain_reg (c : Nat) (x : Chain) (r : Nat) : (d.setChain c x).reg r = d.reg r := rfl
@[simp] theorem Dev.setChain_fld (c : Nat) (x : Chain) (g : FieldRef) : (d.setChain c x).fld g = d.fld g := rfl
@[simp] theorem Dev.setChain_flag (c : Nat) (x : Chain) (g : FieldRef) : (d.setChain c x).flag g = d.flag g := rfl
@[simp] theorem Dev.setChain_regN (c : Nat) (x : Chain) (r : Nat) : (d.setChain c x).regN r = d.regN r := rfl

/-! `Dev.setLane` changes `cmu` only. -/

@[simp] theorem Dev.setLane_now (k : Nat) (x : PowerLane) : (d.setLane k x).now = d.now := rfl
@[simp] theorem Dev.setLane_regs (k : Nat) (x : PowerLane) : (d.setLane k x).regs = d.regs := rfl
@[simp] theorem Dev.setLane_shadow (k : Nat) (x : PowerLane) : (d.setLane k x).shadow = d.shadow := rfl
@[simp] theorem Dev.setLane_cpx (k : Nat) (x : PowerLane) : (d.setLane k x).cpx = d.cpx := rfl
@[simp] theorem Dev.setLane_hst (k : Nat) (x : PowerLane) : (d.setLane k x).hst = d.hst := rfl
@[simp] theorem Dev.setLane_tbu (k : Nat) (x : PowerLane) : (d.setLane k x).tbu = d.tbu := rfl
@[simp] theorem Dev.setLane_twn (k : Nat) (x : PowerLane) : (d.setLane k x).twn = d.twn := rfl
@[simp] theorem Dev.setLane_rtp (k : Nat) (x : PowerLane) : (d.setLane k x).rtp = d.rtp := rfl
@[simp] theorem Dev.setLane_trn (k : Nat) (x : PowerLane) : (d.setLane k x).trn = d.trn := rfl
@[simp] theorem Dev.setLane_lpc (k : Nat) (x : PowerLane) : (d.setLane k x).lpc = d.lpc := rfl
@[simp] theorem Dev.setLane_cal (k : Nat) (x : PowerLane) : (d.setLane k x).cal = d.cal := rfl
@[simp] theorem Dev.setLane_flt (k : Nat) (x : PowerLane) : (d.setLane k x).flt = d.flt := rfl
@[simp] theorem Dev.setLane_ths (k : Nat) (x : PowerLane) : (d.setLane k x).ths = d.ths := rfl
@[simp] theorem Dev.setLane_mem (k : Nat) (x : PowerLane) : (d.setLane k x).mem = d.mem := rfl
@[simp] theorem Dev.setLane_pwm (k : Nat) (x : PowerLane) : (d.setLane k x).pwm = d.pwm := rfl
@[simp] theorem Dev.setLane_cln (k : Nat) (x : PowerLane) : (d.setLane k x).cln = d.cln := rfl
@[simp] theorem Dev.setLane_elk (k : Nat) (x : PowerLane) : (d.setLane k x).elk = d.elk := rfl
@[simp] theorem Dev.setLane_plm (k : Nat) (x : PowerLane) : (d.setLane k x).plm = d.plm := rfl
@[simp] theorem Dev.setLane_adc (k : Nat) (x : PowerLane) : (d.setLane k x).adc = d.adc := rfl
@[simp] theorem Dev.setLane_dac (k : Nat) (x : PowerLane) : (d.setLane k x).dac = d.dac := rfl
@[simp] theorem Dev.setLane_free (k : Nat) (x : PowerLane) : (d.setLane k x).free = d.free := rfl
@[simp] theorem Dev.setLane_out (k : Nat) (x : PowerLane) : (d.setLane k x).out = d.out := rfl
@[simp] theorem Dev.setLane_reg (k : Nat) (x : PowerLane) (r : Nat) : (d.setLane k x).reg r = d.reg r := rfl
@[simp] theorem Dev.setLane_fld (k : Nat) (x : PowerLane) (g : FieldRef) : (d.setLane k x).fld g = d.fld g := rfl
@[simp] theorem Dev.setLane_flag (k : Nat) (x : PowerLane) (g : FieldRef) : (d.setLane k x).flag g = d.flag g := rfl
@[simp] theorem Dev.setLane_regN (k : Nat) (x : PowerLane) (r : Nat) : (d.setLane k x).regN r = d.regN r := rfl

/-! `Dev.setPair` changes `adc` only. -/

@[simp] theorem Dev.setPair_now (p : Nat) (x : AdcPair) : (d.setPair p x).now = d.now := rfl
@[simp] theorem Dev.setPair_regs (p : Nat) (x : AdcPair) : (d.setPair p x).regs = d.regs := rfl
@[simp] theorem Dev.setPair_shadow (p : Nat) (x : AdcPair) : (d.setPair p x).shadow = d.shadow := rfl
@[simp] theorem Dev.setPair_cpx (p : Nat) (x : AdcPair) : (d.setPair p x).cpx = d.cpx := rfl
@[simp] theorem Dev.setPair_hst (p : Nat) (x : AdcPair) : (d.setPair p x).hst = d.hst := rfl
@[simp] theorem Dev.setPair_tbu (p : Nat) (x : AdcPair) : (d.setPair p x).tbu = d.tbu := rfl
@[simp] theorem Dev.setPair_twn (p : Nat) (x : AdcPair) : (d.setPair p x).twn = d.twn := rfl
@[simp] theorem Dev.setPair_rtp (p : Nat) (x : AdcPair) : (d.setPair p x).rtp = d.rtp := rfl
@[simp] theorem Dev.setPair_trn (p : Nat) (x : AdcPair) : (d.setPair p x).trn = d.trn := rfl
@[simp] theorem Dev.setPair_lpc (p : Nat) (x : AdcPair) : (d.setPair p x).lpc = d.lpc := rfl
@[simp] theorem Dev.setPair_cal (p : Nat) (x : AdcPair) : (d.setPair p x).cal = d.cal := rfl
@[simp] theorem Dev.setPair_flt (p : Nat) (x : AdcPair) : (d.setPair p x).flt = d.flt := rfl
@[simp] theorem Dev.setPair_ths (p : Nat) (x : AdcPair) : (d.setPair p x).ths = d.ths := rfl
@[simp] theorem Dev.setPair_mem (p : Nat) (x : AdcPair) : (d.setPair p x).mem = d.mem := rfl
@[simp] theorem Dev.setPair_pwm (p : Nat) (x : AdcPair) : (d.setPair p x).pwm = d.pwm := rfl
@[simp] theorem Dev.setPair_cln (p : Nat) (x : AdcPair) : (d.setPair p x).cln = d.cln := rfl
@[simp] theorem Dev.setPair_cmu (p : Nat) (x : AdcPair) : (d.setPair p x).cmu = d.cmu := rfl
@[simp] theorem Dev.setPair_elk (p : Nat) (x : AdcPair) : (d.setPair p x).elk = d.elk := rfl
@[simp] theorem Dev.setPair_plm (p : Nat) (x : AdcPair) : (d.setPair p x).plm = d.plm := rfl
@[simp] theorem Dev.setPair_dac (p : Nat) (x : AdcPair) : (d.setPair p x).dac = d.dac := rfl
@[simp] theorem Dev.setPair_free (p : Nat) (x : AdcPair) : (d.setPair p x).free = d.free := rfl
@[simp] theorem Dev.setPair_out (p : Nat) (x : AdcPair) : (d.setPair p x).out = d.out := rfl
@[simp] theorem Dev.setPair_reg (p : Nat) (x : AdcPair) (r : Nat) : (d.setPair p x).reg r = d.reg r := rfl
@[simp] theorem Dev.setPair_fld (p : Nat) (x : AdcPair) (g : FieldRef) : (d.setPair p x).fld g = d.fld g := rfl
@[simp] theorem Dev.setPair_flag (p : Nat) (x : AdcPair) (g : FieldRef) : (d.setPair p x).flag g = d.flag g := rfl
@[simp] theorem Dev.setPair_regN (p : Nat) (x : AdcPair) (r : Nat) : (d.setPair p x).regN r = d.regN r := rfl

/-! `Dev.setDac` changes `dac` and `regs` only. -/

@[simp] theorem Dev.setDac_now (c : Nat) (x : DacCh) : (d.setDac c x).now = d.now := rfl
@[simp] theorem Dev.setDac_shadow (c : Nat) (x : DacCh) : (d.setDac c x).shadow = d.shadow := rfl
@[simp] theorem Dev.setDac_cpx (c : Nat) (x : DacCh) : (d.setDac c x).cpx = d.cpx := rfl
@[simp] theorem Dev.setDac_hst (c : Nat) (x : DacCh) : (d.setDac c x).hst = d.hst := rfl
@[simp] theorem Dev.setDac_tbu (c : Nat) (x : DacCh) : (d.setDac c x).tbu = d.tbu := rfl
@[simp] theorem Dev.setDac_twn (c : Nat) (x : DacCh) : (d.setDac c x).twn = d.twn := rfl
@[simp] theorem Dev.setDac_rtp (c : Nat) (x : DacCh) : (d.setDac c x).rtp = d.rtp := rfl
@[simp] theorem Dev.setDac_trn (c : Nat) (x : DacCh) : (d.setDac c x).trn = d.trn := rfl
@[simp] theorem Dev.setDac_lpc (c : Nat) (x : DacCh) : (d.setDac c x).lpc = d.lpc := rfl
@[simp] theorem Dev.setDac_cal (c : Nat) (x : DacCh) : (d.setDac c x).cal = d.cal := rfl
@[simp] theorem Dev.setDac_flt (c : Nat) (x : DacCh) : (d.setDac c x).flt = d.flt := rfl
@[simp] theorem Dev.setDac_ths (c : Nat) (x : DacCh) : (d.setDac c x).ths = d.ths := rfl
@[simp] theorem Dev.setDac_mem (c : Nat) (x : DacCh) : (d.setDac c x).mem = d.mem := rfl
@[simp] theorem Dev.setDac_pwm (c : Nat) (x : DacCh) : (d.setDac c x).pwm = d.pwm := rfl
@[simp] theorem Dev.setDac_cln (c : Nat) (x : DacCh) : (d.setDac c x).cln = d.cln := rfl
@[simp] theorem Dev.setDac_cmu (c : Nat) (x : DacCh) : (d.setDac c x).cmu = d.cmu := rfl
@[simp] theorem Dev.setDac_elk (c : Nat) (x : DacCh) : (d.setDac c x).elk = d.elk := rfl
@[simp] theorem Dev.setDac_plm (c : Nat) (x : DacCh) : (d.setDac c x).plm = d.plm := rfl
@[simp] theorem Dev.setDac_adc (c : Nat) (x : DacCh) : (d.setDac c x).adc = d.adc := rfl
@[simp] theorem Dev.setDac_free (c : Nat) (x : DacCh) : (d.setDac c x).free = d.free := rfl
@[simp] theorem Dev.setDac_out (c : Nat) (x : DacCh) : (d.setDac c x).out = d.out := rfl

end Sys2Proof.Machine
end

