-- ==== Sys2Proof/Laws/Tables.lean ====
section
/-! SUPPORT. What the operations over sparse tables and byte runs do: a read after a write, and the canonical form that every write keeps. -/

namespace Sys2Proof.Machine

variable {α : Type}

/-! ### Tables with a default -/

theorem tget_tdrop_below (dflt : Nat → α) (t : Table α) (n m : Nat) (h : m ≤ n) : tget dflt (tdrop n t) m = dflt m := by
  induction t with
  | nil => rfl
  | cons e r ih =>
    obtain ⟨k, w⟩ := e
    simp only [tdrop]
    split
    · simp only [tget]; rw [if_neg (by omega), if_pos (by omega)]
    · exact ih

theorem tget_tdrop_above (dflt : Nat → α) (t : Table α) (n m : Nat) (h : n < m) : tget dflt (tdrop n t) m = tget dflt t m := by
  induction t with
  | nil => rfl
  | cons e r ih =>
    obtain ⟨k, w⟩ := e
    simp only [tdrop]
    split
    · rfl
    · simp only [tget]; rw [if_neg (by omega), if_neg (by omega), ih]

/-- A read of the key just written gives the value written. -/
@[simp] theorem tget_tput_same [DecidableEq α] (dflt : Nat → α) (t : Table α) (n : Nat) (v : α) : tget dflt (tput dflt t n v) n = v := by
  induction t with
  | nil => simp only [tput]; split <;> simp_all [tget]
  | cons e r ih =>
    obtain ⟨k, w⟩ := e
    simp only [tput]
    split
    · split
      · rename_i hv; rw [tget_tdrop_below dflt r n n (le_refl n), hv]
      · simp [tget]
    · split
      · split
        · rename_i h1 h2 h3; simp [tget, h1, h2, h3]
        · simp [tget]
      · rename_i h1 h2; simp only [tget, if_neg h1, if_neg h2]; exact ih

/-- A write leaves every other key as it was. -/
@[simp] theorem tget_tput_other [DecidableEq α] (dflt : Nat → α) (t : Table α) (n m : Nat) (v : α) (hm : m ≠ n) :
    tget dflt (tput dflt t n v) m = tget dflt t m := by
  induction t with
  | nil => simp only [tput]; split <;> simp [tget, hm]
  | cons e r ih =>
    obtain ⟨k, w⟩ := e
    simp only [tput]
    split
    · rename_i hk; subst hk
      split
      · simp only [tget, if_neg hm]
        split
        · exact tget_tdrop_below dflt r n m (by omega)
        · exact tget_tdrop_above dflt r n m (by omega)
      · simp [tget, hm]
    · split
      · split
        · rfl
        · simp only [tget, if_neg hm]
          split
          · split
            · rename_i a b c d; omega
            · rw [if_pos (by omega)]
          · rfl
      · simp only [tget]; rw [ih]

theorem tdrop_of_above [DecidableEq α] (dflt : Nat → α) (n : Nat) (t : Table α) (h : tableWfAbove dflt (some n) t = true) : tdrop n t = t := by
  cases t with
  | nil => rfl
  | cons e r =>
    obtain ⟨k, v⟩ := e
    simp only [tableWfAbove, Bool.and_eq_true, decide_eq_true_eq] at h
    simp only [tdrop]; rw [if_pos h.1.1]

theorem tableWfAbove_mono [DecidableEq α] (dflt : Nat → α) (a : Nat) (b : Option Nat) (t : Table α) (hb : ∀ m, b = some m → m ≤ a)
    (h : tableWfAbove dflt (some a) t = true) : tableWfAbove dflt b t = true := by
  cases t with
  | nil => rfl
  | cons e r =>
    obtain ⟨k, v⟩ := e
    simp only [tableWfAbove, Bool.and_eq_true, decide_eq_true_eq] at h ⊢
    refine ⟨⟨?_, h.1.2⟩, h.2⟩
    cases b with
    | none => rfl
    | some m => have := hb m rfl; simp only [decide_eq_true_eq]; omega

theorem tableWfAbove_tput [DecidableEq α] (dflt : Nat → α) (b : Option Nat) (t : Table α) (n : Nat) (v : α) (hb : ∀ m, b = some m → m < n)
    (h : tableWfAbove dflt b t = true) : tableWfAbove dflt b (tput dflt t n v) = true := by
  induction t generalizing b with
  | nil =>
    simp only [tput]; split
    · rfl
    · rename_i hv
      simp only [tableWfAbove, Bool.and_true, Bool.and_eq_true, decide_eq_true_eq]
      refine ⟨?_, hv⟩
      cases b with
      | none => rfl
      | some m => simpa using hb m rfl
  | cons e r ih =>
    obtain ⟨k, w⟩ := e
    have h0 := h
    simp only [tableWfAbove, Bool.and_eq_true, decide_eq_true_eq] at h
    simp only [tput]
    split
    · rename_i hk; subst hk
      split
      · rw [tdrop_of_above dflt n r h.2]
        exact tableWfAbove_mono dflt n b r (fun m hm => by have := hb m hm; omega) h.2
      · rename_i hv
        simp only [tableWfAbove, Bool.and_eq_true, decide_eq_true_eq]
        exact ⟨⟨h.1.1, hv⟩, h.2⟩
    · split
      · split
        · exact h0
        · rename_i h1 h2 hv
          simp only [tableWfAbove, Bool.and_eq_true, decide_eq_true_eq]
          refine ⟨⟨?_, hv⟩, ⟨h2, h.1.2⟩, h.2⟩
          cases b with
          | none => rfl
          | some m => simpa using hb m rfl
      · rename_i h1 h2
        simp only [tableWfAbove, Bool.and_eq_true, decide_eq_true_eq]
        exact ⟨h.1, ih (some k) (fun m hm => by cases hm; omega) h.2⟩

/-- Every write keeps the canonical form. -/
theorem tableWf_tput [DecidableEq α] (dflt : Nat → α) (t : Table α) (n : Nat) (v : α) (h : tableWf dflt t = true) :
    tableWf dflt (tput dflt t n v) = true := tableWfAbove_tput dflt none t n v (by simp) h

/-! ### Association lists with rising keys -/

/-- A read of the key just written gives the value written. -/
@[simp] theorem aget_aput_same (t : List (Nat × α)) (n : Nat) (v : α) : aget (aput t n v) n = some v := by
  induction t with
  | nil => simp [aput, aget]
  | cons e r ih =>
    obtain ⟨k, w⟩ := e
    simp only [aput]
    split
    · simp [aget]
    · split
      · simp [aget]
      · rename_i h1 h2; simp only [aget, if_neg h1]; exact ih

/-- A write leaves every other key as it was. -/
@[simp] theorem aget_aput_other (t : List (Nat × α)) (n m : Nat) (v : α) (h : m ≠ n) : aget (aput t n v) m = aget t m := by
  induction t with
  | nil => simp [aput, aget, h]
  | cons e r ih =>
    obtain ⟨k, w⟩ := e
    simp only [aput]
    split
    · rename_i hk; subst hk; simp [aget, h]
    · split
      · simp [aget, h]
      · simp only [aget]; split <;> simp_all

theorem aput_keys (t : List (Nat × α)) (n : Nat) (v : α) : ∀ x ∈ aput t n v, x.1 = n ∨ x ∈ t := by
  induction t with
  | nil => simp [aput]
  | cons e r ih =>
    obtain ⟨k, w⟩ := e
    intro x hx
    simp only [aput] at hx
    split at hx
    · simp only [List.mem_cons] at hx ⊢
      rcases hx with rfl | hx
      · exact .inl rfl
      · exact .inr (.inr hx)
    · split at hx
      · simp only [List.mem_cons] at hx ⊢
        rcases hx with rfl | hx
        · exact .inl rfl
        · exact .inr hx
      · simp only [List.mem_cons] at hx ⊢
        rcases hx with rfl | hx
        · exact .inr (.inl rfl)
        · rcases ih x hx with h | h
          · exact .inl h
          · exact .inr (.inr h)

/-- A write keeps the keys rising. -/
theorem aput_rising (t : List (Nat × α)) (n : Nat) (v : α) (h : t.Pairwise (fun a b => a.1 < b.1)) :
    (aput t n v).Pairwise (fun a b => a.1 < b.1) := by
  induction t with
  | nil => simp [aput]
  | cons e r ih =>
    obtain ⟨k, w⟩ := e
    have h0 := h
    rw [List.pairwise_cons] at h
    simp only [aput]
    split
    · rename_i hk; subst hk; exact List.pairwise_cons.mpr h
    · split
      · rename_i h1 h2
        refine List.pairwise_cons.mpr ⟨?_, h0⟩
        intro b hb
        rcases List.mem_cons.mp hb with rfl | hb
        · exact h2
        · have := h.1 b hb; simp only at this; omega
      · rename_i h1 h2
        refine List.pairwise_cons.mpr ⟨?_, ih h.2⟩
        intro b hb
        rcases aput_keys r n v b hb with hb | hb
        · simp only [hb]; omega
        · exact h.1 b hb

/-- A removal keeps the keys rising. -/
theorem adel_rising (t : List (Nat × α)) (n : Nat) (h : t.Pairwise (fun a b => a.1 < b.1)) :
    (adel t n).Pairwise (fun a b => a.1 < b.1) := by
  have sub : ∀ (t : List (Nat × α)), (adel t n).Sublist t := by
    intro t
    induction t with
    | nil => simp [adel]
    | cons e r ih =>
      obtain ⟨k, w⟩ := e
      simp only [adel]; split
      · exact List.sublist_cons_self _ _
      · exact ih.cons_cons _
  exact h.sublist (sub t)

/-! ### The DDR5 cells that the harvest engine writes -/

/-- A run of bytes put at an address keeps the canonical form of memory. -/
theorem putBytes_wf (b : Bytes) (a : Nat) (m : List (Nat × Byte)) (h : Memory.wf m) : Memory.wf (putBytes b a m) := by
  induction b generalizing a m with
  | nil => exact h
  | cons x r ih => exact ih (a + 1) (aput m a x) (aput_rising m a x h)

/-- Every address outside the run reads as before. -/
theorem putBytes_outside (b : Bytes) (a : Nat) (m : List (Nat × Byte)) (x : Nat) (h : x < a ∨ a + b.length ≤ x) :
    aget (putBytes b a m) x = aget m x := by
  induction b generalizing a m with
  | nil => rfl
  | cons y r ih =>
    simp only [List.length_cons] at h
    rw [putBytes, ih (a + 1) (aput m a y) (by omega), aget_aput_other m a x y (by omega)]

/-- Every address of the run reads as the byte put there. -/
theorem putBytes_inside (b : Bytes) (a : Nat) (m : List (Nat × Byte)) (i : Nat) (h : i < b.length) :
    aget (putBytes b a m) (a + i) = b[i]? := by
  induction b generalizing a m i with
  | nil => simp at h
  | cons y r ih =>
    rw [putBytes]
    cases i with
    | zero => rw [putBytes_outside r (a + 1) _ _ (by omega)]; simp
    | succ i =>
      have := ih (a + 1) (aput m a y) i (by simpa using h)
      rw [show a + (i + 1) = a + 1 + i by omega, this]; simp

end Sys2Proof.Machine
end

