-- ==== Sys2Proof/Laws/Fields.lean ====
section
/-! SUPPORT. Registers and their fields: a read after a write. -/

namespace Sys2Proof.Machine

/-- A register just written reads as written. -/
theorem Dev.reg_setReg_same (d : Dev) (off : Nat) (w : Word) : (d.setReg off w).reg off = w :=
  tget_tput_same regReset d.regs off w

/-- Every other register reads as before. -/
theorem Dev.reg_setReg_other (d : Dev) (off r : Nat) (w : Word) (hr : r ≠ off) :
    (d.setReg off w).reg r = d.reg r := tget_tput_other regReset d.regs off r w hr

/-- A register write keeps the register file canonical. -/
theorem Dev.regsWf_setReg (d : Dev) (off : Nat) (w : Word) (h : tableWf regReset d.regs = true) :
    tableWf regReset (d.setReg off w).regs = true := tableWf_tput regReset d.regs off w h

/-- The word below, the field, and the word above a field. -/
theorem word_split (f : FieldRef) (w : Nat) :
    w = w % 2 ^ f.lo + 2 ^ f.lo * ((w >>> f.lo) % 2 ^ f.width + 2 ^ f.width * (w / 2 ^ (f.lo + f.width))) := by
  rw [Nat.shiftRight_eq_div_pow, pow_add, ← Nat.div_div_eq_div_mul, Nat.mod_add_div, Nat.mod_add_div]

/-- A field just replaced reads as written, cut to its width. -/
theorem fieldOf_withField (f : FieldRef) (w : Word) (n : Nat) (h : f.lo + f.width ≤ 32) :
    fieldOf f (withField f w n) = n % 2 ^ f.width := by
  unfold withField
  have hs := word_split f w.toNat
  have hf : fieldOf f w = (w.toNat >>> f.lo) % 2 ^ f.width := rfl
  set m := fieldOf f w
  rw [← hf] at hs
  set a := w.toNat % 2 ^ f.lo
  set b := w.toNat / 2 ^ (f.lo + f.width)
  have ha : a < 2 ^ f.lo := Nat.mod_lt _ (Nat.two_pow_pos _)
  have hk : n % 2 ^ f.width < 2 ^ f.width := Nat.mod_lt _ (Nat.two_pow_pos _)
  set k := n % 2 ^ f.width
  have hv : w.toNat - m * 2 ^ f.lo + k * 2 ^ f.lo = a + 2 ^ f.lo * (k + 2 ^ f.width * b) := by
    rw [hs]; simp only [Nat.mul_add, Nat.mul_comm m, Nat.mul_comm k]; omega
  have hb : b < 2 ^ (32 - (f.lo + f.width)) := by
    apply Nat.div_lt_of_lt_mul
    rw [← pow_add, Nat.add_sub_cancel' h]; exact w.isLt
  have hlt : a + 2 ^ f.lo * (k + 2 ^ f.width * b) < 2 ^ 32 := by
    have h1 : k + 2 ^ f.width * b < 2 ^ f.width * 2 ^ (32 - (f.lo + f.width)) := by
      calc k + 2 ^ f.width * b < 2 ^ f.width + 2 ^ f.width * b := by omega
        _ = 2 ^ f.width * (b + 1) := by ring
        _ ≤ _ := Nat.mul_le_mul_left _ hb
    calc _ < 2 ^ f.lo + 2 ^ f.lo * (k + 2 ^ f.width * b) := by omega
      _ = 2 ^ f.lo * (k + 2 ^ f.width * b + 1) := by ring
      _ ≤ 2 ^ f.lo * (2 ^ f.width * 2 ^ (32 - (f.lo + f.width))) := Nat.mul_le_mul_left _ h1
      _ = 2 ^ 32 := by rw [← pow_add, ← pow_add]; congr 1; omega
  rw [hv]
  unfold fieldOf
  rw [BitVec.toNat_ofNat, Nat.mod_eq_of_lt hlt, Nat.shiftRight_eq_div_pow, Nat.add_mul_div_left _ _ (Nat.two_pow_pos _),
    Nat.div_eq_of_lt ha, Nat.zero_add, Nat.add_mul_mod_self_left, Nat.mod_eq_of_lt hk]

/-- A field just written reads as written, cut to its width. -/
theorem Dev.fld_setFld_same (d : Dev) (f : FieldRef) (n : Nat) (hf : f.lo + f.width ≤ 32) :
    (d.setFld f n).fld f = n % 2 ^ f.width := by
  unfold Dev.fld Dev.setFld
  rw [Dev.reg_setReg_same d _ _, fieldOf_withField f _ n hf]

/-- A field of another register reads as before. -/
theorem Dev.fld_setFld_other (d : Dev) (f g : FieldRef) (n : Nat) (hg : g.off ≠ f.off) :
    (d.setFld f n).fld g = d.fld g := by
  unfold Dev.fld Dev.setFld
  rw [Dev.reg_setReg_other d _ _ _ hg]

/-- A one-bit field just written reads as written. -/
theorem Dev.flag_setFlag_same (d : Dev) (f : FieldRef) (v : Bool) (hf : f.lo + f.width ≤ 32) (hw : f.width = 1) :
    (d.setFlag f v).flag f = v := by
  unfold Dev.flag Dev.setFlag
  rw [Dev.fld_setFld_same d f _ hf, hw]
  cases v <;> decide

end Sys2Proof.Machine
end

