-- ==== Sys2Proof/Laws/Publish.lean ====
section
/-! SUPPORT. What the sending of replies and events changes: the command processor's own state and registers, the record of what was sent
and the next event number (R25, R33, R53, R54, R62). -/

namespace Sys2Proof.Machine

theorem Dev.SentFrom.refl (d : Dev) : d.SentFrom d := ⟨rfl, fun _ _ => rfl, rfl, rfl, rfl, rfl, rfl, rfl⟩

theorem Dev.SentFrom.trans {a b c : Dev} (h : a.SentFrom b) (k : b.SentFrom c) : a.SentFrom c :=
  ⟨k.rest.trans h.rest, fun o ho => (k.regs o ho).trans (h.regs o ho), k.opened.trans h.opened, k.waiting.trans h.waiting,
    k.nextOid.trans h.nextOid, k.accepting.trans h.accepting, k.post.trans h.post, k.emissions.trans h.emissions⟩

theorem Dev.sentFrom_send (d : Dev) (o : Output) : d.SentFrom (d.send o) := ⟨rfl, fun _ _ => rfl, rfl, rfl, rfl, rfl, rfl, rfl⟩

theorem Dev.sentFrom_setReg (d : Dev) (off : Nat) (w : Word) (h : off < 0x10000) : d.SentFrom (d.setReg off w) :=
  ⟨rfl, fun o ho => Dev.reg_setReg_other d off o w (by omega), rfl, rfl, rfl, rfl, rfl, rfl⟩

theorem Dev.sentFrom_setFld (d : Dev) (f : FieldRef) (n : Nat) (h : f.off < 0x10000) : d.SentFrom (d.setFld f n) :=
  d.sentFrom_setReg _ _ h

theorem Dev.sentFrom_setRing (d : Dev) (n : Nat) (r : Ring) : d.SentFrom (d.setRing n r) := ⟨rfl, fun _ _ => rfl, rfl, rfl, rfl, rfl, rfl, rfl⟩

theorem Dev.sentFrom_setRequester (d : Dev) (n : Nat) (r : Requester) : d.SentFrom (d.setRequester n r) :=
  ⟨rfl, fun _ _ => rfl, rfl, rfl, rfl, rfl, rfl, rfl⟩

theorem Dev.sentFrom_drawEvseq (d : Dev) : d.SentFrom d.drawEvseq.2 := ⟨rfl, fun _ _ => rfl, rfl, rfl, rfl, rfl, rfl, rfl⟩

/-- A condition chooses between two updates of the same kind. -/
theorem Dev.SentFrom.ite {a b c : Dev} {p : Prop} [Decidable p] (h : a.SentFrom b) (k : a.SentFrom c) : a.SentFrom (if p then b else c) := by
  split
  · exact h
  · exact k

theorem Dev.sentFrom_signal (d : Dev) (n : Nat) : d.SentFrom (d.signal n) := by
  unfold Dev.signal
  refine .ite (.ite (d.sentFrom_send _) ?_) (.refl d)
  exact .ite ((d.sentFrom_setRing _ _).trans (Dev.sentFrom_send _ _)) (d.sentFrom_setRing _ _)

theorem Dev.sentFrom_writeCq (d : Dev) (n : Nat) (entry : Bytes) (h : n < 8) : d.SentFrom (d.writeCq n entry) := by
  unfold Dev.writeCq
  refine .trans (b := _) ?_ (Dev.sentFrom_signal _ _)
  have h1 := (d.sentFrom_send (.hostWrite (d.base (R.cpxCqBaseLo n) (R.cpxCqBaseHi n) + 64 * d.fld (F.cpxCqTail_slot n))
    (fitBytes 64 (entry.take 3 ++ le 1 (rd entry 3 1 + 4 * b2n (d.ring n).phase) ++ entry.drop 4)))).trans
    (Dev.sentFrom_setFld _ (F.cpxCqTail_slot n) ((d.fld (F.cpxCqTail_slot n) + 1) % d.slots (F.cpxCqSize_log2Slots n))
      (by simp only [F.cpxCqTail_slot, R.cpxCqTail]; omega))
  split <;> split
  all_goals first
    | exact (h1.trans (Dev.sentFrom_setRing _ _ _)).trans (Dev.sentFrom_setRing _ _ _)
    | exact h1.trans (Dev.sentFrom_setRing _ _ _)
    | exact h1

theorem Dev.sentFrom_putCq (d : Dev) (n owner : Nat) (entry : Bytes) (h : n < 8) : d.SentFrom (d.putCq n owner entry) := by
  unfold Dev.putCq
  refine .ite (d.sentFrom_writeCq n entry h) (.ite ?_ (d.sentFrom_setRequester _ _))
  exact (d.sentFrom_setRequester _ _).trans (Dev.sentFrom_setFld _ _ _ (by simp only [F.cpxRingStat_holdFull, R.cpxRingStat]; omega))

theorem Dev.sentFrom_deliverReply (d : Dev) (r : Reply) (evseq time : Nat) : d.SentFrom (d.deliverReply r evseq time) := by
  unfold Dev.deliverReply
  split
  · rename_i n _
    split
    · exact .refl d
    · refine .trans (b := _) ?_ (Dev.sentFrom_putCq _ n r.owner _ (by omega))
      split
      · exact .ite (.refl d) (d.sentFrom_send _)
      · exact .refl d
  · exact .ite (d.sentFrom_send _) (d.sentFrom_setRequester _ _)

theorem Dev.sentFrom_numberReply (d : Dev) (r : Reply) : d.SentFrom (d.numberReply r).2 := by
  unfold Dev.numberReply
  split
  · exact d.sentFrom_deliverReply _ _ _
  · refine .trans (b := _) (.trans d.sentFrom_drawEvseq ?_) (Dev.sentFrom_deliverReply _ _ _ _)
    exact .ite (Dev.sentFrom_setRequester _ _ _) (.refl _)

theorem Dev.sentFrom_writeEq (d : Dev) (code source eflags evseq time : Nat) (data : Bytes) :
    d.SentFrom (d.writeEq code source eflags evseq time data) := by
  unfold Dev.writeEq
  refine .trans (b := _) ?_ (Dev.sentFrom_send _ _)
  have h1 := fun o n => (d.sentFrom_send o).trans (Dev.sentFrom_setFld _ F.cpxEqTail_slot n (by decide))
  exact .ite ((h1 _ _).trans ⟨rfl, fun _ _ => rfl, rfl, rfl, rfl, rfl, rfl, rfl⟩) (h1 _ _)

theorem Dev.sentFrom_ringLossRecord (d : Dev) : d.SentFrom d.ringLossRecord := by
  unfold Dev.ringLossRecord
  refine .ite (.refl d) (.ite ?_ (.refl d))
  exact (d.sentFrom_drawEvseq.trans (Dev.sentFrom_writeEq _ _ _ _ _ _ _)).trans ⟨rfl, fun _ _ => rfl, rfl, rfl, rfl, rfl, rfl, rfl⟩

theorem Dev.sentFrom_sessionLossRecord (d : Dev) (s : Session) : d.SentFrom (d.sessionLossRecord s) := by
  unfold Dev.sessionLossRecord
  refine .ite (.refl d) ?_
  exact (d.sentFrom_drawEvseq.trans (Dev.sentFrom_send _ _)).trans ⟨rfl, fun _ _ => rfl, rfl, rfl, rfl, rfl, rfl, rfl⟩

theorem sentFrom_deliverToSession (code source eflags evseq time : Nat) (data : Bytes) (d : Dev) (s : Session) :
    d.SentFrom (deliverToSession code source eflags evseq time data d s) := by
  unfold deliverToSession
  exact .ite (d.sentFrom_send _) ⟨rfl, fun _ _ => rfl, rfl, rfl, rfl, rfl, rfl, rfl⟩

/-- A run over a list, each step of which only sends. -/
theorem sentFrom_foldl {α : Type} (f : Dev → α → Dev) (hf : ∀ (d : Dev) (x : α), d.SentFrom (f d x)) (l : List α) (d : Dev) : d.SentFrom (l.foldl f d) := by
  induction l generalizing d with
  | nil => exact .refl d
  | cons x r ih => exact (hf d x).trans (ih (f d x))

theorem Dev.sentFrom_countLost (d : Dev) :
    d.SentFrom (({ d with cpx := { d.cpx with eqLost := d.cpx.eqLost + 1 } } : Dev).bump R.cpxEqLost) :=
  .trans (b := ({ d with cpx := { d.cpx with eqLost := d.cpx.eqLost + 1 } } : Dev)) ⟨rfl, fun _ _ => rfl, rfl, rfl, rfl, rfl, rfl, rfl⟩
    (Dev.sentFrom_setReg _ R.cpxEqLost _ (by decide))

theorem Dev.sentFrom_deliverEvent (d : Dev) (code source : Nat) (lowConf : Bool) (time : Nat) (data : Bytes) :
    d.SentFrom (d.deliverEvent code source lowConf time data) := by
  unfold Dev.deliverEvent
  refine .trans (b := _) ?_ (sentFrom_foldl _ (sentFrom_deliverToSession _ _ _ _ _ _) _ _)
  have h3 := d.sentFrom_drawEvseq
  refine .ite (.ite (h3.trans (Dev.sentFrom_writeEq _ _ _ _ _ _ _)) ?_) h3
  exact h3.trans (Dev.sentFrom_countLost _)

theorem sentFrom_deliverAll (l : List Emission) (seen : List Numbered) (d : Dev) : d.SentFrom (deliverAll l seen d) := by
  induction l generalizing seen d with
  | nil => exact .refl d
  | cons e r ih =>
    cases e with
    | reply t r => exact (d.sentFrom_numberReply r).trans (ih _ _)
    | event e => exact (d.sentFrom_deliverEvent _ _ _ _ _).trans (ih _ _)
    | done t r => exact (d.sentFrom_deliverEvent _ _ _ _ _).trans (ih _ _)
    | ringLoss t => exact d.sentFrom_ringLossRecord.trans (ih _ _)
    | sessionLoss t n =>
      refine .trans (b := _) ?_ (ih _ _)
      split
      · exact d.sentFrom_sessionLossRecord _
      · exact .refl d

/-- The flush at the end of a row only sends, and leaves nothing unsent. -/
theorem Dev.sentFrom_flush (d : Dev) : ({ d with cpx := { d.cpx with emissions := [] } } : Dev).SentFrom d.flush := sentFrom_deliverAll _ _ _

@[simp] theorem Dev.flush_rest (d : Dev) : d.flush.rest = d.rest := d.sentFrom_flush.rest
@[simp] theorem Dev.flush_opened (d : Dev) : d.flush.cpx.opened = d.cpx.opened := d.sentFrom_flush.opened
@[simp] theorem Dev.flush_waiting (d : Dev) : d.flush.cpx.waiting = d.cpx.waiting := d.sentFrom_flush.waiting
@[simp] theorem Dev.flush_nextOid (d : Dev) : d.flush.cpx.nextOid = d.cpx.nextOid := d.sentFrom_flush.nextOid
@[simp] theorem Dev.flush_accepting (d : Dev) : d.flush.cpx.accepting = d.cpx.accepting := d.sentFrom_flush.accepting
@[simp] theorem Dev.flush_post (d : Dev) : d.flush.cpx.post = d.cpx.post := d.sentFrom_flush.post
@[simp] theorem Dev.flush_emissions (d : Dev) : d.flush.cpx.emissions = [] := d.sentFrom_flush.emissions

/-- A register outside the window of the command processor reads after the flush as before. -/
theorem Dev.flush_reg (d : Dev) (off : Nat) (h : 0x10000 ≤ off) : d.flush.reg off = d.reg off := d.sentFrom_flush.regs off h

/-- What `rest` holds of two states that agree on it: any part of the block outside the command processor. -/
theorem Dev.congr_rest {α : Type} {a b : Dev} (h : a.rest = b.rest) (f : Dev → α) (hf : ∀ d : Dev, f d.rest = f d) : f a = f b := by
  rw [← hf a, ← hf b, h]

end Sys2Proof.Machine
end

