-- ==== Sys2Proof/Laws/Settle.lean ====
section
/-! SUPPORT. What the end of a row does to economy mode: the cause bits follow the triggers (R26, R27, Table 1-10), and while no trigger
arises nothing but the dwell and ECON_STAT changes. -/

namespace Sys2Proof.Machine

theorem Dev.econCauses_lt (d : Dev) : d.econCauses < 16 := by
  unfold Dev.econCauses b2n; split <;> split <;> split <;> split <;> omega

theorem Dev.econCauses_congr {a b : Dev} (hr : ∀ o, o ≠ R.thsEconStat → 0x10000 ≤ o → a.reg o = b.reg o)
    (hc : a.cmu = b.cmu) (hv : a.ths.lvVolts = b.ths.lvVolts) : a.econCauses = b.econCauses := by
  unfold Dev.econCauses Dev.econCatenary Dev.econNeutral Dev.econLv Dev.econForce Dev.flag Dev.fld
  rw [hc, hv, hr F.thsEconCtrl_enCatenary.off (by decide) (by decide), hr F.tbuCatStat_lost.off (by decide) (by decide),
    hr F.thsEconCtrl_enNeutral.off (by decide) (by decide), hr F.thsEconCtrl_enLvbus.off (by decide) (by decide),
    hr F.thsEconLv_enterV.off (by decide) (by decide), hr F.thsEconCtrl_force.off (by decide) (by decide)]

theorem word_field_of_extract (w : Word) (k : Nat) : w.toNat / 2 ^ k % 16 = (w.extractLsb' k 4).toNat := by
  simp [BitVec.extractLsb'_toNat, Nat.shiftRight_eq_div_pow]

theorem merged_causes (old : Word) (c : Nat) (hc : c < 16) :
    (mergeWord old (BitVec.ofNat 32 (2 * c + 1)) (if c = 0 then 0x1E#32 else 0x1F#32)).toNat / 2 % 16 = c := by
  have h := word_field_of_extract (mergeWord old (BitVec.ofNat 32 (2 * c + 1)) (if c = 0 then 0x1E#32 else 0x1F#32)) 1
  rw [pow_one] at h
  rw [h]
  have e : (mergeWord old (BitVec.ofNat 32 (2 * c + 1)) (if c = 0 then 0x1E#32 else 0x1F#32)).extractLsb' 1 4 = BitVec.ofNat 4 c := by
    unfold mergeWord
    interval_cases c <;> (ext i hi; simp; interval_cases i <;> simp)
  rw [e]; simp; omega

theorem merged_active (old : Word) (c : Nat) (hc : c < 16) (h0 : c ≠ 0) :
    (mergeWord old (BitVec.ofNat 32 (2 * c + 1)) 0x1F#32).toNat % 2 = 1 := by
  have h : (mergeWord old (BitVec.ofNat 32 (2 * c + 1)) 0x1F#32).getLsbD 0 = true := by
    unfold mergeWord
    interval_cases c <;> simp
  rw [BitVec.getLsbD, Nat.testBit_zero] at h
  simpa using h

/-- After the cause bits are set they show the triggers, and economy mode is in force while there is one. -/
theorem Dev.showCauses_ok (d : Dev) (pending : List Instr) : State.econOk ⟨d.showCauses, pending⟩ := by
  have hc : d.showCauses.econCauses = d.econCauses :=
    Dev.econCauses_congr (fun o ho _ => Dev.reg_setReg_other d _ o _ ho) rfl rfl
  have hr : d.showCauses.reg R.thsEconStat = mergeWord (d.reg R.thsEconStat) (BitVec.ofNat 32 (2 * d.econCauses + 1))
      (if d.econCauses = 0 then 0x1E#32 else 0x1F#32) := Dev.reg_setReg_same d _ _
  refine ⟨?_, ?_⟩
  · rw [hc]; simp only [Dev.regN, hr]; exact merged_causes _ _ d.econCauses_lt
  · intro h0
    rw [hc] at h0
    simp only [Dev.economy, Dev.flag, Dev.fld, fieldOf, F.thsEconStat_active, Nat.shiftRight_zero, pow_one, hr, if_neg h0,
      merged_active _ _ d.econCauses_lt h0]
    decide

/-- What the cause bits show outlasts the sending of replies and events. -/
theorem State.econOk_flush (d : Dev) (pending : List Instr) (h : State.econOk ⟨d, pending⟩) : State.econOk ⟨d.flush, pending⟩ := by
  have hr : ∀ o, 0x10000 ≤ o → d.flush.reg o = d.reg o := d.flush_reg
  have hc : d.flush.econCauses = d.econCauses :=
    Dev.econCauses_congr (fun o _ ho => hr o ho) (Dev.congr_rest d.flush_rest (·.cmu) (fun _ => rfl))
      (Dev.congr_rest d.flush_rest (·.ths.lvVolts) (fun _ => rfl))
  have h1 : d.flush.regN R.thsEconStat = d.regN R.thsEconStat := congrArg BitVec.toNat (hr _ (by decide))
  have h2 : d.flush.economy = d.economy := by
    unfold Dev.economy Dev.flag Dev.fld; exact congrArg (fun w => decide (fieldOf F.thsEconStat_active w ≠ 0)) (hr _ (by decide))
  exact ⟨(congrArg (· / 2 % 16) h1).trans (h.1.trans hc.symm), fun h0 => h2.trans (h.2 (by rw [← hc]; exact h0))⟩

/-- The end of every row is a settlement of economy mode, and then the sending of everything that is left to be sent. -/
theorem Dev.finalize_ends (d : Dev) : ∃ x : Dev, d.finalize = x.settle.flush := by
  unfold Dev.finalize
  dsimp only
  split
  · exact ⟨_, rfl⟩
  · exact ⟨_, rfl⟩

/-- At the end of every row the cause bits show the triggers. -/
theorem State.econOk_after (s : State) (d : Dev) : (s.after d).econOk := by
  obtain ⟨x, h⟩ := (d.twinFollow s.dev).finalize_ends
  unfold State.after
  rw [h]
  exact State.econOk_flush _ _ (Dev.showCauses_ok _ _)

/-- At the end of every row everything has been sent. -/
theorem State.quiet_after (s : State) (d : Dev) : (s.after d).quiet := by
  obtain ⟨x, h⟩ := (d.twinFollow s.dev).finalize_ends
  unfold State.after State.quiet
  rw [h]
  exact Dev.flush_emissions _

/-- What the end of a row leaves as it was while no trigger of economy mode has arisen since: everything but the dwell. -/
theorem Dev.settle_calm (d : Dev) (h : d.econCauses = 0 ∨ d.economy = true) :
    ∃ t, d.settle = ({ d with ths := { d.ths with dwellFrom := t } } : Dev).showCauses := by
  have hn : ¬ (d.econCauses ≠ 0 ∧ (!d.economy) = true) := by
    rcases h with h | h <;> simp [h]
  exact ⟨_, by simp only [Dev.settle, if_neg hn]; rfl⟩

end Sys2Proof.Machine
end

