-- ==== Sys2Proof/Laws/Host.lean ====
section
/-! SUPPORT. The intake of a host command that runs at once: what `Dev.host` does, in terms of the function of the command. -/

namespace Sys2Proof.Machine

theorem fitBytes_whole (b : Bytes) : fitBytes b.length b = b := by simp [fitBytes]

/-- Noting a sequence number changes the requester and CPX.SEQ_GAPS, and none of what stands in intake. -/
theorem Dev.noteSequence_keeps (d : Dev) (q : Nat) (p : Packet) :
    (d.noteSequence q p).cpx.waiting = d.cpx.waiting ∧ (d.noteSequence q p).twn = d.twn := by
  unfold Dev.noteSequence; dsimp only
  split
  · exact ⟨rfl, rfl⟩
  · split
    · exact ⟨rfl, rfl⟩
    · split <;> exact ⟨rfl, rfl⟩

theorem Dev.noteSequence_inIntake (d : Dev) (q : Nat) (p : Packet) (n : Nat) : (d.noteSequence q p).inIntake n = d.inIntake n := by
  unfold Dev.inIntake Dev.standbyWaits
  rw [(d.noteSequence_keeps q p).1, (d.noteSequence_keeps q p).2]

theorem take_admits (d : Dev) (q : Nat) (p : Packet) (ht : ∀ e ∈ (d.requester q).window, e.tag ≠ p.cmd.tag.toNat)
    (hr : d.inIntake q < 256) (hw : ∀ w ∈ d.cpx.waiting, waitsBehind q p w = false) (hf : flagFence p.cmd.flags = false) :
    d.take q true p = (d.entered q p).startCmd q true p := by
  have h1 : ((d.bump R.cpxCmdCount).requester q).window.find? (fun e => e.tag = p.cmd.tag.toNat) = none := by
    rw [List.find?_eq_none]; intro e he; simpa using ht e he
  have h2 : ((d.bump R.cpxCmdCount).noteSequence q p).cpx.waiting.any (waitsBehind q p) = false := by
    rw [(Dev.noteSequence_keeps _ _ _).1, List.any_eq_false]; intro w h; simpa using hw w h
  have h4 : ¬ 256 ≤ ((d.bump R.cpxCmdCount).noteSequence q p).inIntake q := by
    rw [Dev.noteSequence_inIntake]; exact Nat.not_le.mpr hr
  unfold Dev.take
  simp only [Bool.not_true, Bool.false_eq_true, if_false, h1]
  unfold Dev.takeNew
  have h3 : ∀ x : Dev, x.fenced q p = false := by intro x; simp [Dev.fenced, hf]
  have h5 : ∀ (x : Dev) (r : Requester), (x.setRequester q r).cpx.waiting = x.cpx.waiting := fun _ _ => rfl
  simp only [h4, if_false, h5, h2, h3, Bool.or_self, Bool.false_eq_true]
  rfl

theorem close_real (d : Dev) (q : Nat) (rec : Bool) (p : Packet) (h : d.refusal q rec p = none) : d.startCmd q rec p = d.runCmd q rec p := by
  unfold Dev.startCmd; rw [h]

/-- A command that starts at once runs, and then what waited starts. -/
theorem host_starts (d : Dev) (op : BitVec 16) (c : Cmd) (q : Nat) (h : Starts d op c q) :
    d.host op c = ((d.entered q ⟨op, c⟩).runCmd q true ⟨op, c⟩).pump := by
  obtain ⟨n, hv, hn⟩ := h.fetched
  have hp : (if c.length ≤ 1008 then fitBytes c.length c.payload else c.payload) = c.payload := by
    rw [h.whole, fitBytes_whole]; simp
  have hi : d.intake ⟨op, c⟩ = d.take q true ⟨op, c⟩ := by
    cases c
    simp only at hv hp
    subst hv
    simp only [Dev.intake, hn, hp]
  rw [Dev.host, hi, take_admits d q ⟨op, c⟩ h.newTag h.room h.alone h.noFence, close_real _ _ _ _ h.passes]

/-- A command whose function gives a final status: its single reply. -/
theorem host_final (d : Dev) (op : BitVec 16) (c : Cmd) (q : Nat) (h : Starts d op c q) (d2 : Dev) (st : Nat) (res : Bytes)
    (hb : bodyOf op.toNat (d.opened op c q) (callOf (d.entered q ⟨op, c⟩) op c q) = (d2, .final st res)) :
    d.host op c = d2.replied op c q (d.entered q ⟨op, c⟩).cpx.nextOid st res := by
  rw [host_starts d op c q h]
  unfold Dev.runCmd
  simp only [Dev.opened, callOf] at hb
  simp only [hb, h.real, Bool.false_eq_true, if_false]
  rfl

/-- A command whose function accepts: it acts on the device to which ACCEPTED has been noted. -/
theorem host_accepted (d : Dev) (op : BitVec 16) (c : Cmd) (q : Nat) (h : Starts d op c q) (d2 : Dev) (res : Bytes)
    (hb : bodyOf op.toNat (d.opened op c q) (callOf (d.entered q ⟨op, c⟩) op c q) = (d2, .accepted res)) :
    d.host op c = (bodyOf op.toNat ((d.opened op c q).acceptedFor d2 op c q (d.entered q ⟨op, c⟩).cpx.nextOid res)
      (callOf (d.entered q ⟨op, c⟩) op c q)).1.goesOn q := by
  rw [host_starts d op c q h]
  unfold Dev.runCmd
  simp only [Dev.opened, callOf] at hb
  simp only [hb, h.real, Bool.false_eq_true, if_false]
  rfl

/-- ACCEPTED changes nothing but what the command processor has to say. -/
theorem Dev.interim_eq (d : Dev) (op : BitVec 16) (c : Cmd) (q : Nat) (res : Bytes) :
    ∃ x, d.interim op c q res = { d with cpx := x } := by
  unfold Dev.interim
  generalize ((match opRow op.toNat with | some r => r.twoStage | none => false) && !flagNoInterim c.flags) = b
  cases b
  · exact ⟨_, rfl⟩
  · exact ⟨_, rfl⟩

/-- ACCEPTED given out where no twin follows the command: on a unit that is not the active unit of a pair, and for the commands that R419
to R421 do not name. -/
theorem Dev.acceptedFor_interim (d after : Dev) (op : BitVec 16) (c : Cmd) (q oid : Nat) (res : Bytes)
    (h : d.pairedActive = false ∨ (forwards ⟨op, c⟩ = false ∧ mirroredOpcode op.toNat = false)) :
    d.acceptedFor after op c q oid res = d.interim op c q res := by
  have hf : d.forwardIf after ⟨op, c⟩ q oid (.accepted res) = d := by
    unfold Dev.forwardIf; rcases h with h | h <;> simp [h]
  have ha : ∀ r : Reply, r.final = false → (d.pairedActive = false ∨ mirroredOpcode r.opcode = false) → d.answer r = d.reply r := by
    intro r hr hm
    have hd : d.reply (d.decided r) = d.reply r := by simp [Dev.reply, Dev.decided]
    unfold Dev.answer
    have h1 : (d.decided r).final = false := hr
    have h2 : (d.decided r).opcode = r.opcode := rfl
    dsimp only
    rcases hm with hm | hm <;> simp [h1, h2, hm, hd]
  unfold Dev.acceptedFor Dev.interim
  simp only [hf]
  generalize ((match opRow op.toNat with | some r => r.twoStage | none => false) && !flagNoInterim c.flags) = b
  cases b
  · rfl
  · exact ha ({ replyTo ⟨op, c⟩ q St.accepted false res with desc := descFor ⟨op, c⟩, publish := false } : Reply) rfl
      (h.imp id (fun h => h.2))

/-- Where optical safe does not refuse it, a command does what its function does. -/
theorem bodyOf_permitted (op : Nat) (d : Dev) (c : Call)
    (h : (opticalSafeRefuses op c.packet.cmd.payload && d.flag F.fltState_osafe) = false) : bodyOf op d c = functionOf op d c := by
  unfold bodyOf
  dsimp only
  rw [h, Bool.false_and, if_neg Bool.false_ne_true]

theorem Dev.opened_flag_twn (d : Dev) (op : BitVec 16) (c : Cmd) (q off : Nat) (h : off ≠ R.cpxCmdCount) (h2 : off ≠ R.cpxSeqGaps) :
    (d.opened op c q).reg off = d.reg off := by
  show (d.entered q ⟨op, c⟩).reg off = d.reg off
  have hb : (d.bump R.cpxCmdCount).reg off = d.reg off := Dev.reg_setReg_other _ _ _ _ h
  show ((d.bump R.cpxCmdCount).noteSequence q ⟨op, c⟩).reg off = d.reg off
  unfold Dev.noteSequence; dsimp only
  split
  · exact hb
  · split
    · exact hb
    · split
      · exact hb
      · exact (Dev.reg_setReg_other _ _ _ _ h2).trans hb

/-- A command whose packet optical safe does not refuse does, opened, what its function does. -/
theorem bodyOf_starts (d : Dev) (op : BitVec 16) (c : Cmd) (q : Nat) (h : Starts d op c q) :
    bodyOf op.toNat (d.opened op c q) (d.nextCall op c q) = functionOf op.toNat (d.opened op c q) (d.nextCall op c q) := by
  have hr := d.opened_flag_twn op c q R.fltState (by decide) (by decide)
  refine bodyOf_permitted _ _ _ ?_
  have : (d.opened op c q).flag F.fltState_osafe = d.flag F.fltState_osafe := by
    unfold Dev.flag Dev.fld; simp only [F.fltState_osafe, hr]; rfl
  rw [this]; exact h.permitted

theorem Dev.opened_pairedActive (d : Dev) (op : BitVec 16) (c : Cmd) (q : Nat) : (d.opened op c q).pairedActive = d.pairedActive := by
  have h := d.opened_flag_twn op c q R.twnStat (by decide) (by decide)
  unfold Dev.pairedActive Dev.active Dev.flag Dev.fld
  simp only [F.twnStat_role, F.twnStat_paired, h]
  rfl

/-- A command whose function accepts, where no twin follows: it acts on the device with ACCEPTED given out. -/
theorem host_begins (d : Dev) (op : BitVec 16) (c : Cmd) (q : Nat) (h : Starts d op c q)
    (ht : d.pairedActive = false ∨ (forwards ⟨op, c⟩ = false ∧ mirroredOpcode op.toNat = false)) (res : Bytes)
    (hb : (bodyOf op.toNat (d.opened op c q) (d.nextCall op c q)).2 = .accepted res) :
    d.host op c = (bodyOf op.toNat ((d.opened op c q).interim op c q res) (d.nextCall op c q)).1.goesOn q := by
  rw [host_accepted d op c q h (bodyOf op.toNat (d.opened op c q) (d.nextCall op c q)).1 res (Prod.ext rfl hb), Dev.acceptedFor_interim]
  · rfl
  · rw [Dev.opened_pairedActive]; exact ht

end Sys2Proof.Machine
end

