-- ==== Sys2Proof/Laws/PerInstr.lean ====
section
/-! SUPPORT. What holds of every command as a term, one lemma per constructor: the packet of a well-formed command is well formed. -/

set_option Elab.async false

namespace Sys2Proof

/-- The packet that a row of the host's interface carries; none where the command is an event. -/
def Instr.packet : Instr → Option Cmd
  | .powerUp => none
  | .coldStart _ => none
  | .coldReset => none
  | .bootVerifyDone _ _ _ => none
  | .functionReady _ => none
  | .brownOut => none
  | .refclkLoss => none
  | .supplyExcursion _ _ => none
  | .supplyRecover _ _ => none
  | .autoRestart => none
  | .sqTailDoorbell _ _ _ _ => none
  | .cqHeadDoorbell _ _ => none
  | .eqHeadDoorbell _ => none
  | .ringConfigWrite _ _ => none
  | .ringEnable _ _ => none
  | .ringDisable _ _ => none
  | .ringDisableEffect _ => none
  | .eventRingEnable _ => none
  | .ringDmaError _ => none
  | .udpDatagram _ _ _ _ _ => none
  | .cqStallTimeout _ => none
  | .msixCoalesceExpiry _ => none
  | .bar0Write _ _ => none
  | .devInfo c => some c
  | .devRestart c => some c
  | .eventSubscribe c => some c
  | .reqClose c => some c
  | .econConfig c => some c
  | .mapLoad c => some c
  | .mapLoadComplete => none
  | .circuitSet c => some c
  | .circuitClear c => some c
  | .circuitQuery c => some c
  | .portCeiling c => some c
  | .circuitBatch c => some c
  | .scheduleQuery c => some c
  | .moveCancel c => some c
  | .sluiceStatus c => some c
  | .lawLoad c => some c
  | .lawSwitch _ => none
  | .loopBind c => some c
  | .coefSwap c => some c
  | .coefSwapBoundary => none
  | .setpointSet c => some c
  | .loopQuery c => some c
  | .placePin c => some c
  | .placeUnpin c => some c
  | .placeHint c => some c
  | .placeStats c => some c
  | .trainReport c => some c
  | .trainDrop c => some c
  | .wsenseConfig c => some c
  | .timeQuery c => some c
  | .sstStart c => some c
  | .sstStop c => some c
  | .periodSet c => some c
  | .cellBypass c => some c
  | .neutralSection c => some c
  | .sstQuery c => some c
  | .legConfig c => some c
  | .legEnable c => some c
  | .lvReference c => some c
  | .legQuery c => some c
  | .adcConfig c => some c
  | .adcInject c => some c
  | .dacConfig c => some c
  | .dacEnable c => some c
  | .calRun c => some c
  | .calGap c => some c
  | .calBank c => some c
  | .faultMap c => some c
  | .faultClear c => some c
  | .faultORelease c => some c
  | .faultQuery c => some c
  | .twinPair c => some c
  | .twinYield c => some c
  | .twinQuery c => some c
  | .traceArm c => some c
  | .traceTrigger => none
  | .traceCaptureComplete => none
  | .harvest c => some c
  | .harvestComplete => none
  | .traceStop c => some c
  | .regRead c => some c
  | .regWrite c => some c
  | .echo c => some c
  | .memStatus c => some c
  | .cfgWrite c => some c
  | .sessionOpen c => some c
  | .sessionClose c => some c
  | .imageUpdate c => some c
  | .attest c => some c
  | .engineDisable _ => none
  | .engineEnable _ => none
  | .engineRestart _ _ => none
  | .engineParityError _ _ => none
  | .trnDisable => none
  | .trnEnable => none
  | .rakeAdmissionSet _ => none
  | .linkDisable _ => none
  | .linkEnable _ => none
  | .chainDisable _ => none
  | .chainEnable _ => none
  | .adcPairDisable _ => none
  | .adcPairEnable _ => none
  | .pwmDisable => none
  | .pwmEnable => none
  | .calDisable => none
  | .calEnable => none
  | .regroupDisable => none
  | .evictDisable => none
  | .throttleDisable => none
  | .pwmCommit _ => none
  | .pwmStageWrite _ _ => none
  | .dacQueuePush _ _ => none
  | .catCfgWrite _ => none
  | .powerReserveClear => none
  | .frameStrobe => none
  | .sampleCutoff => none
  | .blockEvaluate _ _ => none
  | .ptpSync _ => none
  | .ptpHoldoverEnter => none
  | .ptpHoldoverExpiry => none
  | .angleLock _ _ _ => none
  | .catenaryLoss _ => none
  | .lossOfLock _ => none
  | .flywheelExpiry => none
  | .economyExit => none
  | .markFire _ => none
  | .angleMarkFire _ => none
  | .trainConfidenceFall _ => none
  | .wheelPulse _ => none
  | .ceilingTrip _ => none
  | .sluiceGrant => none
  | .sluiceStart _ => none
  | .segmentEnd _ => none
  | .sluiceRearmEnd _ => none
  | .stallAbandon _ => none
  | .segmentWrite _ => none
  | .measurementCutoff => none
  | .powerPublish => none
  | .dutyWrite => none
  | .periodStart => none
  | .periodTransmit => none
  | .timeBroadcast => none
  | .delayRemeasure => none
  | .sstStartTimeout => none
  | .coastExpiry => none
  | .brkTripRelease => none
  | .periodWatchdog => none
  | .measReceived _ _ _ => none
  | .pongReceived _ _ _ _ => none
  | .ackReceived _ _ _ => none
  | .cmdTimeout _ => none
  | .cellLost _ => none
  | .chainLost _ => none
  | .chainTrainStep _ => none
  | .chainRetryTimer _ => none
  | .pwmBoundary _ => none
  | .refreshPulse _ => none
  | .legPrechargeEnd _ => none
  | .pwmTriggerPulse _ _ => none
  | .mainComparatorTrip _ => none
  | .hardComparatorTrip _ => none
  | .shootThroughBlock _ => none
  | .tripInAssert _ _ => none
  | .drvEnFall => none
  | .drvEnRise _ _ => none
  | .vgdUndervoltage => none
  | .bootstrapUndervoltage _ _ => none
  | .adcSlotFire _ _ => none
  | .adcConversionDone _ _ _ => none
  | .adcRefSettled _ => none
  | .adcInjectTimeout _ => none
  | .dacSampleTick _ => none
  | .dacEnableSettle _ => none
  | .dacDrainDone _ => none
  | .dacSpanRelaySettle _ => none
  | .rakeComplete _ _ => none
  | .liveStepComplete _ => none
  | .gapOpen _ => none
  | .detectedGapOpen _ => none
  | .calCommit _ => none
  | .calJobComplete _ _ _ => none
  | .bankSwitch => none
  | .nvHourlyCheck _ _ => none
  | .placementReview => none
  | .migrationStep => none
  | .loopRestore _ => none
  | .samplesReceived _ _ => none
  | .fastupReceived _ _ => none
  | .respReceived _ _ _ => none
  | .ctrlTimeout _ => none
  | .linkLost _ _ => none
  | .linkLate _ => none
  | .linkTrainStep _ => none
  | .linkRetryTimer _ => none
  | .faultSourceAssert _ => none
  | .faultOHoldExpiry => none
  | .fltSelfCheckFail _ => none
  | .sensorReading _ _ => none
  | .throttleFall => none
  | .sramUncorrectable _ _ _ => none
  | .ddrUncorrectable _ _ _ _ => none
  | .heartbeatReceived _ => none
  | .heartbeatMissed => none
  | .twinLinkLost _ => none
  | .mirrorReceived _ => none
  | .mackReceived _ => none
  | .mirrorTimeout => none
  | .forwardReceived _ => none
  | .fresultReceived _ => none
  | .forwardTimeout => none
  | .yieldReceived _ => none
  | .digestReceived _ => none
  | .pairOffsetCheck _ => none
  | .peerClaimConflict => none
  | .soloWaitExpiry => none
  | .resyncStep => none
  | .pcieLinkDown => none
  | .mgmtLinkDown => none
  | .refclkRestore => none
  | .peerClaimInChange _ => none
  | .cellLinkSyncLoss _ _ => none
  | .commandWindow => none
  | .declaredGapClose _ => none
  | .mirrorGapTimeout => none
  | .imageUpdateComplete _ => none
  | .brownOutRecovery => none
  | .ddrTrainingFailed _ => none
  | .eccCorrectedError _ _ => none
  | .jtagInstruction _ => none

namespace Laws.Packet

/-- The packet of a well-formed command is well formed. -/
def Statement (i : Instr) : Prop := i.wf = true → ∀ c : Cmd, i.packet = some c → c.wf = true

theorem powerUp : Statement (.powerUp) := fun _ _ e => nomatch e
theorem coldStart : ∀ x0, Statement (.coldStart x0) := fun _ _ _ e => nomatch e
theorem coldReset : Statement (.coldReset) := fun _ _ e => nomatch e
theorem bootVerifyDone : ∀ x0 x1 x2, Statement (.bootVerifyDone x0 x1 x2) := fun _ _ _ _ _ e => nomatch e
theorem functionReady : ∀ x0, Statement (.functionReady x0) := fun _ _ _ e => nomatch e
theorem brownOut : Statement (.brownOut) := fun _ _ e => nomatch e
theorem refclkLoss : Statement (.refclkLoss) := fun _ _ e => nomatch e
theorem supplyExcursion : ∀ x0 x1, Statement (.supplyExcursion x0 x1) := fun _ _ _ _ e => nomatch e
theorem supplyRecover : ∀ x0 x1, Statement (.supplyRecover x0 x1) := fun _ _ _ _ e => nomatch e
theorem autoRestart : Statement (.autoRestart) := fun _ _ e => nomatch e
theorem sqTailDoorbell : ∀ x0 x1 x2 x3, Statement (.sqTailDoorbell x0 x1 x2 x3) := fun _ _ _ _ _ _ e => nomatch e
theorem cqHeadDoorbell : ∀ x0 x1, Statement (.cqHeadDoorbell x0 x1) := fun _ _ _ _ e => nomatch e
theorem eqHeadDoorbell : ∀ x0, Statement (.eqHeadDoorbell x0) := fun _ _ _ e => nomatch e
theorem ringConfigWrite : ∀ x0 x1, Statement (.ringConfigWrite x0 x1) := fun _ _ _ _ e => nomatch e
theorem ringEnable : ∀ x0 x1, Statement (.ringEnable x0 x1) := fun _ _ _ _ e => nomatch e
theorem ringDisable : ∀ x0 x1, Statement (.ringDisable x0 x1) := fun _ _ _ _ e => nomatch e
theorem ringDisableEffect : ∀ x0, Statement (.ringDisableEffect x0) := fun _ _ _ e => nomatch e
theorem eventRingEnable : ∀ x0, Statement (.eventRingEnable x0) := fun _ _ _ e => nomatch e
theorem ringDmaError : ∀ x0, Statement (.ringDmaError x0) := fun _ _ _ e => nomatch e
theorem udpDatagram : ∀ x0 x1 x2 x3 x4, Statement (.udpDatagram x0 x1 x2 x3 x4) := fun _ _ _ _ _ _ _ e => nomatch e
theorem cqStallTimeout : ∀ x0, Statement (.cqStallTimeout x0) := fun _ _ _ e => nomatch e
theorem msixCoalesceExpiry : ∀ x0, Statement (.msixCoalesceExpiry x0) := fun _ _ _ e => nomatch e
theorem bar0Write : ∀ x0 x1, Statement (.bar0Write x0 x1) := fun _ _ _ _ e => nomatch e
theorem devInfo (p : Cmd) : Statement (.devInfo p) := fun h _ e => Option.some.inj e ▸ h
theorem devRestart (p : Cmd) : Statement (.devRestart p) := fun h _ e => Option.some.inj e ▸ h
theorem eventSubscribe (p : Cmd) : Statement (.eventSubscribe p) := fun h _ e => Option.some.inj e ▸ h
theorem reqClose (p : Cmd) : Statement (.reqClose p) := fun h _ e => Option.some.inj e ▸ h
theorem econConfig (p : Cmd) : Statement (.econConfig p) := fun h _ e => Option.some.inj e ▸ h
theorem mapLoad (p : Cmd) : Statement (.mapLoad p) := fun h _ e => Option.some.inj e ▸ h
theorem mapLoadComplete : Statement (.mapLoadComplete) := fun _ _ e => nomatch e
theorem circuitSet (p : Cmd) : Statement (.circuitSet p) := fun h _ e => Option.some.inj e ▸ h
theorem circuitClear (p : Cmd) : Statement (.circuitClear p) := fun h _ e => Option.some.inj e ▸ h
theorem circuitQuery (p : Cmd) : Statement (.circuitQuery p) := fun h _ e => Option.some.inj e ▸ h
theorem portCeiling (p : Cmd) : Statement (.portCeiling p) := fun h _ e => Option.some.inj e ▸ h
theorem circuitBatch (p : Cmd) : Statement (.circuitBatch p) := fun h _ e => Option.some.inj e ▸ h
theorem scheduleQuery (p : Cmd) : Statement (.scheduleQuery p) := fun h _ e => Option.some.inj e ▸ h
theorem moveCancel (p : Cmd) : Statement (.moveCancel p) := fun h _ e => Option.some.inj e ▸ h
theorem sluiceStatus (p : Cmd) : Statement (.sluiceStatus p) := fun h _ e => Option.some.inj e ▸ h
theorem lawLoad (p : Cmd) : Statement (.lawLoad p) := fun h _ e => Option.some.inj e ▸ h
theorem lawSwitch : ∀ x0, Statement (.lawSwitch x0) := fun _ _ _ e => nomatch e
theorem loopBind (p : Cmd) : Statement (.loopBind p) := fun h _ e => Option.some.inj e ▸ h
theorem coefSwap (p : Cmd) : Statement (.coefSwap p) := fun h _ e => Option.some.inj e ▸ h
theorem coefSwapBoundary : Statement (.coefSwapBoundary) := fun _ _ e => nomatch e
theorem setpointSet (p : Cmd) : Statement (.setpointSet p) := fun h _ e => Option.some.inj e ▸ h
theorem loopQuery (p : Cmd) : Statement (.loopQuery p) := fun h _ e => Option.some.inj e ▸ h
theorem placePin (p : Cmd) : Statement (.placePin p) := fun h _ e => Option.some.inj e ▸ h
theorem placeUnpin (p : Cmd) : Statement (.placeUnpin p) := fun h _ e => Option.some.inj e ▸ h
theorem placeHint (p : Cmd) : Statement (.placeHint p) := fun h _ e => Option.some.inj e ▸ h
theorem placeStats (p : Cmd) : Statement (.placeStats p) := fun h _ e => Option.some.inj e ▸ h
theorem trainReport (p : Cmd) : Statement (.trainReport p) := fun h _ e => Option.some.inj e ▸ h
theorem trainDrop (p : Cmd) : Statement (.trainDrop p) := fun h _ e => Option.some.inj e ▸ h
theorem wsenseConfig (p : Cmd) : Statement (.wsenseConfig p) := fun h _ e => Option.some.inj e ▸ h
theorem timeQuery (p : Cmd) : Statement (.timeQuery p) := fun h _ e => Option.some.inj e ▸ h
theorem sstStart (p : Cmd) : Statement (.sstStart p) := fun h _ e => Option.some.inj e ▸ h
theorem sstStop (p : Cmd) : Statement (.sstStop p) := fun h _ e => Option.some.inj e ▸ h
theorem periodSet (p : Cmd) : Statement (.periodSet p) := fun h _ e => Option.some.inj e ▸ h
theorem cellBypass (p : Cmd) : Statement (.cellBypass p) := fun h _ e => Option.some.inj e ▸ h
theorem neutralSection (p : Cmd) : Statement (.neutralSection p) := fun h _ e => Option.some.inj e ▸ h
theorem sstQuery (p : Cmd) : Statement (.sstQuery p) := fun h _ e => Option.some.inj e ▸ h
theorem legConfig (p : Cmd) : Statement (.legConfig p) := fun h _ e => Option.some.inj e ▸ h
theorem legEnable (p : Cmd) : Statement (.legEnable p) := fun h _ e => Option.some.inj e ▸ h
theorem lvReference (p : Cmd) : Statement (.lvReference p) := fun h _ e => Option.some.inj e ▸ h
theorem legQuery (p : Cmd) : Statement (.legQuery p) := fun h _ e => Option.some.inj e ▸ h
theorem adcConfig (p : Cmd) : Statement (.adcConfig p) := fun h _ e => Option.some.inj e ▸ h
theorem adcInject (p : Cmd) : Statement (.adcInject p) := fun h _ e => Option.some.inj e ▸ h
theorem dacConfig (p : Cmd) : Statement (.dacConfig p) := fun h _ e => Option.some.inj e ▸ h
theorem dacEnable (p : Cmd) : Statement (.dacEnable p) := fun h _ e => Option.some.inj e ▸ h
theorem calRun (p : Cmd) : Statement (.calRun p) := fun h _ e => Option.some.inj e ▸ h
theorem calGap (p : Cmd) : Statement (.calGap p) := fun h _ e => Option.some.inj e ▸ h
theorem calBank (p : Cmd) : Statement (.calBank p) := fun h _ e => Option.some.inj e ▸ h
theorem faultMap (p : Cmd) : Statement (.faultMap p) := fun h _ e => Option.some.inj e ▸ h
theorem faultClear (p : Cmd) : Statement (.faultClear p) := fun h _ e => Option.some.inj e ▸ h
theorem faultORelease (p : Cmd) : Statement (.faultORelease p) := fun h _ e => Option.some.inj e ▸ h
theorem faultQuery (p : Cmd) : Statement (.faultQuery p) := fun h _ e => Option.some.inj e ▸ h
theorem twinPair (p : Cmd) : Statement (.twinPair p) := fun h _ e => Option.some.inj e ▸ h
theorem twinYield (p : Cmd) : Statement (.twinYield p) := fun h _ e => Option.some.inj e ▸ h
theorem twinQuery (p : Cmd) : Statement (.twinQuery p) := fun h _ e => Option.some.inj e ▸ h
theorem traceArm (p : Cmd) : Statement (.traceArm p) := fun h _ e => Option.some.inj e ▸ h
theorem traceTrigger : Statement (.traceTrigger) := fun _ _ e => nomatch e
theorem traceCaptureComplete : Statement (.traceCaptureComplete) := fun _ _ e => nomatch e
theorem harvest (p : Cmd) : Statement (.harvest p) := fun h _ e => Option.some.inj e ▸ h
theorem harvestComplete : Statement (.harvestComplete) := fun _ _ e => nomatch e
theorem traceStop (p : Cmd) : Statement (.traceStop p) := fun h _ e => Option.some.inj e ▸ h
theorem regRead (p : Cmd) : Statement (.regRead p) := fun h _ e => Option.some.inj e ▸ h
theorem regWrite (p : Cmd) : Statement (.regWrite p) := fun h _ e => Option.some.inj e ▸ h
theorem echo (p : Cmd) : Statement (.echo p) := fun h _ e => Option.some.inj e ▸ h
theorem memStatus (p : Cmd) : Statement (.memStatus p) := fun h _ e => Option.some.inj e ▸ h
theorem cfgWrite (p : Cmd) : Statement (.cfgWrite p) := fun h _ e => Option.some.inj e ▸ h
theorem sessionOpen (p : Cmd) : Statement (.sessionOpen p) := fun h _ e => Option.some.inj e ▸ h
theorem sessionClose (p : Cmd) : Statement (.sessionClose p) := fun h _ e => Option.some.inj e ▸ h
theorem imageUpdate (p : Cmd) : Statement (.imageUpdate p) := fun h _ e => Option.some.inj e ▸ h
theorem attest (p : Cmd) : Statement (.attest p) := fun h _ e => Option.some.inj e ▸ h
theorem engineDisable : ∀ x0, Statement (.engineDisable x0) := fun _ _ _ e => nomatch e
theorem engineEnable : ∀ x0, Statement (.engineEnable x0) := fun _ _ _ e => nomatch e
theorem engineRestart : ∀ x0 x1, Statement (.engineRestart x0 x1) := fun _ _ _ _ e => nomatch e
theorem engineParityError : ∀ x0 x1, Statement (.engineParityError x0 x1) := fun _ _ _ _ e => nomatch e
theorem trnDisable : Statement (.trnDisable) := fun _ _ e => nomatch e
theorem trnEnable : Statement (.trnEnable) := fun _ _ e => nomatch e
theorem rakeAdmissionSet : ∀ x0, Statement (.rakeAdmissionSet x0) := fun _ _ _ e => nomatch e
theorem linkDisable : ∀ x0, Statement (.linkDisable x0) := fun _ _ _ e => nomatch e
theorem linkEnable : ∀ x0, Statement (.linkEnable x0) := fun _ _ _ e => nomatch e
theorem chainDisable : ∀ x0, Statement (.chainDisable x0) := fun _ _ _ e => nomatch e
theorem chainEnable : ∀ x0, Statement (.chainEnable x0) := fun _ _ _ e => nomatch e
theorem adcPairDisable : ∀ x0, Statement (.adcPairDisable x0) := fun _ _ _ e => nomatch e
theorem adcPairEnable : ∀ x0, Statement (.adcPairEnable x0) := fun _ _ _ e => nomatch e
theorem pwmDisable : Statement (.pwmDisable) := fun _ _ e => nomatch e
theorem pwmEnable : Statement (.pwmEnable) := fun _ _ e => nomatch e
theorem calDisable : Statement (.calDisable) := fun _ _ e => nomatch e
theorem calEnable : Statement (.calEnable) := fun _ _ e => nomatch e
theorem regroupDisable : Statement (.regroupDisable) := fun _ _ e => nomatch e
theorem evictDisable : Statement (.evictDisable) := fun _ _ e => nomatch e
theorem throttleDisable : Statement (.throttleDisable) := fun _ _ e => nomatch e
theorem pwmCommit : ∀ x0, Statement (.pwmCommit x0) := fun _ _ _ e => nomatch e
theorem pwmStageWrite : ∀ x0 x1, Statement (.pwmStageWrite x0 x1) := fun _ _ _ _ e => nomatch e
theorem dacQueuePush : ∀ x0 x1, Statement (.dacQueuePush x0 x1) := fun _ _ _ _ e => nomatch e
theorem catCfgWrite : ∀ x0, Statement (.catCfgWrite x0) := fun _ _ _ e => nomatch e
theorem powerReserveClear : Statement (.powerReserveClear) := fun _ _ e => nomatch e
theorem frameStrobe : Statement (.frameStrobe) := fun _ _ e => nomatch e
theorem sampleCutoff : Statement (.sampleCutoff) := fun _ _ e => nomatch e
theorem blockEvaluate : ∀ x0 x1, Statement (.blockEvaluate x0 x1) := fun _ _ _ _ e => nomatch e
theorem ptpSync : ∀ x0, Statement (.ptpSync x0) := fun _ _ _ e => nomatch e
theorem ptpHoldoverEnter : Statement (.ptpHoldoverEnter) := fun _ _ e => nomatch e
theorem ptpHoldoverExpiry : Statement (.ptpHoldoverExpiry) := fun _ _ e => nomatch e
theorem angleLock : ∀ x0 x1 x2, Statement (.angleLock x0 x1 x2) := fun _ _ _ _ _ e => nomatch e
theorem catenaryLoss : ∀ x0, Statement (.catenaryLoss x0) := fun _ _ _ e => nomatch e
theorem lossOfLock : ∀ x0, Statement (.lossOfLock x0) := fun _ _ _ e => nomatch e
theorem flywheelExpiry : Statement (.flywheelExpiry) := fun _ _ e => nomatch e
theorem economyExit : Statement (.economyExit) := fun _ _ e => nomatch e
theorem markFire : ∀ x0, Statement (.markFire x0) := fun _ _ _ e => nomatch e
theorem angleMarkFire : ∀ x0, Statement (.angleMarkFire x0) := fun _ _ _ e => nomatch e
theorem trainConfidenceFall : ∀ x0, Statement (.trainConfidenceFall x0) := fun _ _ _ e => nomatch e
theorem wheelPulse : ∀ x0, Statement (.wheelPulse x0) := fun _ _ _ e => nomatch e
theorem ceilingTrip : ∀ x0, Statement (.ceilingTrip x0) := fun _ _ _ e => nomatch e
theorem sluiceGrant : Statement (.sluiceGrant) := fun _ _ e => nomatch e
theorem sluiceStart : ∀ x0, Statement (.sluiceStart x0) := fun _ _ _ e => nomatch e
theorem segmentEnd : ∀ x0, Statement (.segmentEnd x0) := fun _ _ _ e => nomatch e
theorem sluiceRearmEnd : ∀ x0, Statement (.sluiceRearmEnd x0) := fun _ _ _ e => nomatch e
theorem stallAbandon : ∀ x0, Statement (.stallAbandon x0) := fun _ _ _ e => nomatch e
theorem segmentWrite : ∀ x0, Statement (.segmentWrite x0) := fun _ _ _ e => nomatch e
theorem measurementCutoff : Statement (.measurementCutoff) := fun _ _ e => nomatch e
theorem powerPublish : Statement (.powerPublish) := fun _ _ e => nomatch e
theorem dutyWrite : Statement (.dutyWrite) := fun _ _ e => nomatch e
theorem periodStart : Statement (.periodStart) := fun _ _ e => nomatch e
theorem periodTransmit : Statement (.periodTransmit) := fun _ _ e => nomatch e
theorem timeBroadcast : Statement (.timeBroadcast) := fun _ _ e => nomatch e
theorem delayRemeasure : Statement (.delayRemeasure) := fun _ _ e => nomatch e
theorem sstStartTimeout : Statement (.sstStartTimeout) := fun _ _ e => nomatch e
theorem coastExpiry : Statement (.coastExpiry) := fun _ _ e => nomatch e
theorem brkTripRelease : Statement (.brkTripRelease) := fun _ _ e => nomatch e
theorem periodWatchdog : Statement (.periodWatchdog) := fun _ _ e => nomatch e
theorem measReceived : ∀ x0 x1 x2, Statement (.measReceived x0 x1 x2) := fun _ _ _ _ _ e => nomatch e
theorem pongReceived : ∀ x0 x1 x2 x3, Statement (.pongReceived x0 x1 x2 x3) := fun _ _ _ _ _ _ e => nomatch e
theorem ackReceived : ∀ x0 x1 x2, Statement (.ackReceived x0 x1 x2) := fun _ _ _ _ _ e => nomatch e
theorem cmdTimeout : ∀ x0, Statement (.cmdTimeout x0) := fun _ _ _ e => nomatch e
theorem cellLost : ∀ x0, Statement (.cellLost x0) := fun _ _ _ e => nomatch e
theorem chainLost : ∀ x0, Statement (.chainLost x0) := fun _ _ _ e => nomatch e
theorem chainTrainStep : ∀ x0, Statement (.chainTrainStep x0) := fun _ _ _ e => nomatch e
theorem chainRetryTimer : ∀ x0, Statement (.chainRetryTimer x0) := fun _ _ _ e => nomatch e
theorem pwmBoundary : ∀ x0, Statement (.pwmBoundary x0) := fun _ _ _ e => nomatch e
theorem refreshPulse : ∀ x0, Statement (.refreshPulse x0) := fun _ _ _ e => nomatch e
theorem legPrechargeEnd : ∀ x0, Statement (.legPrechargeEnd x0) := fun _ _ _ e => nomatch e
theorem pwmTriggerPulse : ∀ x0 x1, Statement (.pwmTriggerPulse x0 x1) := fun _ _ _ _ e => nomatch e
theorem mainComparatorTrip : ∀ x0, Statement (.mainComparatorTrip x0) := fun _ _ _ e => nomatch e
theorem hardComparatorTrip : ∀ x0, Statement (.hardComparatorTrip x0) := fun _ _ _ e => nomatch e
theorem shootThroughBlock : ∀ x0, Statement (.shootThroughBlock x0) := fun _ _ _ e => nomatch e
theorem tripInAssert : ∀ x0 x1, Statement (.tripInAssert x0 x1) := fun _ _ _ _ e => nomatch e
theorem drvEnFall : Statement (.drvEnFall) := fun _ _ e => nomatch e
theorem drvEnRise : ∀ x0 x1, Statement (.drvEnRise x0 x1) := fun _ _ _ _ e => nomatch e
theorem vgdUndervoltage : Statement (.vgdUndervoltage) := fun _ _ e => nomatch e
theorem bootstrapUndervoltage : ∀ x0 x1, Statement (.bootstrapUndervoltage x0 x1) := fun _ _ _ _ e => nomatch e
theorem adcSlotFire : ∀ x0 x1, Statement (.adcSlotFire x0 x1) := fun _ _ _ _ e => nomatch e
theorem adcConversionDone : ∀ x0 x1 x2, Statement (.adcConversionDone x0 x1 x2) := fun _ _ _ _ _ e => nomatch e
theorem adcRefSettled : ∀ x0, Statement (.adcRefSettled x0) := fun _ _ _ e => nomatch e
theorem adcInjectTimeout : ∀ x0, Statement (.adcInjectTimeout x0) := fun _ _ _ e => nomatch e
theorem dacSampleTick : ∀ x0, Statement (.dacSampleTick x0) := fun _ _ _ e => nomatch e
theorem dacEnableSettle : ∀ x0, Statement (.dacEnableSettle x0) := fun _ _ _ e => nomatch e
theorem dacDrainDone : ∀ x0, Statement (.dacDrainDone x0) := fun _ _ _ e => nomatch e
theorem dacSpanRelaySettle : ∀ x0, Statement (.dacSpanRelaySettle x0) := fun _ _ _ e => nomatch e
theorem rakeComplete : ∀ x0 x1, Statement (.rakeComplete x0 x1) := fun _ _ _ _ e => nomatch e
theorem liveStepComplete : ∀ x0, Statement (.liveStepComplete x0) := fun _ _ _ e => nomatch e
theorem gapOpen : ∀ x0, Statement (.gapOpen x0) := fun _ _ _ e => nomatch e
theorem detectedGapOpen : ∀ x0, Statement (.detectedGapOpen x0) := fun _ _ _ e => nomatch e
theorem calCommit : ∀ x0, Statement (.calCommit x0) := fun _ _ _ e => nomatch e
theorem calJobComplete : ∀ x0 x1 x2, Statement (.calJobComplete x0 x1 x2) := fun _ _ _ _ _ e => nomatch e
theorem bankSwitch : Statement (.bankSwitch) := fun _ _ e => nomatch e
theorem nvHourlyCheck : ∀ x0 x1, Statement (.nvHourlyCheck x0 x1) := fun _ _ _ _ e => nomatch e
theorem placementReview : Statement (.placementReview) := fun _ _ e => nomatch e
theorem migrationStep : Statement (.migrationStep) := fun _ _ e => nomatch e
theorem loopRestore : ∀ x0, Statement (.loopRestore x0) := fun _ _ _ e => nomatch e
theorem samplesReceived : ∀ x0 x1, Statement (.samplesReceived x0 x1) := fun _ _ _ _ e => nomatch e
theorem fastupReceived : ∀ x0 x1, Statement (.fastupReceived x0 x1) := fun _ _ _ _ e => nomatch e
theorem respReceived : ∀ x0 x1 x2, Statement (.respReceived x0 x1 x2) := fun _ _ _ _ _ e => nomatch e
theorem ctrlTimeout : ∀ x0, Statement (.ctrlTimeout x0) := fun _ _ _ e => nomatch e
theorem linkLost : ∀ x0 x1, Statement (.linkLost x0 x1) := fun _ _ _ _ e => nomatch e
theorem linkLate : ∀ x0, Statement (.linkLate x0) := fun _ _ _ e => nomatch e
theorem linkTrainStep : ∀ x0, Statement (.linkTrainStep x0) := fun _ _ _ e => nomatch e
theorem linkRetryTimer : ∀ x0, Statement (.linkRetryTimer x0) := fun _ _ _ e => nomatch e
theorem faultSourceAssert : ∀ x0, Statement (.faultSourceAssert x0) := fun _ _ _ e => nomatch e
theorem faultOHoldExpiry : Statement (.faultOHoldExpiry) := fun _ _ e => nomatch e
theorem fltSelfCheckFail : ∀ x0, Statement (.fltSelfCheckFail x0) := fun _ _ _ e => nomatch e
theorem sensorReading : ∀ x0 x1, Statement (.sensorReading x0 x1) := fun _ _ _ _ e => nomatch e
theorem throttleFall : Statement (.throttleFall) := fun _ _ e => nomatch e
theorem sramUncorrectable : ∀ x0 x1 x2, Statement (.sramUncorrectable x0 x1 x2) := fun _ _ _ _ _ e => nomatch e
theorem ddrUncorrectable : ∀ x0 x1 x2 x3, Statement (.ddrUncorrectable x0 x1 x2 x3) := fun _ _ _ _ _ _ e => nomatch e
theorem heartbeatReceived : ∀ x0, Statement (.heartbeatReceived x0) := fun _ _ _ e => nomatch e
theorem heartbeatMissed : Statement (.heartbeatMissed) := fun _ _ e => nomatch e
theorem twinLinkLost : ∀ x0, Statement (.twinLinkLost x0) := fun _ _ _ e => nomatch e
theorem mirrorReceived : ∀ x0, Statement (.mirrorReceived x0) := fun _ _ _ e => nomatch e
theorem mackReceived : ∀ x0, Statement (.mackReceived x0) := fun _ _ _ e => nomatch e
theorem mirrorTimeout : Statement (.mirrorTimeout) := fun _ _ e => nomatch e
theorem forwardReceived : ∀ x0, Statement (.forwardReceived x0) := fun _ _ _ e => nomatch e
theorem fresultReceived : ∀ x0, Statement (.fresultReceived x0) := fun _ _ _ e => nomatch e
theorem forwardTimeout : Statement (.forwardTimeout) := fun _ _ e => nomatch e
theorem yieldReceived : ∀ x0, Statement (.yieldReceived x0) := fun _ _ _ e => nomatch e
theorem digestReceived : ∀ x0, Statement (.digestReceived x0) := fun _ _ _ e => nomatch e
theorem pairOffsetCheck : ∀ x0, Statement (.pairOffsetCheck x0) := fun _ _ _ e => nomatch e
theorem peerClaimConflict : Statement (.peerClaimConflict) := fun _ _ e => nomatch e
theorem soloWaitExpiry : Statement (.soloWaitExpiry) := fun _ _ e => nomatch e
theorem resyncStep : Statement (.resyncStep) := fun _ _ e => nomatch e
theorem pcieLinkDown : Statement (.pcieLinkDown) := fun _ _ e => nomatch e
theorem mgmtLinkDown : Statement (.mgmtLinkDown) := fun _ _ e => nomatch e
theorem refclkRestore : Statement (.refclkRestore) := fun _ _ e => nomatch e
theorem peerClaimInChange : ∀ x0, Statement (.peerClaimInChange x0) := fun _ _ _ e => nomatch e
theorem cellLinkSyncLoss : ∀ x0 x1, Statement (.cellLinkSyncLoss x0 x1) := fun _ _ _ _ e => nomatch e
theorem commandWindow : Statement (.commandWindow) := fun _ _ e => nomatch e
theorem declaredGapClose : ∀ x0, Statement (.declaredGapClose x0) := fun _ _ _ e => nomatch e
theorem mirrorGapTimeout : Statement (.mirrorGapTimeout) := fun _ _ e => nomatch e
theorem imageUpdateComplete : ∀ x0, Statement (.imageUpdateComplete x0) := fun _ _ _ e => nomatch e
theorem brownOutRecovery : Statement (.brownOutRecovery) := fun _ _ e => nomatch e
theorem ddrTrainingFailed : ∀ x0, Statement (.ddrTrainingFailed x0) := fun _ _ _ e => nomatch e
theorem eccCorrectedError : ∀ x0 x1, Statement (.eccCorrectedError x0 x1) := fun _ _ _ _ e => nomatch e
theorem jtagInstruction : ∀ x0, Statement (.jtagInstruction x0) := fun _ _ _ e => nomatch e

end Laws.Packet
end Sys2Proof
end

