-- ==== Sys2Proof/Tests/Slice0.lean ====
section
/-! SUPPORT. The author's own tests: for every statement with hypotheses a theorem `wit_<its name>` that shows a state and operands which meet
them together, the spec's worked examples as `test_...` theorems, and for every check of WellFormed a term that it refuses. -/

set_option Elab.async false

namespace Sys2Proof.Tests
open Sys2Proof.Machine

/-! ### States and commands -/

/-- The device after reset with every function ready and the ring pair 0 of requester 1 running. -/
def readyDev : Dev :=
  ({ cpx := { rings := [(0, { bound := some 1 })], accepting := true } } : Dev)
    |>.setReg R.cpxReady0 0xFFFFFFFF |>.setReg R.cpxReady1 0xFFFFFFFF |>.setFlag (F.cpxRingCtrl_en 0) true
    |>.setFld (F.cpxRingCtrl_requester 0) 1

/-- A state with the device `d` and nothing waiting. -/
def stOf (d : Dev) : State := ⟨d, []⟩

/-- The state of `readyDev`. -/
def ready : State := stOf readyDev

/-- A packet of requester 1 in ring pair 0 with payload `p` and tag 7. -/
def cmdOf (p : Bytes) : Cmd :=
  { via := .ring 0, flags := 0, requester := 1, length := p.length, tag := 7, sequence := 1, payload := p, image := [] }

/-- Whether the packet is taken from its ring pair and its command runs at once. -/
def startsB (d : Dev) (op : BitVec 16) (c : Cmd) (q : Nat) : Bool :=
  (match c.via with | .ring n => d.ringFetches n == some q | .udp _ _ => false) && c.length == c.payload.length &&
    (d.requester q).window.all (fun e => e.tag != c.tag.toNat) && decide (d.inIntake q < 256) && d.cpx.waiting.all (fun w => !waitsBehind q ⟨op, c⟩ w) &&
    !flagFence c.flags && !flagCheckOnly c.flags && (d.entered q ⟨op, c⟩).refusal q true ⟨op, c⟩ == none &&
    !(opticalSafeRefuses op.toNat c.payload && d.flag F.fltState_osafe)

theorem starts_of {d : Dev} {op : BitVec 16} {c : Cmd} {q : Nat} (h : startsB d op c q = true) : Starts d op c q := by
  simp only [startsB, Bool.and_eq_true, beq_iff_eq, Bool.not_eq_true', List.all_eq_true, bne_iff_ne, ne_eq, decide_eq_true_eq] at h
  obtain ⟨⟨⟨⟨⟨⟨⟨⟨hf, hw⟩, ht⟩, hi⟩, ha⟩, hn⟩, hr⟩, hp⟩, ho⟩ := h
  refine ⟨?_, hw, ht, hi, ha, hn, hr, hp, ho⟩
  split at hf
  · rename_i n hv
    exact ⟨n, hv, by simpa using hf⟩
  · simp at hf

/-- Sixteen zero bytes: a result descriptor. -/
def desc16 : Bytes := List.replicate 16 0

/-- Zero bytes. -/
def zeros (n : Nat) : Bytes := List.replicate n 0

/-- The device that has taken and opened the command. -/
def opn (d : Dev) (op : BitVec 16) (c : Cmd) : Dev := d.opened op c 1

/-- The device that has also given ACCEPTED. -/
def itm (d : Dev) (op : BitVec 16) (c : Cmd) : Dev := (opn d op c).interim op c 1 []

/-! ### Witnesses: each shows a state and operands that meet the hypotheses of a statement together -/

/-- A device in economy mode with a trigger present. -/
def econDev : Dev := (readyDev.setFlag F.thsEconCtrl_force true).settle

theorem wit_IdleStepCountsTimebaseOnce : (ready.pending = [] ∧ ready.dev.mem.porst = true ∧ ready.dev.mem.brownOut = false ∧
    ready.dev.mem.refLost = false) ∧ (stOf { readyDev with mem := { refLost := true } }).dev.mem.refLost = true := by decide +kernel

theorem wit_EveryStepShowsEconomyCausesAndSendsAll :
    let s : State := ⟨readyDev, [.powerUp]⟩
    s.econOk ∧ s.quiet ∧ ∃ t, step s = .next t :=
  ⟨⟨by decide +kernel, by decide +kernel⟩, rfl, _, rfl⟩

theorem wit_WellFormedCommandsComplete : Instr.wf (.legPrechargeEnd 7) = true ∧
    ∃ f, exec (.legPrechargeEnd 8) ready = .fault f := ⟨rfl, _, rfl⟩

theorem wit_EndOfRowKeepsEffect :
    (readyDev.pairedActive = false ∧ (readyDev.standby && readyDev.flag F.twnStat_paired) = false ∧ readyDev.cpx.post = [] ∧
      readyDev.econCauses = 0) ∧
    (econDev.pairedActive = false ∧ (econDev.standby && econDev.flag F.twnStat_paired) = false ∧ econDev.cpx.post = [] ∧
      econDev.econCauses ≠ 0 ∧ econDev.economy = true) := by decide +kernel

/-- The payload of a query for `n` records from number `k` on. -/
def span (k n : Nat) : Bytes := desc16 ++ le 2 k ++ le 2 n

theorem wit_QueriesAnswer :
    Starts readyDev 0x0101 (cmdOf desc16) 1 ∧ Starts readyDev 0x0F04 (cmdOf (zeros 48)) 1 ∧
    Starts readyDev 0x0E03 (cmdOf (desc16 ++ [1, 2, 3, 4])) 1 ∧ Starts readyDev 0x0E04 (cmdOf [2, 0, 0, 0]) 1 ∧
    Starts readyDev 0x0E04 (cmdOf [1, 0, 0, 0]) 1 ∧ rd (cmdOf [1, 0, 0, 0]).payload 0 1 = 1 ∧
    Starts readyDev 0x0E01 (cmdOf (desc16 ++ le 4 0x13FF00 ++ le 4 64)) 1 ∧
    rd (desc16 ++ le 4 0x13FF00 ++ le 4 64) 16 4 + 4 * rd (desc16 ++ le 4 0x13FF00 ++ le 4 64) 20 4 = 0x140000 ∧
    Starts readyDev 0x0604 (cmdOf []) 1 ∧ Starts readyDev 0x0204 (cmdOf (span 511 1)) 1 ∧ rd (span 511 1) 16 2 + rd (span 511 1) 18 2 = 512 ∧
    Starts readyDev 0x0301 (cmdOf (span 4095 1)) 1 ∧ rd (span 4095 1) 16 2 + rd (span 4095 1) 18 2 = 4096 ∧
    Starts readyDev 0x0405 (cmdOf (span 6143 1)) 1 ∧ rd (span 6143 1) 16 2 + rd (span 6143 1) 18 2 = 6144 ∧
    (∀ j < 1, (opn readyDev 0x0405 (cmdOf (span 6143 1))).isDrive (6143 + j) = true →
      (opn readyDev 0x0405 (cmdOf (span 6143 1))).linkReady (linkOf (6143 + j)) = true) ∧
    Starts readyDev 0x0504 (cmdOf desc16) 1 ∧ Starts readyDev 0x0303 (cmdOf desc16) 1 ∧ Starts readyDev 0x0706 (cmdOf desc16) 1 ∧
    Starts readyDev 0x0804 (cmdOf [7, 0, 0, 0]) 1 ∧ rd (cmdOf [7, 0, 0, 0]).payload 1 3 = 0 ∧ Starts readyDev 0x0B04 (cmdOf desc16) 1 ∧
    Starts readyDev 0x0C03 (cmdOf desc16) 1 ∧ Starts readyDev 0x0A03 (cmdOf []) 1 := by
  and_intros <;> first | exact starts_of (by decide +kernel) | decide +kernel

/-- A datagram's session 0 held by requester 1. -/
def sessionDev : Dev := { readyDev with cpx := { readyDev.cpx with sessions := [⟨0, 1, 0xC0A80001, 5000, 0⟩] } }

theorem wit_EventSubscribeReplacesMask :
    (Starts readyDev 0x0103 (cmdOf [6, 0, 0, 0]) 1 ∧ rd (cmdOf [6, 0, 0, 0]).payload 0 2 % 2 = 0) ∧
    (Starts sessionDev 0x0103 (cmdOf [6, 0, 1, 0]) 1 ∧ rd (cmdOf [6, 0, 1, 0]).payload 2 1 = 1 ∧
      ((opn sessionDev 0x0103 (cmdOf [6, 0, 1, 0])).sessionOf 1).isSome) ∧
    (Starts readyDev 0x0103 (cmdOf [6, 0, 2, 0]) 1 ∧ 1 < rd (cmdOf [6, 0, 2, 0]).payload 2 1) ∧
    (Starts readyDev 0x0103 (cmdOf [7, 0, 0, 0]) 1 ∧ rd (cmdOf [7, 0, 0, 0]).payload 0 2 % 2 = 1) ∧
    (Starts readyDev 0x0103 (cmdOf [6, 0, 1, 0]) 1 ∧ (opn readyDev 0x0103 (cmdOf [6, 0, 1, 0])).sessionOf 1 = none) ∧
    (Starts readyDev 0x0103 (cmdOf [6, 0, 0, 1]) 1 ∧ rd (cmdOf [6, 0, 0, 1]).payload 3 1 ≠ 0) := by
  and_intros <;> first | exact starts_of (by decide +kernel) | decide +kernel

/-- The active unit, with the SST in stage 6; `peer` says whether its peer is eligible. -/
def busyDev (peer : Bool) : Dev :=
  readyDev |>.setFld F.twnStat_role 1 |>.setFlag F.twnStat_peerEligible peer |>.setFld F.cmuSstStat_stage 6

/-- A device on which another command of requester 1 is open, which holds session 0. -/
def openDev : Dev := { sessionDev with cpx := { sessionDev.cpx with opened := [⟨0, 1, ⟨0x0C01, cmdOf []⟩, false⟩], nextOid := 1 } }

theorem wit_RestartAndCloseFollowTheirReply :
    (Starts readyDev 0x0102 (cmdOf [1, 0, 0, 0]) 1 ∧ rd (cmdOf [1, 0, 0, 0]).payload 0 1 = 1) ∧
    (Starts readyDev 0x0102 (cmdOf (zeros 4)) 1 ∧ ((opn readyDev 0x0102 (cmdOf (zeros 4))).active &&
      (opn readyDev 0x0102 (cmdOf (zeros 4))).powerWork) = false) ∧
    (Starts (busyDev true) 0x0102 (cmdOf (zeros 4)) 1 ∧ ((opn (busyDev true) 0x0102 (cmdOf (zeros 4))).active &&
      (opn (busyDev true) 0x0102 (cmdOf (zeros 4))).powerWork) = true ∧
      (opn (busyDev true) 0x0102 (cmdOf (zeros 4))).flag F.twnStat_peerEligible = true) ∧
    (Starts (busyDev false) 0x0102 (cmdOf (zeros 4)) 1 ∧ ((opn (busyDev false) 0x0102 (cmdOf (zeros 4))).active &&
      (opn (busyDev false) 0x0102 (cmdOf (zeros 4))).powerWork) = true ∧
      (opn (busyDev false) 0x0102 (cmdOf (zeros 4))).flag F.twnStat_peerEligible = false) ∧
    (Starts readyDev 0x0102 (cmdOf [2, 0, 0, 0]) 1 ∧ 1 < rd (cmdOf [2, 0, 0, 0]).payload 0 1) ∧
    (Starts readyDev 0x0104 (cmdOf []) 1 ∧ (opn readyDev 0x0104 (cmdOf [])).openCount 1 ≤ 1) ∧
    (Starts sessionDev 0x0F02 (cmdOf (zeros 4)) 1 ∧
      (opn sessionDev 0x0F02 (cmdOf (zeros 4))).cpx.sessions.find? (fun x => x.number = 0) = some ⟨0, 1, 0xC0A80001, 5000, 0⟩ ∧
      (opn sessionDev 0x0F02 (cmdOf (zeros 4))).openCount 1 ≤ 1) ∧
    (Starts openDev 0x0104 (cmdOf []) 1 ∧ 1 < (opn openDev 0x0104 (cmdOf [])).openCount 1) ∧
    (Starts openDev 0x0F02 (cmdOf (zeros 4)) 1 ∧
      (opn openDev 0x0F02 (cmdOf (zeros 4))).cpx.sessions.find? (fun x => x.number = 0) = some ⟨0, 1, 0xC0A80001, 5000, 0⟩ ∧
      1 < (opn openDev 0x0F02 (cmdOf (zeros 4))).openCount 1) ∧
    (∀ a ∈ [PostAction.restart true, .restart false, .close 1],
      ({ readyDev with cpx := { readyDev.cpx with post := [a] } } : Dev).pairedActive = false) := by
  and_intros <;> first | exact starts_of (by decide +kernel) | decide +kernel

theorem wit_EconConfigWritesBothRegistersOrNeither :
    (∃ row, opRow 0x0105 = some row ∧ row.lengthOk 8 = true) ∧
    (Starts readyDev 0x0105 (cmdOf (le 4 0x000A0000 ++ le 4 0)) 1 ∧ (0x000A0000 : Word) &&& 0xFF00FFC0#32 = 0 ∧
      10 ≤ fieldOf F.thsEconCtrl_exitDwell (0x000A0000 : Word) ∧ fieldOf F.thsEconLv_enterV (0 : Word) = 0) ∧
    (Starts readyDev 0x0105 (cmdOf (le 4 0x00090000 ++ le 4 0)) 1 ∧ ¬ 10 ≤ fieldOf F.thsEconCtrl_exitDwell (0x00090000 : Word)) := by
  refine ⟨⟨_, rfl, by decide⟩, ?_⟩
  and_intros <;> first | exact starts_of (by decide +kernel) | decide +kernel

/-- The payload of a register write: offset, value and mask. -/
def regPayload (off v m : Nat) : Bytes := le 4 off ++ le 4 v ++ le 4 m ++ le 4 0

theorem wit_RegisterWriteCommandsWriteMaskedBits :
    (Starts readyDev 0x0E02 (cmdOf (regPayload R.lpcEngEn 1 1)) 1 ∧ ∃ k, regBankAt R.lpcEngEn = some k ∧ k.acc = .rw ∧
      (1#32 ^^^ (opn readyDev 0x0E02 (cmdOf (regPayload R.lpcEngEn 1 1))).view R.lpcEngEn) &&& 1#32 &&& ~~~k.wmask = 0 ∧
      (opn readyDev 0x0E02 (cmdOf (regPayload R.lpcEngEn 1 1))).rwRefusal R.lpcEngEn
        (mergeWord ((opn readyDev 0x0E02 (cmdOf (regPayload R.lpcEngEn 1 1))).writeBase R.lpcEngEn) 1#32 (1#32 &&& k.wmask)) = St.done) ∧
    (Starts readyDev 0x0E02 (cmdOf (regPayload 0x13FFFC 1 1)) 1 ∧ regBankAt 0x13FFFC = none) ∧
    (Starts readyDev 0x0E02 (cmdOf (regPayload R.tbuCatCfg 1 1)) 1 ∧ ∃ k, regBankAt R.tbuCatCfg = some k ∧ k.acc ≠ .rw) ∧
    (Starts readyDev 0x0E05 (cmdOf (regPayload R.trnBracketCfg 0 0)) 1 ∧ ∃ k, regBankAt R.trnBracketCfg = some k ∧ k.acc = .cw ∧
      ownedCw R.trnBracketCfg = false ∧
      (0#32 ^^^ (opn readyDev 0x0E05 (cmdOf (regPayload R.trnBracketCfg 0 0))).view R.trnBracketCfg) &&& 0#32 &&& ~~~k.wmask = 0 ∧
      (let o := opn readyDev 0x0E05 (cmdOf (regPayload R.trnBracketCfg 0 0))
       let new := mergeWord (o.writeBase R.trnBracketCfg) 0#32 (0#32 &&& k.wmask)
       rangesOk R.trnBracketCfg new 0#32 = true ∧ o.cwConditions R.trnBracketCfg new 0#32 = true ∧
         o.cwRefusal R.trnBracketCfg new 0#32 = St.done)) ∧
    (Starts readyDev 0x0E05 (cmdOf (regPayload R.thsEconCtrl 0 0)) 1 ∧ ∃ k, regBankAt R.thsEconCtrl = some k ∧ ownedCw R.thsEconCtrl = true) := by
  refine ⟨⟨?_, _, rfl, ?_⟩, ⟨?_, ?_⟩, ⟨?_, _, rfl, ?_⟩, ⟨?_, _, rfl, ?_⟩, ⟨?_, _, rfl, ?_⟩⟩ <;>
    and_intros <;> first | exact starts_of (by decide +kernel) | decide +kernel

theorem wit_HostTwoStageCommandsBegin :
    (Starts readyDev 0x0F03 (cmdOf (zeros 16)) 1 ∧ (itm readyDev 0x0F03 (cmdOf (zeros 16))).hst.update = none) ∧
    (let d := readyDev.setFlag F.twnCtrl_mode true
     Starts d 0x0C01 (cmdOf []) 1 ∧ (itm d 0x0C01 (cmdOf [])).twinMode = true ∧ (itm d 0x0C01 (cmdOf [])).flag F.twnStat_paired = false ∧
       (itm d 0x0C01 (cmdOf [])).twn.resync = 0 ∧ (itm d 0x0C01 (cmdOf [])).active = false) ∧
    (let d := (readyDev.setFlag F.twnCtrl_mode true).setFld F.twnStat_role 1
     Starts d 0x0C01 (cmdOf []) 1 ∧ (itm d 0x0C01 (cmdOf [])).twinMode = true ∧ (itm d 0x0C01 (cmdOf [])).active = true) ∧
    (let d := (readyDev.setFld F.twnStat_role 1).setFlag F.twnStat_peerEligible true
     Starts d 0x0C02 (cmdOf []) 1 ∧ (itm d 0x0C02 (cmdOf [])).active = true ∧ (itm d 0x0C02 (cmdOf [])).flag F.twnStat_peerEligible = true) ∧
    (let d := (readyDev.setFld F.twnStat_role 2).setFlag F.twnStat_eligible true
     Starts d 0x0C02 (cmdOf []) 1 ∧ (itm d 0x0C02 (cmdOf [])).standby = true ∧ (itm d 0x0C02 (cmdOf [])).flag F.twnStat_eligible = true) := by
  and_intros <;> first | exact starts_of (by decide +kernel) | decide +kernel

/-- Whether a SESSION_OPEN datagram from a source without a session is taken and runs. -/
def startsUnboundB (d : Dev) (op : BitVec 16) (c : Cmd) (addr port : Nat) : Bool :=
  c.via == .udp addr port && d.flag F.cpxReady1_mgmt && d.flag F.cpxUdpCfg_en && d.cpx.accepting && c.length == c.payload.length &&
    d.sessionAt addr port == none && !flagCheckOnly c.flags && (d.bump R.cpxCmdCount).refusal c.requester.toNat false ⟨op, c⟩ == none

theorem startsUnbound_of {d : Dev} {op : BitVec 16} {c : Cmd} {a p : Nat} (h : startsUnboundB d op c a p = true) :
    StartsUnbound d op c a p := by
  simp only [startsUnboundB, Bool.and_eq_true, beq_iff_eq, Bool.not_eq_true'] at h
  obtain ⟨⟨⟨⟨⟨⟨⟨h1, h2⟩, h3⟩, h4⟩, h5⟩, h6⟩, h7⟩, h8⟩ := h
  exact ⟨h1, h2, h3, h4, h5, h6, h7, h8⟩

/-- A device that takes datagrams and knows its owner. -/
def ownedDev : Dev := { readyDev.setFlag F.cpxUdpCfg_en true with hst := { ownerKey := some 5 } }

/-- A SESSION_OPEN of requester 2 in a datagram. -/
def openCmd2 : Cmd :=
  { cmdOf (le 2 2 ++ le 2 0 ++ zeros 96) with via := .udp 0xC0A80001 5000, requester := 2 }

/-- The witness of SESSION_OPEN; whether a signature verifies is not the model's to say. -/
theorem wit_SessionOpenBindsLowestFreeNumber :
    let o := (ownedDev.bump R.cpxCmdCount).openCmd ⟨0x0F01, openCmd2⟩ 2
    StartsUnbound ownedDev 0x0F01 openCmd2 0xC0A80001 5000 ∧ openCmd2.requester.toNat = 2 ∧ rd openCmd2.payload 0 2 = 2 ∧
      rd openCmd2.payload 2 2 = 0 ∧ o.requesterTaken 2 = false ∧ o.cpx.sessions.length < 24 ∧ o.hst.ownerKey = some 5 := by
  and_intros <;> first | exact startsUnbound_of (by decide +kernel) | decide +kernel

/-- The payload of FAULT_MAP. -/
def mapCls (src k : Nat) : Bytes := le 2 src ++ le 1 k ++ [0]

theorem wit_FaultCommandsTakeEffect :
    (Starts readyDev 0x0B01 (cmdOf (mapCls 422 5)) 1 ∧ reservedSource 422 = false ∧
      (opn readyDev 0x0B01 (cmdOf (mapCls 422 5))).fld (F.fltClass_floor 422) ≤ 5 ∧
      (opn readyDev 0x0B01 (cmdOf (mapCls 422 5))).sticky 422 = false) ∧
    (let d := readyDev.setSticky 100 true
     Starts d 0x0B01 (cmdOf (mapCls 100 5)) 1 ∧ (opn d 0x0B01 (cmdOf (mapCls 100 5))).fld (F.fltClass_floor 100) ≤ 5 ∧
       (opn d 0x0B01 (cmdOf (mapCls 100 5))).sticky 100 = true ∧ 5 ≠ (opn d 0x0B01 (cmdOf (mapCls 100 5))).sourceClass 100) ∧
    (let d := readyDev.setSticky 100 true
     Starts d 0x0B01 (cmdOf (mapCls 100 4)) 1 ∧ (opn d 0x0B01 (cmdOf (mapCls 100 4))).fld (F.fltClass_floor 100) ≤ 4 ∧
       (opn d 0x0B01 (cmdOf (mapCls 100 4))).sticky 100 = true ∧ 4 ≠ (opn d 0x0B01 (cmdOf (mapCls 100 4))).sourceClass 100) ∧
    (Starts readyDev 0x0B01 (cmdOf (mapCls 297 0)) 1 ∧
      0 < (opn readyDev 0x0B01 (cmdOf (mapCls 297 0))).fld (F.fltClass_floor 297)) ∧
    Starts readyDev 0x0B02 (cmdOf (le 4 13 ++ le 4 0xFF)) 1 ∧
    (let d := { readyDev with now := 100 * tickUs }
     Starts d 0x0B03 (cmdOf []) 1 ∧ (itm d 0x0B03 (cmdOf [])).flag F.fltState_osafe = false ∧
       (itm d 0x0B03 (cmdOf [])).flag F.fltState_dsafe = false ∧ (itm d 0x0B03 (cmdOf [])).flt.holdUntil ≤ (itm d 0x0B03 (cmdOf [])).now) ∧
    (let d := { readyDev with flt := { holdUntil := 1 } }
     Starts d 0x0B03 (cmdOf []) 1 ∧ (itm d 0x0B03 (cmdOf [])).flag F.fltState_osafe = false ∧
       (itm d 0x0B03 (cmdOf [])).flag F.fltState_dsafe = false ∧ (itm d 0x0B03 (cmdOf [])).now < (itm d 0x0B03 (cmdOf [])).flt.holdUntil) := by
  and_intros <;> first | exact starts_of (by decide +kernel) | decide +kernel

/-! A fabric map of two ports, one switch cell and its image (Tables 5-2 to 5-5). -/

/-- An element record. -/
def elemRec (id kind stage assoc : Nat) : Bytes := le 2 (id + 8192 * kind) ++ le 1 stage ++ [0] ++ le 2 0 ++ le 2 assoc

/-- The image. -/
def mapImg : Bytes :=
  (le 4 0x504D464C ++ le 2 1 ++ [0, 0] ++ le 2 2 ++ le 2 1 ++ le 2 3 ++ le 2 4 ++ le 4 1 ++ le 4 64 ++ le 4 120 ++ le 4 152 ++ le 4 0 ++
    le 4 160 ++ le 2 0 ++ le 2 0 ++ le 2 100 ++ le 2 2500 ++ zeros 16) ++
  (elemRec 0 1 0 0x1FFF ++ elemRec 1 2 0xFF 6146 ++ elemRec 2 2 0xFF 6147 ++ elemRec 6144 4 0xFF 0x1FFF ++ elemRec 6145 4 0xFF 0x1FFF ++
    elemRec 6146 4 0xFF 0x1FFF ++ elemRec 6147 4 0xFF 0x1FFF) ++
  (le 2 0 ++ le 2 6144 ++ le 2 1 ++ le 2 6146 ++ le 2 2000 ++ le 2 1000 ++ le 2 0 ++ le 2 0) ++
  (le 2 1 ++ le 2 6145 ++ le 2 2 ++ le 2 6147 ++ le 2 2000 ++ le 2 1000 ++ le 2 8192 ++ le 2 8192) ++
  (le 2 0 ++ le 2 0 ++ le 2 0xFFFF ++ le 2 0xFFFF)

/-- The map. -/
def twoPort : FabricMap := match mapTables mapImg 160 with | some t => mapOf mapImg t | none => {}

/-- A device on which it is in force. -/
def mapDev : Dev := { readyDev with rtp := { map := twoPort } }

/-- What a plan answers, or nothing planned. -/
def planned (e : Except Nat (Work × Nat)) : Work × Nat := match e with | .ok x => x | .error _ => (readyDev.planStart, 0)
/-- A plan completed, or an empty one. -/
def finished (e : Except (Nat × Nat) Plan) : Plan := match e with | .ok x => x | .error _ => ⟨[], [], [], 0, 0⟩

/-- CIRCUIT_SET from port 0 to port 1, which needs the cell to cross, with key `k`. -/
def setCmd (k : Bytes) : Cmd := cmdOf (le 2 0 ++ le 2 1 ++ le 2 100 ++ zeros 10 ++ k)
/-- Its plan under way. -/
def setWork (d : Dev) : Work := (planned (d.planSet d.planStart 0 0 1 100)).1
/-- Its plan. -/
def setPlan (d : Dev) : Plan := finished (d.planFinish false (setWork d))
/-- A key of kind 1, one second from the start of time. -/
def key1 : Bytes := le 1 1 ++ zeros 7 ++ le 8 1000000000

theorem wit_AcceptedMoveClaimsItsPlan :
    (let p := setPlan mapDev
     let w := setWork mapDev
     let named := (p.elems.map (fun x => x.1) ++ p.paths.flatMap (fun x => x.2.map (fun h => h.1))).eraseDups
     let d1 := (((mapDev.bump R.rtpPlanCount)).restoreFor named).getD mapDev
     p.elems.length = 2 ∧ p.dist = [] ∧ (∀ l ∈ mapDev.planLinks p [1], mapDev.linkReady l = true) ∧
     (mapDev.bump R.rtpPlanCount).restoreFor named = some d1 ∧
     (let c : Call := ⟨1, 1, ⟨0x0202, setCmd key1⟩, none⟩
      let k := keyAt key1 0
      let d2 := (d1.keyState c k).2
      let m := mapDev.moveOf c k w p [] (some 0) none false
      d1.keyState c k = (.waits 0, d2) ∧ d2.calendarOk [m] = true ∧
        (if m.klass = 0 then residentFor (m.elems.map (fun x => x.el)) d2 else some d2).isSome = true) ∧
     (let c : Call := ⟨1, 1, ⟨0x0202, setCmd (zeros 16)⟩, none⟩
      let k := keyAt (zeros 16) 0
      let d2 := (d1.keyState c k).2
      let m := mapDev.moveOf c k w p [] none (some mapDev.now) false
      d1.keyState c k = (.now, d2) ∧ d2.calendarOk [m] = true ∧
        (if m.klass = 0 then residentFor (m.elems.map (fun x => x.el)) d2 else some d2).isSome = true) ∧
     w.born = [0] ∧ (aget w.circs 0).isSome = true) := by
  and_intros <;> decide +kernel

/-- A device on which circuit 0 runs from port 0 to port 1. -/
def litDev : Dev := { mapDev with rtp := { mapDev.rtp with circuits := [(0, ⟨2, 0, 1, 100, [(0, true)], false, 0, 0, 0, 0, ⟨0, 1⟩⟩)], settings := [(0, true)] } }

/-- CIRCUIT_CLEAR of circuit `n`. -/
def clearCmd (n : Nat) : Cmd := cmdOf (le 2 n ++ zeros 30)
/-- A CIRCUIT_BATCH of one entry: port 0 to port 1. -/
def batchCmd : Cmd := cmdOf (zeros 32 ++ le 1 1 ++ zeros 15 ++ (le 1 1 ++ [0] ++ le 2 0 ++ le 2 1 ++ le 2 100 ++ zeros 8))

/-- The device when the plan of CIRCUIT_CLEAR is accepted or not. -/
def clearWork (d : Dev) : Work := match d.planClear d.planStart 0 0 with | .ok w => w | .error _ => d.planStart
/-- A batch planned, or nothing. -/
def batchWork (d : Dev) (c : Cmd) : Work × List Nat × List Nat :=
  match d.planBatch c.payload (List.range 1) d.planStart [] [] with | .ok x => x | .error _ => (d.planStart, [], [])

theorem wit_CircuitCommandsPlanAndAccept :
    (let c := setCmd (zeros 16)
     let a := opn mapDev 0x0202 c
     let p := setPlan a
     let w := setWork a
     let result := circuitResult 0 p
     mapDev.pairedActive = false ∧ Starts mapDev 0x0202 c 1 ∧ a.rtp.loading = none ∧ rd c.payload 6 1 < 2 ∧ rd c.payload 7 9 = 0 ∧
       a.planSet a.planStart 0 (rd c.payload 0 2) (rd c.payload 2 2) (rd c.payload 4 2) = .ok (w, 0) ∧
       a.planFinish (bit (rd c.payload 6 1) 0) w = .ok p ∧
       (a.acceptMove (mapDev.nextCall 0x0202 c 1) (keyAt c.payload 16) w p [rd c.payload 2 2] result).2 = .accepted result) ∧
    (let c := clearCmd 0
     let a := opn litDev 0x0203 c
     let w := clearWork a
     let p := finished (a.planFinish false w)
     let result := circuitResult 0 p
     Starts litDev 0x0203 c 1 ∧ a.rtp.loading = none ∧ rd c.payload 2 14 = 0 ∧ a.planClear a.planStart 0 (rd c.payload 0 2) = .ok w ∧
       a.planFinish false w = .ok p ∧ (a.acceptMove (litDev.nextCall 0x0203 c 1) (keyAt c.payload 16) w p [] result).2 = .accepted result) ∧
    (Starts litDev 0x0203 (clearCmd 0xFFFF) 1 ∧ rd (clearCmd 0xFFFF).payload 0 2 = 0xFFFF) ∧
    (let c := batchCmd
     let a := opn mapDev 0x0206 c
     let x := batchWork a c
     let p := finished (a.planFinish false x.1)
     let result := le 2 1 ++ le 2 p.dist.length ++ le 2 p.demand ++ le 2 p.waves ++ x.2.1.flatMap (le 2) ++ p.dist.flatMap (le 2)
     Starts mapDev 0x0206 c 1 ∧ rd c.payload 32 1 = 1 ∧ c.payload.length = 48 + 16 * 1 ∧ rd c.payload 33 1 < 2 ∧ rd c.payload 34 14 = 0 ∧
       a.planBatch c.payload (List.range 1) a.planStart [] [] = .ok (x.1, x.2.1, x.2.2) ∧
       a.planFinish (bit (rd c.payload 33 1) 0) x.1 = .ok p ∧
       (a.acceptMove (mapDev.nextCall 0x0206 c 1) (keyAt c.payload 16) x.1 p x.2.2 result).2 = .accepted result) := by
  and_intros <;> first | exact starts_of (by decide +kernel) | decide +kernel

/-- The records of the image. -/
def mapRecs : MapImage := (mapTables mapImg 160).getD ⟨[], [], [], []⟩

/-- The image passes the checks of R115, where a compiled map fits the route-table pool (check 9). -/
theorem mapImg_passes (h : Config.mapFits mapImg = true) : checkMap mapImg 160 = (0, twoPort) := by
  have c1 : mapCheck1 mapImg 160 = true := by decide +kernel
  have c2 : (if mapCheck2 mapImg 160 then mapTables mapImg 160 else none) = some mapRecs := by decide +kernel
  have c3 : mapCheck3 mapImg mapRecs = true := by decide +kernel
  have e : mapOf mapImg mapRecs = twoPort := by decide +kernel
  have c4 : mapCheck4 twoPort = true := by decide +kernel
  have c5 : mapCheck5 twoPort = true := by decide +kernel
  have c6 : mapCheck6 twoPort = true := by decide +kernel
  have c7 : mapCheck7 twoPort = true := by decide +kernel
  have c8 : mapCheck8 twoPort = true := by decide +kernel
  simp [checkMap, c1, c2, c3, e, c4, c5, c6, c7, c8, h]

/-- MAP_LOAD of that image. -/
def mapCmd : Cmd := { cmdOf (le 8 0 ++ le 4 160 ++ zeros 100) with image := mapImg }

/-- The witness of MAP_LOAD; whether a signature verifies and a compiled map fits is not the model's to say. -/
theorem wit_MapLoadInstallsCheckedMap_signed (h : Config.mapFits mapImg = true) :
    let o := itm ownedDev 0x0201 mapCmd
    ownedDev.pairedActive = false ∧ Starts ownedDev 0x0201 mapCmd 1 ∧ rd mapCmd.payload 0 8 % 8 = 0 ∧ rd mapCmd.payload 12 4 = 0 ∧
      o.rtp.circuits = [] ∧ o.rtp.moves = [] ∧ o.rtp.loading = none ∧ o.hst.ownerKey = some 5 ∧
      checkMap (fitBytes (rd mapCmd.payload 8 4) mapCmd.image) (rd mapCmd.payload 8 4) = (0, twoPort) := by
  have e : fitBytes (rd mapCmd.payload 8 4) mapCmd.image = mapImg := by decide +kernel
  have n : rd mapCmd.payload 8 4 = 160 := by decide +kernel
  and_intros <;> first | exact starts_of (by decide +kernel) | (rw [e, n]; exact mapImg_passes h) | decide +kernel

theorem wit_MapLoadInstallsCheckedMap :
    (stOf { readyDev with rtp := { loading := some (1, twoPort) } }).dev.rtp.loading = some (1, twoPort) ∧ ready.dev.rtp.loading = none := by
  decide +kernel

/-- PORT_CEILING of port 1. -/
def ceilCmd (ceil fl : Nat) : Cmd := cmdOf (le 2 1 ++ le 2 ceil ++ le 1 fl ++ zeros 3)
/-- A device with ceilings, port 1 blanked. -/
def ceilDev : Dev := (mapDev.setRegN (R.rtpCeiling 1) (1000 + 65536 * 2000)).setBitAt (R.rtpBlanked 0) 1 true
/-- A move of requester 1 with tag 7; `b` says whether its element has started. -/
def moveOf1 (b : Bool) : Move :=
  ⟨1, 1, 7, 0x0202, 0, none, none, 1, 0, false, false, false, false, [⟨2, 2, false, 100, 0, b, 0, false⟩], [0], [], [], [], [], [], 0, [], none⟩
/-- A device with that move. -/
def moveDev (b : Bool) : Dev := { mapDev with rtp := { mapDev.rtp with moves := [moveOf1 b] } }

/-- The tap power of a port that has read nothing rests on a free value, so its bound is a hypothesis here. -/
theorem wit_PortCeilingAndMoveCancelTakeEffect_unblank
    (h : (opn ceilDev 0x0205 (ceilCmd 2000 1)).outReading 1 ≤ 2000 + ((opn ceilDev 0x0205 (ceilCmd 2000 1)).rtp.map.tripMargin : Int)) :
    let o := opn ceilDev 0x0205 (ceilCmd 2000 1)
    Starts ceilDev 0x0205 (ceilCmd 2000 1) 1 ∧ o.portBlanked 1 = true ∧ o.linkReady (linkOf (o.voaOf 1)) = true ∧ o.rtp.loading = none ∧
      (2000 : Int) ≤ signed 16 (o.fld (F.rtpCeiling_ceilMax 1)) ∧ o.outReading 1 ≤ 2000 + (o.rtp.map.tripMargin : Int) := by
  and_intros <;> first | exact starts_of (by decide +kernel) | decide +kernel | exact h

theorem wit_PortCeilingAndMoveCancelTakeEffect_above
    (h : 2000 + ((opn ceilDev 0x0205 (ceilCmd 2000 1)).rtp.map.tripMargin : Int) < (opn ceilDev 0x0205 (ceilCmd 2000 1)).outReading 1) :
    let o := opn ceilDev 0x0205 (ceilCmd 2000 1)
    Starts ceilDev 0x0205 (ceilCmd 2000 1) 1 ∧ o.portBlanked 1 = true ∧ 2000 + (o.rtp.map.tripMargin : Int) < o.outReading 1 := by
  and_intros <;> first | exact starts_of (by decide +kernel) | decide +kernel | exact h

theorem wit_PortCeilingAndMoveCancelTakeEffect :
    (let o := opn ceilDev 0x0205 (ceilCmd 2000 0)
     Starts ceilDev 0x0205 (ceilCmd 2000 0) 1 ∧ rd (ceilCmd 2000 0).payload 5 3 = 0 ∧ 1 < o.rtp.map.ports ∧
       (2000 : Int) ≤ signed 16 (o.fld (F.rtpCeiling_ceilMax 1)) ∧ rd (ceilCmd 2000 0).payload 4 1 = 0) ∧
    (let d := mapDev.setRegN (R.rtpCeiling 1) (1000 + 65536 * 2000)
     let o := opn d 0x0205 (ceilCmd 2000 1)
     Starts d 0x0205 (ceilCmd 2000 1) 1 ∧ rd (ceilCmd 2000 1).payload 4 1 = 1 ∧ o.linkReady (linkOf (o.voaOf 1)) = true ∧ o.rtp.loading = none ∧
       o.portBlanked 1 = false) ∧
    (let o := opn ceilDev 0x0205 (ceilCmd 2001 0)
     Starts ceilDev 0x0205 (ceilCmd 2001 0) 1 ∧ signed 16 (o.fld (F.rtpCeiling_ceilMax 1)) < 2001) ∧
    (let o := opn (moveDev false) 0x0302 (cmdOf (le 4 7))
     Starts (moveDev false) 0x0302 (cmdOf (le 4 7)) 1 ∧ o.rtp.moves.find? (fun m => m.owner = 1 && m.tag = 7) = some (moveOf1 false) ∧
       ∀ x ∈ (moveOf1 false).elems, x.started = false) ∧
    (let o := opn (moveDev true) 0x0302 (cmdOf (le 4 7))
     Starts (moveDev true) 0x0302 (cmdOf (le 4 7)) 1 ∧ o.rtp.moves.find? (fun m => m.owner = 1 && m.tag = 7) = some (moveOf1 true) ∧
       ∃ x ∈ (moveOf1 true).elems, x.started = true) ∧
    (let o := opn (moveDev true) 0x0302 (cmdOf (le 4 8))
     Starts (moveDev true) 0x0302 (cmdOf (le 4 8)) 1 ∧ o.rtp.moves.find? (fun m => m.owner = 1 && m.tag = 8) = none) := by
  and_intros <;> first | exact starts_of (by decide +kernel) | decide +kernel

/-- A coefficient set: c4 is 1, the others 0. -/
def setWords : List Word := [0, 0, 0, 0, 0x01400000, 0, 0, 0]
/-- A device with law slots 0 and 2, set 3, loop 0 bound to slot `s`, pinned, and engine 13 running. -/
def loopDev (s : Nat) : Dev :=
  { ((mapDev.setFld (F.lpcSlotInfo_len 2) 5).setFld (F.lpcSlotInfo_kind 2) 0).setFld (F.lpcEngStat_state 13) 2 with
    lpc := { sets := [(3, setWords)], loops := [(0, { slot := s, set := 3 })] }, plm := { pins := [⟨0, 13, 255, false, true⟩] } }

theorem wit_LoopAndPlacementCommandsTakeEffect :
    (let c := cmdOf (le 2 0 ++ le 1 2 ++ [0] ++ le 2 3 ++ le 2 0)
     let o := opn (loopDev 2) 0x0402 c
     Starts (loopDev 2) 0x0402 c 1 ∧ rd c.payload 3 1 = 0 ∧ rd c.payload 6 2 = 0 ∧ o.isDrive 0 = true ∧ o.slotEmpty 2 = false ∧
       o.slotKind 2 = o.rtp.map.kind 0 - 1 ∧ o.setFilled 3 = true ∧ o.linkReady (linkOf 0) = true ∧ o.inSluice 0 = false ∧ o.claimed 0 = false) ∧
    (let c := cmdOf (le 2 0 ++ le 1 48 ++ [0] ++ le 2 3 ++ le 2 0)
     let d := (((loopDev 2).setFld (F.lpcSlotInfo_len 48) 5).setFld (F.lpcSlotInfo_kind 48) 0).setFld (F.lpcEngStat_state 0) 2
     let o := opn d 0x0402 c
     Starts d 0x0402 c 1 ∧ o.slotEmpty 48 = false ∧ o.bindFits 0 48 3 = true) ∧
    (let c := cmdOf (le 4 0 ++ le 4 0)
     let o := opn (loopDev 2) 0x0404 c
     Starts (loopDev 2) 0x0404 c 1 ∧ o.isDrive 0 = true ∧ (o.loop 0).slot ≠ 0xFF ∧ (o.loop 0).slot ≠ 1 ∧ (o.loop 0).slot ≠ 0) ∧
    (let c := cmdOf (le 4 0 ++ le 4 0x01400000)
     let o := opn (loopDev 0) 0x0404 c
     Starts (loopDev 0) 0x0404 c 1 ∧ o.isDrive 0 = true ∧ (o.loop 0).slot = 0 ∧
       Frac.lt (Frac.mk2 1 10) (coefValue (0x01400000 : Word)).abs = true ∧ Frac.lt (Frac.mk2 1 10) (coefValue (0 : Word)).abs = false ∧
       o.linkReady (linkOf 0) = true) ∧
    (let c := cmdOf (le 2 0 ++ le 1 13 ++ [0xFF] ++ le 4 0)
     let o := opn (loopDev 2) 0x0501 c
     Starts (loopDev 2) 0x0501 c 1 ∧ o.rtp.map.kind 0 ≠ 0 ∧ (o.loop 0).slot ≠ 0xFF ∧ o.plm.pins.length < 512 ∧
       o.engCost 13 + o.slotCost (o.loop 0).slot ≤ 1100 ∧ o.fld (F.lpcEngStat_state 13) = 2 ∧ o.inSluice 0 = false ∧ (o.blocks 13)[0xFF]? = none) ∧
    (Starts (loopDev 2) 0x0502 (cmdOf (le 4 0)) 1 ∧ (opn (loopDev 2) 0x0502 (cmdOf (le 4 0))).pinned 0 = true) ∧
    Starts readyDev 0x0503 (cmdOf (le 2 6143 ++ le 2 1 ++ le 1 3 ++ zeros 3)) 1 := by
  and_intros <;> first | exact starts_of (by decide +kernel) | decide +kernel

/-- LAW_LOAD of a law without words into slot 63. -/
def lawCmd : Cmd :=
  { cmdOf (le 8 0 ++ le 4 32 ++ le 1 63 ++ zeros 99) with image := le 4 0x57414C4C ++ le 2 1 ++ [0, 63] ++ zeros 24 }
/-- COEF_SWAP of set 0x10FF. -/
def swapCmd : Cmd := cmdOf (le 2 1 ++ zeros 14 ++ le 2 0x10FF ++ le 2 0 ++ setWords.flatMap (fun w => le 4 w.toNat))

/-- The witness of LAW_LOAD; whether the law's signature verifies is not the model's to say. -/
theorem wit_LawLoadAndCoefSwapWaitForTheirBoundary_signed
    (h : Config.ecdsaVerify 5 (fitBytes (rd lawCmd.payload 8 4) lawCmd.image) ((lawCmd.payload.drop 16).take 96) = true) :
    let o := itm ownedDev 0x0401 lawCmd
    ownedDev.pairedActive = false ∧ Starts ownedDev 0x0401 lawCmd 1 ∧ rd lawCmd.payload 12 1 = 63 ∧
      o.lawCheck lawCmd.payload (fitBytes (rd lawCmd.payload 8 4) lawCmd.image) = none := by
  have key : (itm ownedDev 0x0401 lawCmd).hst.ownerKey = some 5 := by decide +kernel
  have good : (itm ownedDev 0x0401 lawCmd).lawCheck lawCmd.payload (fitBytes (rd lawCmd.payload 8 4) lawCmd.image) = none := by
    unfold Dev.lawCheck
    simp only [key, h]
    decide +kernel
  and_intros <;> first | exact good | exact starts_of (by decide +kernel) | decide +kernel

theorem wit_LawLoadAndCoefSwapWaitForTheirBoundary :
    (let l : LawLoad := ⟨1, 63, [], 3072, 0, 0, 0, 0, 0, [], 0⟩
     let d : Dev := { readyDev with lpc := { laws := [l] } }
     d.lpc.laws.find? (fun l => l.slot = 63) = some l ∧ d.lawWaits l = false) ∧
    (let l : LawLoad := ⟨1, 48, [], 3072, 3, 0, 0, 0, 0, [], 0⟩
     let d : Dev := { readyDev with lpc := { laws := [l] }, cmu := { lateStreak := 1 } }
     d.lpc.laws.find? (fun l => l.slot = 48) = some l ∧ d.lawWaits l = true) ∧
    (let o := itm readyDev 0x0403 swapCmd
     Starts readyDev 0x0403 swapCmd 1 ∧ rd swapCmd.payload 0 2 = 1 ∧ swapCmd.payload.length = 16 + 36 * 1 ∧ rd swapCmd.payload 2 6 = 0 ∧
       rd swapCmd.payload 8 8 ≤ o.frame + 400000 ∧ rd swapCmd.payload 16 2 = 0x10FF ∧ rd swapCmd.payload 18 2 = 0 ∧
       validSet (swapWords swapCmd.payload 0) = true ∧ o.lpc.swaps = []) ∧
    ({ readyDev with lpc := { swaps := [⟨1, 5, true, [0x10FF]⟩] } } : Dev).lpc.swaps = [⟨1, 5, true, [0x10FF]⟩] := by
  and_intros <;> first | exact starts_of (by decide +kernel) | decide +kernel

/-- TRACE_ARM of one signal, depth 4, triggered by source 422. -/
def traceCmd : Cmd := cmdOf (le 1 1 ++ le 1 2 ++ le 2 0 ++ le 4 4 ++ le 4 4 ++ le 8 422 ++ le 4 0 ++ (le 2 0x8064 ++ le 1 8 ++ [0]))
/-- HARVEST of the last byte of its region that is aligned. -/
def harvestCmd : Cmd := cmdOf (le 8 0x27FFFFFC0 ++ le 4 64 ++ le 4 0)

theorem wit_TraceIsArmedTriggeredAndHarvested :
    (Starts readyDev 0x0D01 traceCmd 1 ∧ rd traceCmd.payload 0 1 = 1 ∧ traceCmd.payload.length = 24 + 4 * 1 ∧ rd traceCmd.payload 1 1 = 2 ∧
      rd traceCmd.payload 12 8 = 422 ∧
      rd traceCmd.payload 2 2 = 0 ∧ rd traceCmd.payload 20 4 = 0 ∧ rd traceCmd.payload 24 2 = 0x8000 + 100 ∧ rd traceCmd.payload 26 1 ≤ 8 ∧
      rd traceCmd.payload 27 1 = 0 ∧ rd traceCmd.payload 4 4 ≤ 2097152 / (8 + 4 * 1) ∧ rd traceCmd.payload 8 4 ≤ rd traceCmd.payload 4 4 ∧
      (opn readyDev 0x0D01 traceCmd).flag F.lpcTraceStat_harvesting = false) ∧
    (let d := readyDev.setFld F.lpcTraceStat_tstate 1
     d.fld F.lpcTraceStat_tstate = 1 ∧ d.traceTriggers = true) ∧
    (let d := readyDev.setFld F.lpcTraceStat_tstate 2
     d.fld F.lpcTraceStat_tstate = 2 ∧ d.lpc.trace.left = 0 ∧ d.lpc.trace.trigDue = false) ∧
    Starts readyDev 0x0D03 (cmdOf []) 1 ∧
    (Starts readyDev 0x0D02 harvestCmd 1 ∧ rd harvestCmd.payload 0 8 % 64 = 0 ∧ 0x080000000 ≤ rd harvestCmd.payload 0 8 ∧
      rd harvestCmd.payload 0 8 + rd harvestCmd.payload 8 4 = 0x280000000 ∧ (itm readyDev 0x0D02 harvestCmd).tracing = false ∧
      (itm readyDev 0x0D02 harvestCmd).flag F.lpcTraceStat_harvesting = false) ∧
    (let d : Dev := { readyDev with lpc := { trace := { harvest := some (1, 0x080000000, 64) } }, mem := { ddr := [(1, 2)] } }
     d.lpc.trace.harvest = some (1, 0x080000000, 64) ∧ Memory.wf d.mem.ddr) := by
  and_intros <;> first | exact starts_of (by decide +kernel) | decide +kernel

/-- A device on whose engine 15 a block of slot 2 waits for loop 0. -/
def blockDev : Dev :=
  { mapDev with elk := { links := [(0, { ready := true })] }, lpc := { blocks := [(15, [⟨2, [some 0], 0⟩])] }, plm := { restores := [(0, 0)] } }

theorem wit_EngineAndPlacementRowsTakeEffect :
    ((blockDev.blocks 15)[0]? = some ⟨2, [some 0], 0⟩ ∧ blockDev.fld (F.lpcEngStat_state 15) ≠ 5 ∧ blockDev.nextBlock 15 = some 0) ∧
    blockDev.nextBlock 15 ≠ some 67 ∧ (blockDev.setFld (F.lpcEngStat_state 15) 5).fld (F.lpcEngStat_state 15) = 5 ∧
    (readyDev.flag F.cpxReady1_ucode = true ∧ (readyDev.setFlag F.cpxReady1_ucode false).flag F.cpxReady1_ucode = false ∧
      15 ∉ readyDev.lpc.rewritten ∧ 15 ∈ ({ readyDev with lpc := { rewritten := [15] } } : Dev).lpc.rewritten) ∧ (readyDev.setFlag F.cpxReady1_cmu false).flag F.cpxReady1_cmu = false ∧ readyDev.flag F.cpxReady1_cmu = true ∧
    (∃ r ∈ blockDev.plm.restores, r.1 = 0) ∧ (∀ r ∈ blockDev.plm.restores, r.1 ≠ 6143) := by
  and_intros <;> decide +kernel

theorem wit_MemoryAndJtagRowsTakeEffect : (5 : Nat) < 6 ∧ (1 : Nat) < 2 := by decide

/-- TRAIN_REPORT of train `t` at instant `at_` with speed `v`. -/
def trainCmd (t : Nat) (v : Nat) (at_ : Nat) : Cmd := cmdOf (le 1 t ++ [0] ++ le 2 0 ++ le 4 1000 ++ le 4 v ++ le 4 0 ++ le 8 at_)
/-- A device that tracks train 63. -/
def trainDev : Dev := { readyDev with tbu := { trains := [(63, ⟨0, 1000, 5, 150000, 5, 3⟩)] } }

theorem wit_TrainPositionRoundsTowardsReference :
    (0 : Int) ≤ (⟨0, 1000, 0, 3, 0, 3⟩ : Train).speed * (333333334 - 0) ∧ (⟨0, 1000, 0, -3, 0, 3⟩ : Train).speed * (333333334 - 0) ≤ 0 := by decide

theorem wit_TrainAndSensorCommandsTakeEffect :
    (let c := trainCmd 63 150000 10000000
     Starts readyDev 0x0601 c 1 ∧ rd c.payload 0 1 = 63 ∧ (signed 32 (rd c.payload 8 4)).natAbs = 150000 ∧ rd c.payload 1 1 = 0 ∧
       rd c.payload 12 4 = 0 ∧ (opn readyDev 0x0601 c).flag F.cpxReady1_ptp = true ∧
       (rd c.payload 16 8 : Int) ≤ (opn readyDev 0x0601 c).wall + 10000000 ∧ (opn readyDev 0x0601 c).fireAllDue.train 63 = none) ∧
    (let c := trainCmd 63 150000 5
     let d := readyDev.setFlag F.cpxReady1_ptp false
     Starts d 0x0601 c 1 ∧ (opn d 0x0601 c).flag F.cpxReady1_ptp = false ∧ (opn d 0x0601 c).fireAllDue.train 63 = none) ∧
    (let c := trainCmd 63 150000 5
     Starts trainDev 0x0601 c 1 ∧ (opn trainDev 0x0601 c).fireAllDue.train 63 = some ⟨0, 1000, 5, 150000, 5, 3⟩ ∧ rd c.payload 16 8 ≤ 5) ∧
    Starts trainDev 0x0602 (cmdOf (le 4 63)) 1 ∧
    (let c := cmdOf ([7, 3] ++ le 2 0 ++ le 4 0 ++ le 2 1000 ++ le 2 100 ++ le 4 100000)
     Starts readyDev 0x0603 c 1 ∧ rd c.payload 1 1 < 4 ∧ rd c.payload 8 2 = 1000 ∧ rd c.payload 10 2 = 100 ∧ rd c.payload 12 4 = 100000) := by
  and_intros <;> first | exact starts_of (by decide +kernel) | decide +kernel

/-- A tracker that runs. -/
def catDev : Dev := readyDev.setRegN R.tbuCatScale 1000
/-- A two-step Sync of version `v` from the one master that announces itself. -/
def syncMsg (v : Nat) : SyncMsg := ⟨v, false, 0, false, true, 0, 9, [⟨9, true, [128, 6]⟩], 100⟩
/-- A schedule entry 4095 in state `st` with a key of kind `k` and the predicted instant `p`. -/
def entryDev (st k : Nat) (p : Option Nat) : Dev :=
  { readyDev with tbu := { sched := [(4095, ⟨st, false, false, false, 1, 0x0201, 7, ⟨k, 0, 0, 0, 0⟩, 1, p, 0⟩)] } }

theorem wit_TimeMarkAndCatenaryRowsTakeEffect :
    (let d := readyDev.setFlag F.tbuPtpCtrl_en true
     d.syncUsable (syncMsg 2) = true ∧ d.syncUsable (syncMsg 1) = false) ∧
    (let d : Dev := { readyDev with tbu := { lastSync := some 5 } }
     d.flag F.cpxReady1_ptp = true ∧ d.fld F.tbuPtpStat_pstate ≠ 2 ∧ d.tbu.lastSync = some 5) ∧
    ({ readyDev with tbu := { holdoverFrom := some 5 } } : Dev).tbu.holdoverFrom = some 5 ∧ readyDev.tbu.holdoverFrom = none ∧
    (trainDev.train 63 = some ⟨0, 1000, 5, 150000, 5, 3⟩ ∧ (⟨0, 1000, 5, 150000, 5, 3⟩ : Train).level ≠ 0) ∧
    (∀ k ∈ [1, 2, 3], (∃ e, aget (entryDev 1 k (some 5)).tbu.sched 4095 = some e ∧ e.state = 1 ∧ e.predicted = some 5 ∧ e.key.kind = k) ∧
      (∃ e, aget (entryDev 2 k (some 5)).tbu.sched 4095 = some e ∧ e.state ≠ 1) ∧
      ∃ e, aget (entryDev 1 k none).tbu.sched 4095 = some e ∧ e.predicted = none) ∧
    (catDev.trackerRuns = true ∧ catDev.flag F.tbuCatStat_locked = false ∧ inLockRange (catDev.fld F.tbuCatCfg_system) (50 * 65536) = true ∧
      catDev.belowLoss 1500 = false) ∧
    (catDev.trackerRuns = true ∧ catDev.flag F.tbuCatStat_lost = false ∧ catDev.belowLoss 0 = true) ∧ readyDev.trackerRuns = false ∧
    (catDev.flag F.tbuCatStat_lost = false ∧ (catDev.setFlag F.tbuCatStat_lost true).flag F.tbuCatStat_lost = true) ∧
    (let d := (catDev.setFlag F.tbuCatStat_locked true).setAmplitude 15000
     d.flag F.tbuCatStat_locked = true ∧ inLockRange (d.fld F.tbuCatCfg_system) 0 = false ∧
       d.belowLoss (d.fld F.tbuCatStat_amplitude) = false) ∧
    ({ readyDev with tbu := { flywheelFrom := some 5 } } : Dev).tbu.flywheelFrom = some 5 ∧ readyDev.tbu.flywheelFrom = none ∧
    catCfgOk (readyDev.reg R.tbuCatCfg) = true ∧ catCfgOk 3#32 = false := by
  and_intros <;> decide +kernel

/-- A device in economy mode whose dwell runs, and whose throttle level may fall. -/
def dwellDev : Dev := { readyDev.setFlag F.thsEconStat_active true with ths := { dwellFrom := some 5, belowFrom := some 5 } }

theorem wit_FrameEconomySensorAndSupplyRowsTakeEffect :
    (readyDev.mem.porst = true ∧ readyDev.mem.brownOut = false) ∧ ({ readyDev with mem := { porst := false } } : Dev).mem.porst = false ∧
    (dwellDev.ths.dwellFrom = some 5 ∧ dwellDev.economy = true) ∧ readyDev.ths.dwellFrom = none ∧ readyDev.ths.belowFrom = none ∧
    (dwellDev.ths.belowFrom = some 5 ∧ (dwellDev.advance (5 + 800000000)).flag F.thsStat_divMode = false ∧
      ((dwellDev.setFlag F.thsStat_divMode true).advance (5 + 800000000)).flag F.thsStat_divMode = true) ∧
    (readyDev.sensor 27).hist = [] ∧
    (readyDev.railGood 11 0 = false ∧ bit ((readyDev.setBitAt R.thsSupStat 11 true).regN R.thsSupStat) 11 = true ∧
      (readyDev.setBitAt R.thsSupStat 11 true).railGood 11 0 = false) ∧
    (let d := readyDev.setBitAt R.thsSupStat 11 false
     d.railGood 11 12000 = true ∧ bit (d.regN R.thsSupStat) 11 = false) := by
  and_intros <;> decide +kernel

/-- A device with ring pair 7 as in reset, and one with it running. -/
def ringDev (en : Bool) : Dev := readyDev.setFlag (F.cpxRingCtrl_en 7) en

/-- A write of `v` with `en` to RING_CTRL of that pair, as it stands before the pair is enabled. -/
def namedRing (v : Word) : Dev :=
  let w := v ||| 0x10000#32
  let d1 := if fieldOf (F.cpxRingCtrl_requester 7) w = (ringDev false).fld (F.cpxRingCtrl_requester 7) then ringDev false
    else (ringDev false).setFld (F.cpxRingCtrl_requester 7) (fieldOf (F.cpxRingCtrl_requester 7) w)
  (d1.setFld (F.cpxRingCtrl_irqEn 7) (fieldOf (F.cpxRingCtrl_irqEn 7) w)).setFld (F.cpxRingCtrl_coalesce 7) (fieldOf (F.cpxRingCtrl_coalesce 7) w)

theorem wit_RingRegistersFollowTheirWrites :
    (readyDev.setFlag F.cpxReady1_pcie false).flag F.cpxReady1_pcie = false ∧ (ringDev false).flag F.cpxReady1_pcie = true ∧
    (let d := (readyDev.setFld (F.cpxCqTail_slot 7) 4).setFld (F.cpxCqSize_log2Slots 7) 4
     (d.setReg (R.cpxCqHead 7) (5#32 &&& 0xFFF)).cqFull 7 = true ∧ (d.setReg (R.cpxCqHead 7) (6#32 &&& 0xFFF)).cqFull 7 = false) ∧
    ((ringDev true).flag (F.cpxRingCtrl_en 7) = true ∧ (ringDev false).flag (F.cpxRingCtrl_en 7) = false) ∧
    (4 ≤ (4#32).toNat % 16 ∧ (12#32).toNat % 16 ≤ 12 ∧ (3#32).toNat % 16 < 4 ∧ 12 < (13#32).toNat % 16) ∧
    ((namedRing 2).flag (F.cpxRingCtrl_en 7) = false ∧ (namedRing 2).fld (F.cpxRingCtrl_requester 7) = 2) ∧
    ((namedRing 0).flag (F.cpxRingCtrl_en 7) = false ∧ (namedRing 0).fld (F.cpxRingCtrl_requester 7) = 0) ∧
    ((namedRing 1).flag (F.cpxRingCtrl_en 7) = false ∧ (namedRing 1).fld (F.cpxRingCtrl_requester 7) = 1) ∧
    ((namedRing 2).requesterTaken 2 = false ∧ ((namedRing 2).ring 7).disabling = false) ∧ (namedRing 1).requesterTaken 1 = true ∧
    readyDev.flag F.cpxEqSize_en = false := by
  and_intros <;> decide +kernel

/-- A heartbeat datagram of 16 bytes without payload: DEV_INFO with length 0. -/
def dgram : Bytes := le 2 0x0604 ++ le 2 0 ++ le 2 1 ++ le 2 0 ++ zeros 8

theorem wit_RingAndDatagramRowsTakeEffect :
    (let d := readyDev.setRing 7 { disabling := true }
     (d.ring 7).disabling = true ∧ d.ringIdle 7 = true) ∧
    (readyDev.ring 7).disabling = false ∧ (ringDev true).flag (F.cpxRingCtrl_en 7) = true ∧ (ringDev false).flag (F.cpxRingCtrl_en 7) = false ∧
    (let d := ((readyDev.setRing 7 { fullSince := some 5 }).setFld (F.cpxCqSize_log2Slots 7) 4).setFld (F.cpxCqTail_slot 7) 15
     (d.ring 7).fullSince = some 5 ∧ d.cqFull 7 = true) ∧
    (readyDev.ring 7).fullSince = none ∧ ((readyDev.setRing 7 { unsignalled := 1 }).ring 7).unsignalled ≠ 0 ∧ (readyDev.ring 7).unsignalled = 0 ∧
    (readyDev.setFlag F.cpxReady1_mgmt false).flag F.cpxReady1_mgmt = false ∧
    (readyDev.flag F.cpxReady1_mgmt = true ∧ readyDev.flag F.cpxUdpCfg_en = false) ∧
    (ownedDev.flag F.cpxReady1_mgmt = true ∧ ownedDev.flag F.cpxUdpCfg_en = true ∧ dgram.length = 16 + rd dgram 6 2 ∧ ownedDev.cpx.accepting = true ∧
      (dgram ++ [0]).length ≠ 16 + rd (dgram ++ [0]) 6 2) := by
  and_intros <;> decide +kernel

theorem wit_DirectWritesFollowTheAccessCode :
    (readyDev.setFlag F.cpxReady1_pcie false).flag F.cpxReady1_pcie = false ∧ regBankAt 0x13FFFC = none ∧
    (∃ k, regBankAt R.tbuCatStat = some k ∧ k.acc = .ro) ∧ (∃ k, regBankAt R.lpcEngEn = some k ∧ k.acc = .rw) ∧
    (∃ k, regBankAt R.tbuCatCfg = some k ∧ k.acc = .cw) ∧ (∃ k, regBankAt (R.elkLinkErr 31) = some k ∧ k.acc = .w1c) ∧
    readyDev.flag F.cpxReady1_pcie = true ∧ indexAt (R.lpcEngErr 0) 0x10 16 (R.elkLinkErr 31) = none ∧
    indexAt (R.cpxRingStat 0) 0x40 8 (R.elkLinkErr 31) = none ∧ (∃ k, regBankAt (R.cpxSqTail 7) = some k ∧ k.acc = .d) ∧
    (∃ k, regBankAt (R.cpxRingStat 7) = some k ∧ k.acc = .w1c ∧ indexAt (R.lpcEngErr 0) 0x10 16 (R.cpxRingStat 7) = none ∧
      indexAt (R.cpxRingStat 0) 0x40 8 (R.cpxRingStat 7) = some 7) ∧
    (∃ k, regBankAt (R.lpcEngErr 15) = some k ∧ k.acc = .w1c ∧ indexAt (R.lpcEngErr 0) 0x10 16 (R.lpcEngErr 15) = some 15) ∧
    (readyDev.flag (F.lpcEngErr_stopped 15) = false ∧ (readyDev.setFlag (F.lpcEngErr_stopped 15) true).flag (F.lpcEngErr_stopped 15) = true ∧
      bit (7#32).toNat 0 = true) :=
  ⟨by decide +kernel, by decide +kernel, ⟨_, rfl, by decide +kernel⟩, ⟨_, rfl, by decide +kernel⟩, ⟨_, rfl, by decide +kernel⟩,
    ⟨_, rfl, by decide +kernel⟩, by decide +kernel, by decide +kernel, by decide +kernel, ⟨_, rfl, by decide +kernel⟩,
    ⟨_, rfl, by decide +kernel⟩, ⟨_, rfl, by decide +kernel⟩, by decide +kernel⟩

theorem wit_ColdStartReturnsRegistersToReset :
    7 < 2 ^ (F.hstResetCause_cause).width ∧ R.lpcEngEn ∉ keptRegs ∧ R.lpcEngEn ≠ R.twnStat ∧ (∀ i < 8, R.lpcEngEn ≠ R.hstNonce i) ∧
    (∃ off ∈ keptRegs, off ≠ R.hstResetCause ∧ off ≠ R.hstColdCount) := by decide +kernel

theorem wit_PowerAndResetRowsTakeEffect :
    (let d : Dev := { readyDev with mem := { porst := false } }
     d.mem.porst = false ∧ d.mem.brownOut = false) ∧ readyDev.mem.porst = true ∧
    ({ readyDev with mem := { brownOut := true } } : Dev).mem.brownOut = true ∧ readyDev.mem.brownOut = false ∧
    (let d : Dev := { readyDev with hst := { restartDue := some 5 } }
     d.hst.restartDue = some 5 ∧ ∀ i < 8, d.fld F.fltSafeCause_source ≠ 404 + i) ∧ readyDev.hst.restartDue = none ∧
    readyDev.flag F.cpxReady1_pcie = true ∧ (readyDev.setFlag F.cpxReady1_pcie false).flag F.cpxReady1_pcie = false := by
  and_intros <;> decide +kernel

/-- A slot image that passes every check, and one whose vendor signature fails. -/
def slotImg (ok : Bool) : SlotImage := ⟨1, 0, 0, ok, true, true, none, none, [], [], [], [], [], [], [], none⟩
/-- The device as `slotRefusal` sees it: rollback value `r`, and the owner key `k`. -/
def rollDev (r : Nat) (k : Option Nat) : Dev := { readyDev.setFld F.hstRollback_value r with hst := { ownerKey := k } }
/-- A device that has not booted. -/
def coldDev : Dev := { now := 5 }

theorem wit_BootTriesStagedSlotFirst :
    (coldDev.mem.porst = true ∧ coldDev.mem.brownOut = false ∧ coldDev.flag F.cpxReady1_boot = false ∧ coldDev.flag F.hstBootStat_noImage = false ∧
      coldDev.hst.warm = false ∧ coldDev.slotRefusal (slotImg true) = 0 ∧ coldDev.slotRefusal (slotImg false) ≠ 0) ∧
    (let d : Dev := { readyDev with hst := { update := some (1, 0, []) } }
     d.hst.update = some (1, 0, []) ∧ d.slotRefusal (slotImg true) = 0 ∧ d.slotRefusal (slotImg false) ≠ 0) ∧ readyDev.hst.update = none ∧
    (coldDev.hst.staged = none ∧ ({ coldDev with hst := { staged := some (1, slotImg true) } } : Dev).hst.staged = some (1, slotImg true)) ∧
    (({ slotImg true with tagOk := false } : SlotImage).vendorSig = true ∧ ({ slotImg true with digestOk := false } : SlotImage).tagOk = true ∧
      (slotImg true).rollback < (rollDev 1 none).fld F.hstRollback_value ∧ (rollDev 0 none).fld F.hstRollback_value ≤ (slotImg true).rollback ∧
      ¬ ((rollDev 0 (some 5)).hst.ownerKey = none ∨ (slotImg true).ownerSig = (rollDev 0 (some 5)).hst.ownerKey) ∧
      ({ slotImg true with ownerSig := some 5 } : SlotImage).ownerSig = (rollDev 0 (some 5)).hst.ownerKey) ∧
    coldDev.readyNeeds 31 = false ∧ readyDev.readyNeeds 2 = true ∧ readyDev.readyNeeds 13 = true ∧
    (∃ x ∈ [readyDev.setFld (F.elkLinkStat_state 31) 6], x.readyNeeds (32 + 31) = true ∧ x.linkState 31 ≠ 5) ∧
    (let d := readyDev.setFld (F.elkLinkStat_state 31) 5
     d.readyNeeds (32 + 31) = true ∧ d.linkState 31 = 5) := by
  and_intros <;> decide +kernel

/-- A device whose SST may start: cell 47 alone on chain 7, limits and sets given. -/
def sstDev : Dev :=
  { (readyDev |>.setBitAt R.clnChainEn 7 true |>.setFld (F.clnChainCfg_base 7) 47 |>.setFld (F.clnChainCfg_nCells 7) 1
      |>.setFlag F.lpcPowerCfg_reserve true |>.setFld F.cmuVdcLim_vdcOv 2000 |>.setFld F.cmuPlim_pLim 1 |>.setFld F.cmuPlim_iLim 1
      |>.setFld F.cmuIcatCfg_icatOc 1 |>.setFld F.cmuCellCfg_nMin 1 |>.setFld (F.clnChainStat_state 7) 4) with
    lpc := { sets := (List.range 7).map (fun i => (0x1000 + i, setWords)) } }
/-- SST_START. -/
def sstCmd : Cmd := cmdOf (le 2 1999 ++ le 2 1900 ++ le 2 5000 ++ le 2 100 ++ [95, 0] ++ le 2 10 ++ le 2 2000 ++ zeros 10)
/-- The SST at stage `n`. -/
def stageDev (n : Nat) : Dev := sstDev.setFld F.cmuSstStat_stage n

theorem wit_SstCommandsBegin :
    (let o := itm sstDev 0x0701 sstCmd
     let d1 := (o.configuredCells.foldl (fun d n => d.setFld (F.cmuCellSvc_svc n) (d.startSvc n)) o).countService
     sstDev.pairedActive = false ∧ Starts sstDev 0x0701 sstCmd 1 ∧ o.startRefusal sstCmd.payload d1.inService.length = 0) ∧
    (let c := cmdOf (le 2 5000 ++ le 2 0)
     Starts (stageDev 5) 0x0702 c 1 ∧ 1 ≤ (itm (stageDev 5) 0x0702 c).stage ∧ (itm (stageDev 5) 0x0702 c).stage ≤ 5 ∧ rd c.payload 0 2 = 5000) ∧
    (let c := cmdOf (le 2 5000 ++ le 2 0)
     Starts (stageDev 8) 0x0702 c 1 ∧ 6 ≤ (itm (stageDev 8) 0x0702 c).stage ∧ (itm (stageDev 8) 0x0702 c).stage ≤ 8) ∧
    (let c := cmdOf (le 4 80)
     Starts (stageDev 6) 0x0703 c 1 ∧ rd c.payload 1 3 = 0 ∧ (itm (stageDev 6) 0x0703 c).stage = 6 ∧ (itm (stageDev 6) 0x0703 c).cmu.nextPeriod = none) ∧
    (let c := cmdOf (le 1 47 ++ zeros 23)
     Starts sstDev 0x0704 c 1 ∧ rd c.payload 1 7 = 0 ∧ (keyAt c.payload 8).kind = 0) ∧
    (let c := cmdOf ([0, 0] ++ le 2 1000 ++ zeros 20)
     Starts sstDev 0x0705 c 1 ∧ (keyAt c.payload 8).kind = 0 ∧ rd c.payload 0 1 = 0 ∧ rd c.payload 1 1 = 0 ∧ rd c.payload 2 2 = 1000) := by
  and_intros <;> first | exact starts_of (by decide +kernel) | decide +kernel

/-- LEG_CONFIG of leg 7 in mode `m`. -/
def legCmd (m : Nat) : Cmd :=
  cmdOf ([7] ++ le 1 m ++ le 2 16 ++ le 2 4095 ++ le 2 400 ++ le 2 1000 ++ [250, 6, 255, 0] ++ le 2 400 ++ le 4 (if 2 ≤ m then 0 else 400000) ++
    le 4 (if 2 ≤ m then 400 else 0) ++ le 2 2000 ++ le 2 50000 ++ zeros 4)
/-- Leg `l` in state `s`, DRV_EN high. -/
def legDev (l s : Nat) : Dev :=
  readyDev |>.setFld (F.pwmLegStat_state l) s |>.setFlag F.gdpStat_drvEn true |>.setFld (F.pwmLegCfg_src l) 1 |>.setFld F.pwmLvref_target 5000

theorem wit_LegCommandsTakeEffect :
    (Starts readyDev 0x0801 (legCmd 3) 1 ∧ legConfigOk (legCmd 3).payload = true ∧ (opn readyDev 0x0801 (legCmd 3)).legState 7 = 0 ∧
      2 ≤ rd (legCmd 3).payload 1 1 % 4) ∧
    (Starts readyDev 0x0801 (legCmd 1) 1 ∧ legConfigOk (legCmd 1).payload = true ∧ rd (legCmd 1).payload 1 1 % 4 < 2) ∧
    (Starts (legDev 7 2) 0x0801 (legCmd 3) 1 ∧ (opn (legDev 7 2) 0x0801 (legCmd 3)).legState 7 ≠ 0) ∧
    (let c := cmdOf [0x80, 1, 0, 0]
     Starts (legDev 7 0) 0x0802 c 1 ∧ rd c.payload 1 1 = 1 ∧ (itm (legDev 7 0) 0x0802 c).enableRefusal 0x80 = 0) ∧
    (Starts (legDev 7 2) 0x0802 (cmdOf [0x80, 0, 0, 0]) 1 ∧ rd (cmdOf [0x80, 0, 0, 0]).payload 1 1 = 0) ∧
    (let c := cmdOf (le 2 16000 ++ le 2 5000 ++ le 4 0)
     Starts readyDev 0x0803 c 1 ∧ rd c.payload 0 2 = 16000 ∧ rd c.payload 2 2 = 5000 ∧ ((opn readyDev 0x0803 c).lane 100).run = false) ∧
    (let c := cmdOf (le 2 3600 ++ le 2 1 ++ le 4 0)
     let d : Dev := { readyDev with cmu := { lanes := [(100, { run := true })] } }
     Starts d 0x0803 c 1 ∧ ((opn d 0x0803 c).lane 100).run = true) := by
  and_intros <;> first | exact starts_of (by decide +kernel) | decide +kernel

/-- Stage 6 with a half-cycle mean in cell 47, so that the common modulation is at its bound of 0. -/
def pastDev : Dev :=
  { (stageDev 6).setFlag F.lpcPowerCfg_reserve false |>.setFld F.cmuModCfg_mMax 0 with cln := { cells := [(47, { hist := [1000] })] } }
/-- The limits of a start and of a coast run, and BRK_TRIP is asserted. -/
def limitDev : Dev :=
  { readyDev.setFlag F.cmuProtStat_brk true with
    cmu := { startCmd := some (1, ⟨0, 0, 0, 0, 0, 0, 0, 0⟩), coastFrom := some 5, lanes := [(100, { run := true })] } }

/-- The device at 0.40P once the outputs are published. -/
def publishedDev (d : Dev) : Dev :=
  let d1 := d.advance (d.periodInstant 40)
  (if d1.flag F.lpcPowerCfg_reserve then d1.publishPower else d1).leaveBypassed
/-- The device at 0.25P once the protections are checked. -/
def measuredDev (d : Dev) : Dev :=
  let d1 := (d.advance (d.periodInstant 25)).takeMeasurements
  (d1.setReg R.pwmPlv (coefWord d1.pLv)).checkProtections

theorem wit_ControlPeriodRowsTakeEffect :
    (measuredDev (readyDev.setFlag F.lpcPowerCfg_reserve false)).flag F.lpcPowerCfg_reserve = false ∧
    (measuredDev (readyDev.setFlag F.lpcPowerCfg_reserve true)).flag F.lpcPowerCfg_reserve = true ∧
    (3 ≤ (publishedDev pastDev).stage ∧ (publishedDev pastDev).stage ≤ 9 ∧
      Frac.le (Frac.mk2 ((publishedDev pastDev).fld F.cmuModCfg_mMax) 100) ((publishedDev pastDev).mCommon (publishedDev pastDev).cmu.outNow).abs = true) ∧
    ¬ 3 ≤ (publishedDev readyDev).stage ∧
    ((readyDev.advance (readyDev.periodInstant 50)).lane 100).run = false ∧ ((limitDev.advance (limitDev.periodInstant 50)).lane 100).run = true ∧
    limitDev.cmu.startCmd.isSome = true ∧ readyDev.cmu.startCmd = none ∧ limitDev.cmu.coastFrom = some 5 ∧ readyDev.cmu.coastFrom = none ∧
    (limitDev.flag F.cmuProtStat_brk = true ∧ limitDev.brkLatchClear = true) ∧ readyDev.flag F.cmuProtStat_brk = false ∧
    ((stageDev 9).stage = 9 ∧ (stageDev 1).stage = 1) ∧ (readyDev.stage = 0 ∧ 9 < (stageDev 10).stage) := by
  and_intros <;> decide +kernel

/-- A device whose chain 7, with a cell that has been seen and is neither blocked nor bypassed, wants to be enabled or disabled. -/
def cellsDev (en : Bool) : Dev :=
  { sstDev.setBitAt R.clnChainEn 7 en with cln := { cells := [(47, { seen := true })] } }

/-- Chain 7 in state `st` with one command of cell 47 sent `r` times, in period `k`. -/
def chainDev (st r k : Nat) : Dev :=
  { sstDev.setFld (F.clnChainStat_state 7) st |>.setFlag F.cpxReady1_twin false with
    cln := { cells := [(47, { cmds := [⟨5, 3, 0, 0, r, none⟩] })], chains := [(7, { stateFrom := 0, silent := 3 })] }, cmu := { k := k },
    now := tickS }

theorem wit_ChainRowsTakeEffect :
    ((cellsDev false).bitAt R.clnChainEn 7 = false ∧ (cellsDev false).chainConflicts 7 = false ∧
      (let d := ((cellsDev false).setBitAt R.clnChainEn 7 true).setBitAt R.clnDrained 7 false
       d.wiringOk 7 = false ∧ (((cellsDev false).setFlag F.cpxReady1_twin false).setBitAt R.clnChainEn 7 true).wiringOk 7 = true)) ∧
    (let d := ((cellsDev false).setBitAt R.clnChainEn 0 true |>.setFld (F.clnChainCfg_base 0) 40).setFld (F.clnChainCfg_nCells 0) 8
     d.chainConflicts 7 = true) ∧
    ((cellsDev true).chainBusy 7 = true ∧ (cellsDev true).bitAt R.clnChainEn 7 = true ∧ sstDev.bitAt R.clnChainEn 7 = true ∧
      sstDev.chainBusy 7 = false) ∧
    ((chainDev 4 0 0).cmdDue 47 = none ∧ (chainDev 4 0 1000).cmdDue 47 = some ⟨5, 3, 0, 0, 0, none⟩ ∧
      (chainDev 4 0 1000).cellPlace 47 = some (7, 0) ∧ 0 < (chainDev 4 0 1000).fld F.clnCfg_cmdRetry) ∧
    ((chainDev 4 100 1000).cmdDue 47 = some ⟨5, 3, 0, 0, 100, none⟩ ∧ (chainDev 4 100 1000).fld F.clnCfg_cmdRetry ≤ 100 ∧
      (let d := (chainDev 4 0 1000).setBitAt R.clnChainEn 7 false
       d.cmdDue 47 = some ⟨5, 3, 0, 0, 0, none⟩ ∧ d.cellPlace 47 = none)) ∧
    ((chainDev 4 0 0).chainPorts 7).contains 6 = false ∧
    (((chainDev 1 0 0).chainState 7 < 2 ∧ 4 < (chainDev 5 0 0).chainState 7) ∧
      (let d := (chainDev 4 0 0).setChain 7 { lostPorts := 128 }
       (d.chainPorts 7).all (fun p => bit (d.chain 7).lostPorts p) = true) ∧
      (let d := (chainDev 4 0 0).setChain 7 { silent := 2 }
       (d.chainPorts 7).all (fun p => bit (d.chain 7).lostPorts p) = false ∧ (d.chain 7).silent < 3)) ∧
    (chainDev 5 0 0).chainState 7 = 5 ∧
    ((chainDev 1 0 0).chainState 7 = 1 ∧ ((chainDev 1 0 0).chain 7).retryAt = none ∧ (chainDev 1 0 0).bitAt R.clnChainEn 7 = true) ∧
    ((chainDev 0 0 0).setBitAt R.clnChainEn 7 false).bitAt R.clnChainEn 7 = false ∧
    (let d := (chainDev 3 0 0).setFld (F.clnCellDly_a 47) 5001
     d.chainState 7 = 3 ∧ ∃ x ∈ d.chainDelays 7, 5000 < x) ∧
    ((chainDev 4 0 0).chainPorts 7).contains 7 = true ∧
    (2 ≤ (chainDev 4 0 0).chainState 7 ∧ 3 ≤ ((chainDev 4 0 0).chain 7).silent) ∧
    ((chainDev 0 0 0).bitAt R.clnChainEn 7 = true ∧ ((chainDev 0 0 0).chain 7).retryAt = none ∧ (chainDev 0 0 0).chainState 7 = 0 ∧
      (chainDev 0 0 0).wiringOk 7 = true) ∧
    ((chainDev 2 0 0).chainState 7 = 2 ∧ (chainDev 2 0 0).discovered 7 = true) ∧
    (let d := ((chainDev 3 0 0).setFld (F.clnCellDly_a 47) 5000)
     d.chainState 7 = 3 ∧ (∀ x ∈ d.chainDelays 7, x ≠ 0 ∧ x ≤ 5000) ∧ d.chainDelays 7 = [5000]) ∧
    (let d : Dev := { sstDev with cln := { chains := [(7, { retryAt := some 5 })] } }
     (d.chain 7).retryAt = some 5 ∧ d.bitAt R.clnChainEn 7 = true) ∧ (readyDev.chain 7).retryAt = none := by
  and_intros <;> decide +kernel

/-- A record of a cell with its CRC; `b` is what follows the hop byte. -/
def cellRec (type : Nat) (b : Bytes) : WireRec :=
  ⟨le 1 type ++ [0xF0] ++ b ++ le 4 (crc32c (le 1 type ++ b))⟩

/-- A device that waits for cell 47's answers; `l` are its earlier PINGs. -/
def cellDev (l : List Nat) : Dev :=
  { (chainDev 4 0 7).setFld (F.clnCellStat_missed 47) 0 with
    cln := { cells := [(47, { pingsA := l, cmds := [⟨5, 3, 0, 0, 0, none⟩, ⟨6, 3, 0, 0, 0, some 1⟩], missed := 1000 })] } }

/-- MEAS of period `k` from position `p`. -/
def measRec (k p : Nat) : WireRec := cellRec 0x20 ([0] ++ le 1 p ++ zeros 4 ++ le 4 k ++ zeros 16)
/-- PONG. -/
def pongRec : WireRec := cellRec 0x21 (zeros 18)
/-- The device once MEAS of the current period is taken from side A. -/
def measured (d : Dev) : Dev :=
  let d1 := d.takeMeas 7 47 (measRec 7 0).bytes
  d1.setCellNode 47 { d1.cellNode 47 with sideA := true }
/-- ACK of command `n` with code `e`. -/
def ackRec (n e : Nat) : WireRec := cellRec 0x22 (zeros 6 ++ le 4 n ++ le 1 e ++ zeros 3)

theorem wit_CellRecordsTakeEffect :
    let d := cellDev []
    (d.chainState 7 ≤ 4 ∧ (d.chainPorts 7).contains 7 = true ∧ 3 ≤ d.chainState 7) ∧ (chainDev 1 0 0).chainState 7 < 2 ∧ cellRecordOk ⟨[]⟩ 0x20 32 = false ∧
    (cellRecordOk (measRec 8 0) 0x20 32 = true ∧ rd (measRec 8 0).bytes 8 4 ≠ d.cmu.k % 2 ^ 32) ∧
    (cellRecordOk (measRec 7 0) 0x20 32 = true ∧ rd (measRec 7 0).bytes 8 4 = d.cmu.k % 2 ^ 32 ∧ d.posAgrees 7 7 (measRec 7 0).bytes = true ∧
      d.recordCell 7 (measRec 7 0).bytes = 47 ∧ (d.cellNode 47).got = false ∧ (measured d).claims = false) ∧
    (let u := (cellDev []).setFlag F.twnStat_claimOut true
     (measured u).claims = true ∧ outranks 1 1 (measured u).term (measured u).unit = true ∧
       outranks (rd (measRec 7 0).bytes 4 2) (rd (measRec 7 0).bytes 2 1 % 2) (measured u).term (measured u).unit = false) ∧
    (cellRecordOk (measRec 7 1) 0x20 32 = true ∧ d.posAgrees 7 7 (measRec 7 1).bytes = false) ∧
    (cellRecordOk pongRec 0x21 24 = true ∧ d.posAgrees 7 7 pongRec.bytes = true ∧ (d.cellNode 47).pingsA.length < 15 ∧
      15 ≤ ((cellDev (List.replicate 15 1)).cellNode 47).pingsA.length) ∧
    (cellRecordOk (ackRec 5 0) 0x22 20 = true ∧ d.posAgrees 7 7 (ackRec 5 0).bytes = true ∧
      (d.cellNode 47).cmds.find? (fun z => z.cseq = rd (ackRec 5 0).bytes 8 4) = some ⟨5, 3, 0, 0, 0, none⟩) ∧
    (cellRecordOk (ackRec 6 3) 0x22 20 = true ∧ rd (ackRec 6 3).bytes 12 1 = 3 ∧
      (d.cellNode 47).cmds.find? (fun z => z.cseq = rd (ackRec 6 3).bytes 8 4) = some ⟨6, 3, 0, 0, 0, some 1⟩) ∧
    (cellRecordOk (ackRec 6 1) 0x22 20 = true ∧ rd (ackRec 6 1).bytes 12 1 ≠ 0 ∧ rd (ackRec 6 1).bytes 12 1 ≠ 3) ∧
    (d.chainPorts 7).contains 6 = false ∧
    (d.cellPlace 47 = some (7, 0) ∧ d.chainState 7 = 4 ∧ d.flag (F.clnCellStat_lost 47) = false ∧ d.flag (F.clnCellStat_absent 47) = false ∧
      d.fld F.clnCfg_cellMiss ≤ (d.cellNode 47).missed ∧ d.fld (F.cmuCellSvc_svc 47) = 0 ∧
      (d.setFld (F.cmuCellSvc_svc 47) 2).fld (F.cmuCellSvc_svc 47) ≠ 0) := by
  and_intros <;> decide +kernel

/-- Leg 7 in state `s` with update mode `u`, its triggers at tick 5. -/
def runDev (s u : Nat) : Dev :=
  { (legDev 7 s).setFld (F.pwmLegCfg_upd 7) u |>.setFld (F.pwmLegCfg_bstN 7) 1 |>.setFld (F.pwmPerAct_v 7) 16000 with
    pwm := { legs := [(7, { high := 16000, trgA := some 5, trgB := some 15999 })] } }

theorem wit_LegRowsTakeEffect :
    readyDev.flag F.cpxReady1_pcie = true ∧ (readyDev.setFld (F.pwmLegCfg_src 7) 0).legLv 7 = true ∧ (legDev 7 0).legLv 7 = false ∧
    (((runDev 2 1).legState 7 = 2 ∧ (runDev 3 1).legState 7 = 3 ∧ (runDev 5 1).legState 7 = 5) ∧ (runDev 2 1).fld (F.pwmLegCfg_upd 7) = 1 ∧
      ((runDev 2 1).leg 7).half = false) ∧
    (runDev 2 0).fld (F.pwmLegCfg_upd 7) ≠ 1 ∧
    (((runDev 2 0).leg 7).refreshed = false ∧ (runDev 2 0).legPeriod 7 ≤ ((runDev 2 0).leg 7).high ∧
      (runDev 2 0).fld (F.pwmLegCfg_bstN 7) ≤ (runDev 2 0).fld (F.pwmLegStat_noLo 7) + 1) ∧
    ((runDev 0 0).legState 7 = 0 ∧ (runDev 4 0).legState 7 = 4) ∧ (runDev 1 0).legState 7 = 1 ∧
    (((runDev 2 0).leg 7).trgB = some 15999 ∧ ((runDev 2 0).leg 7).trgA = some 5 ∧ 15999 < (runDev 2 0).legPeriod 7) ∧
    (((legDev 7 0).setFlag (F.gdpLegLatch_cmpMain 7) true).blanked 7 = false ∧
      (let d : Dev := { (legDev 7 1).setFld (F.gdpLegProt_blank 7) 1000 with pwm := { legs := [(7, { chargeEnd := 10 * tickUs })] } }
       (d.setFlag (F.gdpLegLatch_cmpMain 7) true).blanked 7 = true)) ∧
    ((readyDev.setFlag F.gdpStat_drvEn false).flag F.gdpStat_drvEn = false) ∧
    ((legDev 7 0).flag F.gdpStat_drvEn = true ∧ (List.range 8).filter (legDev 7 0).legEnabled = []) ∧ (legDev 7 2).legEnabled 7 = true ∧
    (readyDev.now < readyDev.pwm.drvLowAt + 10 * tickUs ∧ ({ readyDev with now := 10 * tickUs } : Dev).pwm.drvLowAt + 10 * tickUs ≤ 10 * tickUs) ∧
    (readyDev.flag (F.gdpLegLatch_bstUv 7) = false ∧ (readyDev.setFlag (F.gdpLegLatch_bstUv 7) true).flag (F.gdpLegLatch_bstUv 7) = true) := by
  and_intros <;> decide +kernel

/-- ADC_CONFIG of pair 5: slot 7 converts input 31 at every strobe. -/
def adcCmd : Cmd := cmdOf ([5, 2, 0x80] ++ zeros 5 ++ zeros 28 ++ le 4 (1 + 256 * 31))
/-- The slot words as that command leaves them. -/
def adcWord (k : Nat) : Nat := if bit 0x80 k then rd adcCmd.payload (8 + 4 * k) 4 else (opn readyDev 0x0901 adcCmd).comingSlot 5 k
/-- DAC_CONFIG of channel 15. -/
def dacCmd (spn : Nat) : Cmd := cmdOf ([15] ++ le 1 spn ++ [1, 0] ++ le 2 16 ++ le 2 0)
/-- Channel 15 in state `st`. -/
def dacDev (st : Nat) : Dev := readyDev.setFld (F.dacChStat_cstate 15) st
/-- DAC_ENABLE of channel 15. -/
def dacOnCmd (en : Nat) : Cmd := cmdOf (le 2 0x8000 ++ le 1 en ++ [0])

theorem wit_ConverterCommandsTakeEffect :
    (let o := opn readyDev 0x0901 adcCmd
     readyDev.pairedActive = false ∧ Starts readyDev 0x0901 adcCmd 1 ∧ rd adcCmd.payload 3 5 = 0 ∧
       (∀ k < 8, bit 0x80 k = false → rd adcCmd.payload (8 + 4 * k) 4 = 0) ∧ (∀ k ∈ bitsOf 0x80 8, slotOk 5 (adcWord k) = true) ∧ slotsOk adcWord = true ∧
       o.slotClaimed 5 = false ∧ o.touchesConsumer 5 2 adcWord = false) ∧
    (let c := cmdOf [5, 31, 1, 0]
     let d := readyDev.setBitAt R.adcCtrl 5 true
     Starts d 0x0902 c 1 ∧ reaches 5 31 = true ∧ (itm d 0x0902 c).bitAt R.adcCtrl 5 = true ∧
       (∀ k < 8, slotSrc ((itm d 0x0902 c).slotWord 5 k) = 4 → slotDiv ((itm d 0x0902 c).slotWord 5 k) ≠ 1)) ∧
    (let d := dacDev 0
     let c := dacCmd 0
     Starts d 0x0903 c 1 ∧ ((itm d 0x0903 c).dacCh 15).change = none ∧ ((itm d 0x0903 c).dacCh 15).divDue = none ∧ (itm d 0x0903 c).cstate 15 = 0 ∧
       0 = (itm d 0x0903 c).fld (F.dacChCfg_span 15)) ∧
    (let d := dacDev 2
     let c := dacCmd 0
     Starts d 0x0903 c 1 ∧ (itm d 0x0903 c).cstate 15 = 2 ∧ 0 = (itm d 0x0903 c).fld (F.dacChCfg_span 15)) ∧
    (Starts (dacDev 0) 0x0903 (dacCmd 3) 1 ∧ 3 ≠ (itm (dacDev 0) 0x0903 (dacCmd 3)).fld (F.dacChCfg_span 15)) ∧
    (Starts (dacDev 2) 0x0903 (dacCmd 3) 1 ∧ 3 ≠ (itm (dacDev 2) 0x0903 (dacCmd 3)).fld (F.dacChCfg_span 15)) ∧
    (let a := opn (dacDev 0) 0x0904 (dacOnCmd 1)
     Starts (dacDev 0) 0x0904 (dacOnCmd 1) 1 ∧ rd (dacOnCmd 1).payload 2 1 = 1 ∧ ∀ i ∈ bitsOf 0x8000 16, a.cstate i = 0 ∧ a.spanChanging i = false) ∧
    (let a := opn (dacDev 0) 0x0904 (dacOnCmd 0)
     Starts (dacDev 0) 0x0904 (dacOnCmd 0) 1 ∧ (∀ i ∈ bitsOf 0x8000 16, a.cstate i ≠ 3 ∧ (a.cstate i = 0 ∨ a.spanChanging i = false)) ∧
       ∀ i ∈ bitsOf 0x8000 16, ((bitsOf 0x8000 16).foldl Dev.dacOff a).cstate i = 0) ∧
    (let a := opn (dacDev 1) 0x0904 (dacOnCmd 0)
     let o := itm (dacDev 1) 0x0904 (dacOnCmd 0)
     Starts (dacDev 1) 0x0904 (dacOnCmd 0) 1 ∧ (∀ i ∈ bitsOf 0x8000 16, a.cstate i ≠ 3 ∧ (a.cstate i = 0 ∨ a.spanChanging i = false)) ∧
       (a.dacOff 15).cstate 15 = 4 ∧ (o.dacOff 15).cstate 15 = 4 ∧ bitsOf 0x8000 16 = [15]) := by
  and_intros <;> first | exact starts_of (by decide +kernel) | decide +kernel

/-- Pair 5 with the state `x`, slot 7 converting at every strobe; `on` is its enable bit. -/
def pairDev (x : AdcPair) (on : Bool) : Dev :=
  { (readyDev.setRegN (R.adcSlot 5 7) 1).setBitAt R.adcCtrl 5 on with adc := { pairs := [(5, x)] } }
/-- A conversion of slot 7, and an injected one. -/
def conv7 (o : Option Nat) : Conv := ⟨if o = none then some 7 else none, 20, false, 0, 0, false, false, o, false, 0, none⟩
/-- Pair 5 as it stands at the trigger of slot 7. -/
def trigPair (x : AdcPair) : AdcPair :=
  (settlePair 5 (adcEdge (pairDev x true).shift 0) 4 ((pairDev x true).advance 0)).adcPair 5

theorem wit_ConverterRowsTakeEffect :
    ((pairDev {} true).slotFires 5 7 = some 0 ∧ readyDev.slotFires 5 7 = none) ∧
    ((pairDev (trigPair {}) false).bitAt R.adcCtrl 5 = false ∧ (pairDev (trigPair {}) true).bitAt R.adcCtrl 5 = true ∧
      (trigPair { calInputs := [0] }).calInputs.contains (slotInput ((pairDev {} true).slotWord 5 7)) = true ∧ (trigPair {}).calInputs = []) ∧
    ((trigPair {}).takes (adcEdge readyDev.shift 0) none = some false ∧ (trigPair {}).pend = none) ∧
    ((trigPair { freeA := 800, freeB := 800 }).takes (adcEdge readyDev.shift 0) none = none ∧ (trigPair { freeA := 800, freeB := 800 }).pend = none) ∧
    (trigPair { freeA := 800, freeB := 800, pend := some (conv7 none) }).pend = some (conv7 none) ∧
    ({ conv7 none with dropped := true } : Conv).dropped = true ∧
    (let d := pairDev { convs := [(true, conv7 none)], freeB := 800 } true
     (d.adcPair 5).convs.find? (fun y => y.1 = true) = some (true, conv7 none) ∧
       ((settlePair 5 ((conv7 none).hold + 880) 4 d).adcPair 5).convs.find? (fun y => y.1 = true) = some (true, conv7 none) ∧
       (conv7 none).dropped = false ∧ (conv7 none).oid = none ∧ (conv7 none).slot = some 7 ∧ (conv7 (some 1)).oid = some 1) ∧
    ((readyDev.setFlag (F.adcPairStat_settling 5) true).flag (F.adcPairStat_settling 5) = true ∧ readyDev.flag (F.adcPairStat_settling 5) = false) ∧
    (let d := pairDev { injects := [(1, 20, false, 0)], freeA := 2000000, freeB := 2000000 } true
     (d.adcPair 5).injects = [(1, 20, false, 0)] ∧
       ((settlePair 5 (0 + 100 * tickUs + 1) 4 d).adcPair 5).injects = [(1, 20, false, 0)]) ∧
    ((pairDev {} true).bitAt R.adcCtrl 5 = true ∧ (pairDev {} true).pairInUse 5 = false) ∧ (pairDev {} false).bitAt R.adcCtrl 5 = false ∧
    readyDev.flag F.cpxReady1_pcie = true ∧ ((dacDev 1).cstate 15 = 1 ∧ (dacDev 3).cstate 15 = 3 ∧ ((dacDev 1).dacCh 15).queue.length < 16) ∧
    (let d : Dev := { dacDev 2 with dac := { chans := [(15, { queue := List.replicate 16 0 })] } }
     d.cstate 15 = 2 ∧ 16 ≤ (d.dacCh 15).queue.length) ∧
    ((dacDev 0).cstate 15 = 0 ∧ (dacDev 4).cstate 15 = 4) ∧
    (∀ k ∈ [1, 2, 4], ((dacDev 2).setDac 15 { change := some ⟨1, 16, 1, k, 0⟩ } |>.dacCh 15).change = some ⟨1, 16, 1, k, 0⟩) ∧
    (let d1 := ((dacDev 2).advance ((dacDev 2).dacTick 15 0)).setDac 15 { tickAt := (dacDev 2).dacTick 15 0 + 1 }
     (dacDev 2).changeUnderWay 15 = none ∧ ((dacDev 2).dacCh 15).divDue = none ∧ d1.cstate 15 = 2 ∧ d1.changeUnderWay 15 = none) ∧
    ((dacDev 0).dacCh 15).change = none ∧ (readyDev.setFlag F.cpxReady1_pcie false).flag F.cpxReady1_pcie = false := by
  and_intros <;> decide +kernel

/-- CAL_RUN of a kind without elements. -/
def calCmd (k : Nat) : Cmd := cmdOf (le 1 k ++ zeros 127)
/-- A job that runs. -/
def calJob (k : Nat) : CalJob := ⟨1, k, 0, 0, 1, 0, 0, [], 0⟩
/-- CAL_GAP of every link. -/
def gapCmd (start : Nat) : Cmd := cmdOf ([0xFF, 0, 0, 0] ++ le 4 200 ++ le 8 start)

/-- The witness of an import; whether its signature verifies is not the model's to say. -/
theorem wit_CalibrationCommandsTakeEffect_signed (h : Config.ecdsaVerify 5 (calCmd 6).image (((calCmd 6).payload.drop 32).take 96) = true) :
    let a := opn ownedDev 0x0A01 (calCmd 6)
    Starts ownedDev 0x0A01 (calCmd 6) 1 ∧ jobFieldsOk (calCmd 6).payload = true ∧ a.cal.job = none ∧ a.jobClash (calCmd 6).payload = false ∧
      a.hst.ownerKey = some 5 ∧ Config.ecdsaVerify 5 (calCmd 6).image (((calCmd 6).payload.drop 32).take 96) = true := by
  and_intros <;> first | exact starts_of (by decide +kernel) | decide +kernel | exact h

theorem wit_CalibrationCommandsTakeEffect :
    (let a := opn readyDev 0x0A01 (calCmd 2)
     let o := itm readyDev 0x0A01 (calCmd 2)
     Starts readyDev 0x0A01 (calCmd 2) 1 ∧ jobFieldsOk (calCmd 2).payload = true ∧ a.cal.job = none ∧ a.jobClash (calCmd 2).payload = false ∧
       o.jobClash (calCmd 2).payload = false ∧ rd (calCmd 2).payload 0 1 ≠ 6) ∧
    (let d : Dev := { readyDev with cal := { job := some (calJob 1) } }
     Starts d 0x0A01 (calCmd 2) 1 ∧ (opn d 0x0A01 (calCmd 2)).cal.job.isSome = true) ∧
    (Starts readyDev 0x0A01 (calCmd 6) 1 ∧ (opn readyDev 0x0A01 (calCmd 6)).cal.job = none ∧
      (opn readyDev 0x0A01 (calCmd 6)).jobClash (calCmd 6).payload = false ∧ (opn readyDev 0x0A01 (calCmd 6)).hst.ownerKey = none) ∧
    (Starts readyDev 0x0A01 (calCmd 0) 1 ∧ jobFieldsOk (calCmd 0).payload = false) ∧
    (let d : Dev := { readyDev with cal := { gaps := List.replicate 16 ⟨255, 0, 5, false⟩ } }
     Starts d 0x0A02 (gapCmd 0) 1 ∧ 16 ≤ (opn d 0x0A02 (gapCmd 0)).cal.gaps.length ∧
       (opn (readyDev.setFlag F.cpxReady1_ptp false) 0x0A02 (gapCmd 0)).flag F.cpxReady1_ptp = false) ∧
    (let o := opn readyDev 0x0A02 (gapCmd 60000000000)
     Starts readyDev 0x0A02 (gapCmd 60000000000) 1 ∧ ((60000000000 : Nat) : Int) ≤ o.wall + 60000000000 ∧ o.cal.gaps.length < 16 ∧
       o.flag F.cpxReady1_ptp = true ∧ (o.now : Int) < o.tickOfTai (60000000000 + 200 * 1000)) ∧
    (let d : Dev := { readyDev with now := tickS }
     let o := opn d 0x0A02 (gapCmd 0)
     Starts d 0x0A02 (gapCmd 0) 1 ∧ o.tickOfTai (0 + 200 * 1000) ≤ o.now) := by
  and_intros <;> first | exact starts_of (by decide +kernel) | decide +kernel

/-- What a rake of element 0 measures. -/
def rake (ok : Bool) : RakeResult := ⟨0, ok, [], [], []⟩
/-- Calibration with a job of kind `k`. -/
def jobDev (k : Nat) : Dev := { readyDev with cal := { job := some (calJob k) } }
/-- Calibration with an element that has played: `live` a live step, with `n` earlier steps; `inv` marks it invalid. -/
def endDev (live inv : Bool) (n : Nat) : Dev :=
  { readyDev with cal := { ended := [⟨63, 0, live, inv⟩], items := [{ el := 0, live := live, steps := List.replicate n 0 }] } }

/-- Calibration with element 2, a VOA, whose rake, or fourth live step, has played; `job` says whether that was for a job. -/
def judgeDev (live job : Bool) : Dev :=
  let j := if job then some (calJob 4) else none
  { mapDev with cal := { ended := [⟨63, 2, live, false⟩], items := [{ el := 2, live := live, steps := [0, 0, 0], job := job }], job := j } }
/-- Calibration with a bank that waits for its switch. -/
def writtenDev (d : Dev) : Dev := { d with cal := { d.cal with written := some (none, 5) } }

theorem wit_CalibrationRowsTakeEffect :
    ({ readyDev with cal := { written := some (none, 5) } } : Dev).cal.written = some (none, 5) ∧ readyDev.cal.written = none ∧
    (let d : Dev := { readyDev with cal := { bankA := { valid := true }, bankB := { valid := true } } }
     d.flag F.calStat_active = false ∧ d.cal.bankB.valid = true ∧ d.bank.valid = true ∧ d.cal.written = none ∧
       (d.event 0x0A04 0 (le 1 2)).cal.written = none ∧ ((writtenDev d).event 0x0A04 0 (le 1 2)).cal.written ≠ none) ∧
    (readyDev.bank.valid = false ∧ (writtenDev (jobDev 1)).cal.written ≠ none) ∧
    ((jobDev 7).cal.job = some (calJob 7) ∧ (jobDev 7).cal.written = none ∧ (calJob 7).kind = 7) ∧
    (let j : CalJob := ⟨1, 4, 0, 0, 1, 0, 0, [], 0⟩
     let d : Dev := { mapDev with cal := { job := some j } }
     j.kind = 4 ∧ d.jobMeasured j = false ∧ d.now < j.began + 60 * tickS ∧ j.began + 60 * tickS ≤ (d.advance (60 * tickS)).now) ∧
    ((jobDev 6).cal.job = some (calJob 6) ∧ (jobDev 6).jobBank (calJob 6) [] = none) ∧
    ((jobDev 3).cal.job = some (calJob 3) ∧ (calJob 3).kind = 3 ∧ ((jobDev 3).jobBank (calJob 3) []).isSome = true) ∧ readyDev.cal.job = none ∧
    (let s : Dev := { readyDev.setFlag F.calCtrl_en true with cal := { firstResult := some 5, gathered := [⟨rake true, 0, false⟩] } }
     let d := s.advance (5 + 60 * tickS)
     s.cal.firstResult = some 5 ∧ s.cal.gathered.length < 64 ∧ d.cal.job = none ∧ d.cal.written = none ∧ d.flag F.calCtrl_en = true) ∧
    readyDev.cal.firstResult = none ∧
    ((endDev false false 0).cal.ended.find? (fun y => y.sluice = 63 && !y.live) = some ⟨63, 0, false, false⟩ ∧
      (endDev false false 0).cal.items.any (fun i => i.el = 0) = true ∧ (rake false).valid = false ∧ (rake true).valid = true ∧
      (rake true).element = 0 ∧ (endDev false false 0).plausible (rake true) = true) ∧
    (endDev false true 0).cal.ended.find? (fun y => y.sluice = 63 && !y.live) = some ⟨63, 0, false, true⟩ ∧
    (readyDev.cal.ended.find? (fun y => y.sluice = 63 && !y.live) = none ∧ (2 : Nat) ≠ 0 ∧
      ({ endDev false false 0 with cal := { ended := [⟨63, 0, false, false⟩] } } : Dev).cal.items.any (fun i => i.el = 0) = false) ∧
    (let r : RakeResult := ⟨2, true, zeros 88 ++ le 4 0xFFFFFF, [], []⟩
     let d := fun (j : Bool) => judgeDev false j
     (d true).plausible r = false ∧ (d true).cal.items.any (fun i => i.el = 2 && i.job) = true ∧ (d true).cal.job = some (calJob 4) ∧
       (d false).plausible r = false ∧ (d false).cal.job = none) ∧
    (let r : RakeResult := ⟨2, true, zeros 88 ++ le 4 0xFFFFFF, [], []⟩
     let d := fun (j : Bool) => judgeDev true j
     (d true).plausible r = false ∧ (d true).cal.job = some (calJob 4) ∧ (d false).plausible r = false ∧ (d false).cal.job = none ∧
       (([0, 0, 0] : List Nat).filter (fun t => decide ((d true).now ≤ t + 3600 * tickS)) ++ [0]).length = 4) ∧
    (readyDev.cal.ended.find? (fun y => y.el = 0 && y.live) = none ∧
      ({ endDev true false 0 with cal := { ended := [⟨63, 0, true, false⟩] } } : Dev).cal.items.find? (fun i => i.el = 0) = none ∧
      (endDev true true 0).cal.ended.find? (fun y => y.el = 0 && y.live) = some ⟨63, 0, true, true⟩ ∧ (endDev true false 3).plausible (rake true) = true) ∧
    (∀ n ∈ [2, 3], (endDev true false n).cal.ended.find? (fun y => y.el = 0 && y.live) = some ⟨63, 0, true, false⟩ ∧
      (endDev true false n).cal.items.find? (fun i => i.el = 0) = some { el := 0, live := true, steps := List.replicate n 0 } ∧
      ((List.replicate n 0).filter (fun t => decide ((endDev true false n).now ≤ t + 3600 * tickS)) ++ [0]).length = n + 1) ∧
    (let d : Dev := { readyDev with cal := { gaps := [⟨255, 0, 5, false⟩, ⟨255, 0, 5, true⟩] } }
     d.cal.gaps[0]? = some ⟨255, 0, 5, false⟩ ∧ d.cal.gaps[1]? = some ⟨255, 0, 5, true⟩ ∧ readyDev.cal.gaps[0]? = none) ∧
    (let s : Dev := { mapDev with rtp := { mapDev.rtp with circuits := [(0, ⟨2, 0, 1, 100, [(0, true)], true, 0, 0, 0, 0, ⟨0, 1⟩⟩)] } }
     (∃ y ∈ (({ s with cal := { detected := [(0, 0)] } } : Dev).advance (0 + 400 * tickFrame)).cal.detected, y.1 = 0 ∧ 0 ≤ y.2) ∧ mapDev.circuit 0 = none ∧
     s.circuit 0 = some ⟨2, 0, 1, 100, [(0, true)], true, 0, 0, 0, 0, ⟨0, 1⟩⟩ ∧ ∀ y ∈ (s.advance (0 + 400 * tickFrame)).cal.detected, y.1 ≠ 0) ∧
    ((readyDev.setFlag F.calCtrl_en true).flag F.calCtrl_en = true ∧ (readyDev.setFlag F.calCtrl_en false).flag F.calCtrl_en = false) := by
  and_intros <;> decide +kernel

/-- Sluice 63 with a grant of move `m`, stalled since tick 5. -/
def stallDev (m : Option Nat) : Dev :=
  { mapDev.setFld (F.trnSlState_state 63) 1 with trn := { sluices := [(63, { cur := some ⟨0, m, 0, 0, 0, false, []⟩, stalledAt := some 5 })] } }

/-- The write of a rake's first run of four granules, or of one of `n` codes, at descriptor 5. -/
def sweepWrite (el n : Nat) : SegWrite := ⟨5, 0, 6, true, .sweep el true 0 0 (List.replicate n 9)⟩
/-- Sluice 63 playing a segment of descriptor 5 with repeat count `rep`, `last` or not, after `p` passes; `stop` asks it to stop. -/
def playDev (rep p : Nat) (last stop : Bool) : Dev :=
  { mapDev with trn := { descs := [(5, ⟨0, 4, rep, 6, 0, last, true, {}, false⟩)],
                         sluices := [(63, { cur := some ⟨0, none, 0, 0, 0, false, []⟩, desc := 5, passes := p, stop := stop })] } }
/-- That device as SEGMENT_END leaves it before it decides what follows. -/
def passedDev (d : Dev) : Dev :=
  let d1 := d.advance (d.passEnd 63)
  d1.setSluice 63 { d1.sluice 63 with lastCode := d1.lastCode 63 }

theorem wit_SluiceAndPortRowsTakeEffect :
    (∀ x ∈ [playDev 0 0 true true, playDev 255 0 true false, playDev 1 0 true false, playDev 0 0 true false, playDev 0 0 false false],
      (x.sluice 63).cur = some ⟨0, none, 0, 0, 0, false, []⟩ ∧ (x.segDesc (x.sluice 63).desc).isSome = true ∧ (x.sluice 63).stalledAt = none ∧
        ((passedDev x).sluice 63).jump = none) ∧
    ((playDev 0 0 true true).sluice 63).stop = true ∧
    (((playDev 0 0 true false).sluice 63).stop = false ∧ ((passedDev (playDev 1 0 true false)).sluice 63).passes < 1 ∧
      0 ≤ ((passedDev (playDev 0 0 true false)).sluice 63).passes) ∧
    (readyDev.sluice 63).cur = none ∧
    readyDev.segContent ⟨5, 0, 6, true, .library 0 0 true 0⟩ = none ∧
    ((readyDev.segContent (sweepWrite 2 4)).isSome = true ∧ readyDev.segStatus (sweepWrite 2 4) ⟨2, rakeBracket, false, 0⟩ 4 = 0 ∧
      readyDev.segStatus (sweepWrite 2 3) ⟨2, rakeBracket, false, 0⟩ 3 = 2 ∧
      (playDev 0 0 true false).segStatus (sweepWrite 2 4) ⟨2, rakeBracket, false, 0⟩ 4 = 1) ∧
    (let d : Dev := { mapDev with rtp := { mapDev.rtp with overs := [(1, (4, 0))] } }
     4 ≤ d.framesOver 1 ∧ d.portBlanked 1 = false ∧ mapDev.framesOver 1 < 4 ∧ readyDev.rtp.map.port 1 = none) ∧
    ((readyDev.setFlag F.trnCtrl_en true).flag F.trnCtrl_en = true ∧ (readyDev.setFlag F.trnCtrl_en false).flag F.trnCtrl_en = false) ∧
    ((stallDev none).fld (F.trnSlState_state 63) = 1 ∧ readyDev.fld (F.trnSlState_state 63) ≠ 1) ∧
    (((stallDev (some 1)).sluice 63).stalledAt = some 5 ∧ ((stallDev (some 1)).sluice 63).cur = some ⟨0, some 1, 0, 0, 0, false, []⟩) ∧
    ((stallDev none).sluice 63).cur = some ⟨0, none, 0, 0, 0, false, []⟩ ∧ (readyDev.sluice 63).stalledAt = none ∧
    ((mapDev.rtp.map.port 1).isSome = true ∧ mapDev.portBlanked 1 = false ∧ mapDev.linkReady (linkOf 6147) = true ∧ ceilDev.portBlanked 1 = true) := by
  and_intros <;> decide +kernel

/-- A record of an element or twin link with its CRC: type, byte 1, bytes 2 and 3, and what follows the CRC. -/
def linkRec (type b1 w : Nat) (b : Bytes) : WireRec :=
  let head := le 1 type ++ le 1 b1 ++ le 2 w
  ⟨head ++ le 4 (crc32c (head ++ b)) ++ b⟩
/-- Link 31 in state `st`. -/
def elkDev (st : Nat) (x : Link) : Dev :=
  { readyDev.setFld (F.elkLinkStat_state 31) st |>.setBitAt R.elkLinkEn 31 true with elk := { links := [(31, x)] } }
/-- A CTRL that waits, sent `r` times again. -/
def ctrl (r : Nat) : CtrlOut := ⟨7, 2, 0, 1, 0, r⟩

theorem wit_ElementLinkRowsTakeEffect :
    (((elkDev 1 { retryAt := some 5 }).elink 31).retryAt = some 5 ∧ (elkDev 1 { retryAt := some 5 }).bitAt R.elkLinkEn 31 = true) ∧
    ((elkDev 1 {}).elink 31).retryAt = none ∧
    (2 ≤ (elkDev 6 {}).linkState 31 ∧ (elkDev 6 {}).linkState 31 ≤ 6 ∧ ((elkDev 6 {}).elink 31).silent < 400 ∧
      400 ≤ ((elkDev 6 { silent := 400 }).elink 31).silent) ∧
    ((elkDev 6 { masked := 255 }).linkReady 31 = true ∧ (elkDev 6 { masked := 255 }).fld F.elkCfg_lateMax ≤ ((elkDev 6 { masked := 255 }).elink 31).masked ∧
      ((elkDev 6 {}).elink 31).masked < (elkDev 6 {}).fld F.elkCfg_lateMax) ∧
    recOk [] 224 0x4B = false ∧
    (let b := (linkRec 0x4B 7 0 (zeros 216)).bytes
     recOk b 224 0x4B = true ∧ b2n (bit (rd b 1 1) 2) ≠ (elkDev 6 {}).unit) ∧
    (let b := (linkRec 0x4B 3 0 (zeros 216)).bytes
     recOk b 224 0x4B = true ∧ b2n (bit (rd b 1 1) 2) = (elkDev 4 {}).unit ∧ 4 ≤ (elkDev 4 {}).linkState 31 ∧
       rd b 2 2 = (elkDev 4 {}).frame % 65536 ∧ bit ((elkDev 4 {}).elink 31).gotParts (rd b 1 1 % 4) = false) ∧
    (let b := (linkRec 0x4B 3 65535 (zeros 216)).bytes
     recOk b 224 0x4B = true ∧ b2n (bit (rd b 1 1) 2) = (elkDev 4 {}).unit ∧ rd b 2 2 ≠ (elkDev 4 {}).frame % 65536) ∧
    (let b := (linkRec 0x55 191 0 (zeros 16)).bytes
     recOk b 24 0x55 = true ∧ rd b 1 1 ≤ 191) ∧ 191 < rd (linkRec 0x55 192 0 (zeros 16)).bytes 1 1 ∧ recOk [] 32 0xC3 = false ∧
    (let b := (linkRec 0xC3 2 7 (zeros 24)).bytes
     recOk b 32 0xC3 = true ∧ ((elkDev 6 { ctrls := [ctrl 0] }).elink 31).ctrls.find? (fun y => y.rseq = rd b 2 2 && y.op = rd b 1 1) = some (ctrl 0)) ∧
    ((elkDev 6 {}).elink 31).ctrls = [] ∧
    ((elkDev 0 {}).linkState 31 = 0 ∧ (elkDev 0 {}).bitAt R.elkLinkEn 31 = true ∧ ((elkDev 0 {}).setBitAt R.elkLinkEn 31 false).bitAt R.elkLinkEn 31 = false) ∧
    ((elkDev 1 {}).linkState 31 = 1 ∧ (elkDev 2 { serial := some 1 }).linkState 31 = 2 ∧ ((elkDev 2 { serial := some 1 }).elink 31).serial.isSome = true) ∧
    ((elkDev 3 {}).linkState 31 = 3 ∧ 16 ≤ (List.replicate 16 312).length ∧ echoMedian (List.replicate 16 312) * 80 ≤ 25000 ∧
      25000 < echoMedian (List.replicate 16 313) * 80) ∧
    ((elkDev 4 { good := 16 }).linkState 31 = 4 ∧ 16 ≤ ((elkDev 4 { good := 16 }).elink 31).good) ∧
    ((elkDev 5 { channels := 1 }).linkState 31 = 5 ∧ ((elkDev 5 { channels := 1 }).elink 31).read < ((elkDev 5 { channels := 1 }).elink 31).channels ∧
      ((elkDev 5 {}).elink 31).channels ≤ ((elkDev 5 {}).elink 31).read ∧ (elkDev 5 {}).flag F.cpxReady1_trn = true ∧
      ((elkDev 5 {}).setFlag F.cpxReady1_trn false).flag F.cpxReady1_trn = false) ∧
    ((elkDev 1 {}).linkState 31 < 2 ∧ bit (rd (linkRec 0x55 191 0x8000 (zeros 16)).bytes 2 2) 15 = true ∧
      bit (rd (linkRec 0x55 191 0 (zeros 16)).bytes 2 2) 15 = false) ∧
    (let b := (linkRec 0xC3 2 7 (zeros 24)).bytes
     ((elkDev 6 {}).elink 31).ctrls.find? (fun y => y.rseq = rd b 2 2 && y.op = rd b 1 1) = none) ∧
    (((elkDev 6 { ctrls := [ctrl 0] }).elink 31).ctrls = [ctrl 0] ∧ (ctrl 0).retries < (elkDev 6 {}).fld F.elkCfg_ctrlRetry ∧
      (elkDev 6 {}).fld F.elkCfg_ctrlRetry ≤ (ctrl 255).retries) := by
  and_intros <;> decide +kernel

/-- Source 100 mapped to class 4; `c` and `e` say whether the unit claims and its peer is eligible. -/
def class4Dev (c e : Bool) : Dev :=
  readyDev |>.setFld (F.fltClass_class 100) 4 |>.setFlag F.twnStat_claimOut c |>.setFlag F.twnStat_peerEligible e
/-- That device once the source is sticky. -/
def sticky4Dev (c e : Bool) : Dev :=
  let d1 := (class4Dev c e).bump R.fltCount
  (d1.setSticky 100 true).event 0x0B01 100 (le 1 4 ++ le 1 ((d1.setSticky 100 true).fld (F.fltClass_kind 100)))

theorem wit_FaultRowsTakeEffect :
    ((readyDev.setFld (F.fltClass_kind 255) 0).fld (F.fltClass_kind 255) = 0 ∧ (readyDev.setFld (F.fltClass_kind 422) 1).fld (F.fltClass_kind 422) ≠ 0) ∧
    ({ readyDev with flt := { release := [1] } } : Dev).flt.release = [1] ∧ readyDev.flt.release = [] ∧
    ((class4Dev true true).sourceClass 100 = 4 ∧ ((class4Dev true true).bump R.fltCount).sticky 100 = false ∧
      ((class4Dev true true).bump R.fltCount).sourceClass 100 = 4 ∧ (sticky4Dev true true).claims = true ∧
      (sticky4Dev true true).flag F.twnStat_peerEligible = true) ∧
    ((sticky4Dev false true).claims = false ∧ (sticky4Dev true false).flag F.twnStat_peerEligible = false) := by
  and_intros <;> decide +kernel

/-- A unit of a pair in role `r`; `e`: its peer is eligible. -/
def twinDev (r : Nat) (e : Bool) : Dev :=
  readyDev |>.setFlag F.twnCtrl_mode true |>.setFld F.twnStat_role r |>.setFlag F.twnStat_paired true |>.setFlag F.twnStat_peerEligible e

theorem wit_TwinRecordsTakeEffect :
    (recOk (linkRec 0x71 0 0 (zeros 32)).bytes 40 0x71 = true ∧ (twinDev 2 true).twinMode = true) ∧ recOk [] 40 0x71 = false ∧
    readyDev.twinMode = false ∧ recOk (linkRec 0x72 0 0 (zeros 120)).bytes 128 0x72 = true ∧ recOk [] 128 0x72 = false ∧
    (let b := (linkRec 0x73 0 0 (zeros 8)).bytes
     recOk b b.length 0x73 = true ∧ b.length = 16 ∧ (twinDev 2 true).standby = true ∧ rd b 8 4 ≠ ((twinDev 2 true).twn.mapplied + 1) % 2 ^ 32 ∧
       seqAbove (rd b 8 4) (twinDev 2 true).twn.mapplied = false) ∧ (twinDev 1 true).standby = false ∧
    (let b := (linkRec 0x73 0 0 (le 4 1 ++ zeros 4)).bytes
     recOk b b.length 0x73 = true ∧ rd b 8 4 = ((twinDev 2 true).twn.mapplied + 1) % 2 ^ 32) ∧
    (let b := (linkRec 0x73 0 0 (le 4 2 ++ zeros 4)).bytes
     recOk b b.length 0x73 = true ∧ seqAbove (rd b 8 4) (twinDev 2 true).twn.mapplied = true ∧
       rd b 8 4 ≠ ((twinDev 2 true).twn.mapplied + 1) % 2 ^ 32) ∧
    (let b := (linkRec 0x75 0 0 (zeros 24)).bytes
     let d : Dev := { twinDev 2 true with twn := { fwdOpen := [(1, 0)] } }
     recOk b b.length 0x75 = true ∧ rd b 8 4 ≠ (d.twn.fapplied + 1) % 2 ^ 32 ∧ seqAbove (rd b 8 4) d.twn.fapplied = false ∧
       (d.twn.fwdOpen.any (fun x => x.2 = 0) || d.twn.forwarded.any (fun f => f.number = 0)) = true ∧
       ((twinDev 2 true).twn.fwdOpen.any (fun x => x.2 = 0) || (twinDev 2 true).twn.forwarded.any (fun f => f.number = 0)) = false) ∧
    (recOk [] 16 0x74 = false ∧ recOk [] 16 0x76 = false ∧ recOk [] 16 0x77 = false) ∧
    (let b := (linkRec 0x74 0 0 (zeros 4 ++ [1, 0, 0, 0])).bytes
     recOk b 16 0x74 = true ∧ (twinDev 1 true).active = true ∧ bit (rd b 12 1) 0 = true) ∧
    (let b := (linkRec 0x74 0 0 (zeros 8)).bytes
     recOk b 16 0x74 = true ∧ bit (rd b 12 1) 0 = false ∧ ((twinDev 1 true).releaseMack (rd b 8 4)).twn.mirrorSent = []) ∧
    (let d : Dev := { twinDev 1 true with twn := { mirrorSent := [(5, [])] } }
     (d.releaseMack 0).twn.mirrorSent ≠ []) ∧
    (let b := (linkRec 0x75 0 0 (le 4 1 ++ zeros 20)).bytes
     recOk b b.length 0x75 = true ∧ b.length = 32 ∧ rd b 8 4 = ((twinDev 2 true).twn.fapplied + 1) % 2 ^ 32) ∧
    (let b := (linkRec 0x75 0 0 (le 4 2 ++ zeros 20)).bytes
     recOk b b.length 0x75 = true ∧ rd b 8 4 ≠ ((twinDev 2 true).twn.fapplied + 1) % 2 ^ 32 ∧ seqAbove (rd b 8 4) (twinDev 2 true).twn.fapplied = true) ∧
    recOk (linkRec 0x76 0 0 (zeros 8)).bytes 16 0x76 = true ∧
    (recOk (linkRec 0x77 0 0 (zeros 8)).bytes 16 0x77 = true ∧ (twinDev 1 true).flag F.twnStat_peerEligible = true ∧
      (twinDev 1 false).flag F.twnStat_peerEligible = false ∧ (twinDev 2 true).active = false) := by
  and_intros <;> decide +kernel

/-- A reply of CIRCUIT_SET that is DONE. -/
def doneReply : Reply := ⟨.ring 0, 1, 0x0202, 1, 7, 1, St.done, true, false, false, [], none, true, none, true, false, none⟩
/-- The unit that has heard its peer claim with term `t`. -/
def conflictDev (t : Nat) : Dev :=
  { twinDev 1 true |>.setFlag F.twnStat_claimOut true |>.setFlag F.twnStat_peerClaimIn true |>.setFld F.twnPeer_term t with twn := { heard := some 5 } }

theorem wit_TwinTimersAndPinsTakeEffect :
    (({ twinDev 2 true with twn := { hbDue := some 5, streak := 2 } } : Dev).twn.hbDue = some 5 ∧
      (({ twinDev 2 true with twn := { hbDue := some 5, streak := 2 } } : Dev).advance (5 + tickUs)).twn.streak + 1 = 3 ∧
      (({ twinDev 2 true with twn := { hbDue := some 5 } } : Dev).advance (5 + tickUs)).twn.streak + 1 ≠ 3) ∧ readyDev.twn.hbDue = none ∧
    ({ twinDev 1 true with twn := { waitMack := [⟨1, 5, doneReply⟩] } } : Dev).twn.waitMack = [⟨1, 5, doneReply⟩] ∧ readyDev.twn.waitMack = [] ∧
    ({ twinDev 2 true with twn := { gapFrom := some 5 } } : Dev).twn.gapFrom = some 5 ∧
    ({ twinDev 1 true with twn := { waitForward := [⟨1, 5, doneReply⟩] } } : Dev).twn.waitForward = [⟨1, 5, doneReply⟩] ∧
    readyDev.twn.waitForward = [] ∧
    ((twinDev 2 true).standby = true ∧ (twinDev 2 true).flag F.twnStat_paired = true ∧ 2 < (3 : Int).natAbs ∧ (-2 : Int).natAbs ≤ 2) ∧
    ((conflictDev 9).twn.heard = some 5 ∧ (conflictDev 9).twinMode = true ∧ (conflictDev 9).claims = true ∧ (conflictDev 9).peerHigh = true ∧
      outranks ((conflictDev 9).fld F.twnPeer_term) (1 - (conflictDev 9).unit) (conflictDev 9).term (conflictDev 9).unit = true ∧
      outranks ((conflictDev 0).fld F.twnPeer_term) (1 - (conflictDev 0).unit) (conflictDev 0).term (conflictDev 0).unit = false) ∧
    ((twinDev 0 true).fld F.twnStat_role = 0 ∧ (twinDev 0 true).flag F.cpxReady1_frame = true ∧ (twinDev 0 true).flag F.twnStat_linkUp = false ∧
      (twinDev 0 true).peerHigh = false) ∧
    ((twinDev 2 true).twinMode = true ∧ (twinDev 2 true).active = false ∧ (twinDev 1 true).active = true ∧ readyDev.twinMode = false) ∧
    (let s := twinDev 2 true
     let d := s.setFlag F.twnStat_peerClaimIn true
     let d1 := ({ d with twn := { d.twn with peerHighFrom := d.now } } : Dev).level 422 (d.twinMode && d.claims)
     s.peerHigh = false ∧ s.fld F.twnStat_role ≠ 0 ∧ d1.fld F.twnStat_role ≠ 0) := by
  and_intros <;> decide +kernel

theorem wit_MirroredReplyWaitsForMack :
    (twinDev 1 true).pairedActive = true ∧ changing doneReply.status = true ∧ mirroredOpcode doneReply.opcode = true ∧
      (twinDev 1 true).twn.fwdSent = [] ∧ (twinDev 1 true).twn.waitMack = [] := by decide +kernel

theorem wit_LowWordReadCapturesHighWord :
    lowWord R.tbuFrameLo = true ∧ tget (fun _ => 0) readyDev.shadow (R.tbuFrameLo + 4) = 0 ∧
      (readyDev.readReg R.tbuFrameLo).2.shadow = (readyDev.readReg R.tbuFrameLo).2.shadow := by decide +kernel

theorem wit_CoefficientWordsHaveTheirValue :
    let x : Ext := ⟨-2 ^ 31, -128⟩;
    -(2 ^ 31 : Int) ≤ x.mant ∧ x.mant < 2 ^ 31 ∧ -128 ≤ x.exp ∧ x.exp ≤ 127 := by decide

theorem wit_ShapeSamplePlaysRoundedCode :
    ((8192 : Int) = (0 : Nat) * 16384 + ((1 : Nat) - (0 : Nat)) * 8192 ∧ (0 : Int) ≤ 8192 ∧ (1 : Int) * 16384 - 8192 ≤ 8192 ∧ (8192 : Int) < 1 * 16384 + 8192) ∧
    ((-8192 : Int) = (0 : Nat) * 16384 + ((1 : Nat) - (0 : Nat)) * (-8192) ∧ (-8192 : Int) < 0 ∧ (-1 : Int) * 16384 - 8192 < -8192 ∧
      (-8192 : Int) ≤ -1 * 16384 + 8192) := by decide

theorem wit_ElementIdNamesItsLink : 6143 < 6144 ∧ (6144 ≤ 7167 ∧ 7167 ≤ 7167) ∧ 31 < 32 ∧ 191 < 192 := by decide

/-- The packet of TIME_QUERY with tag 7. -/
def timePacket : Packet := ⟨0x0604, cmdOf []⟩
/-- A recorded reply. -/
def recorded (f : Bool) : Recorded := ⟨0x0604, 1, 1, if f then St.done else St.accepted, f, false, 1, 0, [], false⟩
/-- A device that knows tag 7 with CRC `c` and the reply `r`. -/
def knownDev (c : Nat) (r : Option Recorded) : Dev :=
  { readyDev with cpx := { readyDev.cpx with requesters := [(1, { window := [⟨7, c, r⟩] })] } }

theorem wit_DuplicateCommandsAreNotExecuted :
    (∀ r ∈ [some (recorded true), some (recorded false), none],
      (((knownDev (packetCrc timePacket) r).bump R.cpxCmdCount).requester 1).window.find? (fun x => x.tag = timePacket.cmd.tag.toNat) =
        some ⟨7, packetCrc timePacket, r⟩) ∧
    (((knownDev (packetCrc timePacket + 1) none).bump R.cpxCmdCount).requester 1).window.find? (fun x => x.tag = timePacket.cmd.tag.toNat) =
      some ⟨7, packetCrc timePacket + 1, none⟩ := by decide +kernel

/-- PORT_CEILING of port 1 with `unblank`, as a packet. -/
def unblankPacket : Packet := ⟨0x0205, ceilCmd 2000 1⟩

theorem wit_CommandsAreCheckedBeforeTheyRun :
    (readyDev.pairedActive = false ∧ readyDev.twn.fwdSent = [] ∧ readyDev.refusal 1 true ⟨0x0604, cmdOf [0]⟩ = some St.badParam) ∧
    (opRow 0x0205 = some ⟨0x0205, false, true, 8, 8, none⟩ ∧ unblankPacket.cmd.requester.toNat = 1 ∧
      (⟨0x0205, false, true, 8, 8, none⟩ : OpRow).lengthOk unblankPacket.cmd.length = true ∧ flagReserved unblankPacket.cmd.flags = false ∧
      descOk unblankPacket = true) ∧
    (twinDev 2 true).standby = true ∧
    (let d := readyDev.setFlag F.cpxReady1_rtp false
     d.standby = false ∧ d.groupReady 0x0205 unblankPacket.cmd.payload (d.namedChain unblankPacket) = false) ∧
    (let d := readyDev.setFlag F.fltState_osafe true
     d.standby = false ∧ d.groupReady 0x0205 unblankPacket.cmd.payload (d.namedChain unblankPacket) = true ∧
       opticalSafeRefuses 0x0205 unblankPacket.cmd.payload = true ∧ d.flag F.fltState_osafe = true) ∧
    (let d := mapDev.setFlag F.fltState_osafe true
     d.flag F.fltState_osafe = true ∧ opticalSafeRefuses 0x0A02 (gapCmd 0).payload = true ∧
       (functionOf 0x0A02 d (d.nextCall 0x0A02 (gapCmd 0) 1)).2 ≠ .final St.badParam [] ∧
       (functionOf 0x0205 readyDev (readyDev.nextCall 0x0205 (ceilCmd 2000 2) 1)).2 = .final St.badParam []) ∧
    readyDev.flag F.fltState_osafe = false := by
  and_intros <;> decide +kernel

theorem wit_QueriesChangeNothingElse :
    readyDev.pairedActive = false ∧ (readyDev.standby && readyDev.flag F.twnStat_paired) = false ∧ readyDev.twn.fwdSent = [] ∧
      readyDev.cpx.waiting = [] ∧ readyDev.cpx.post = [] ∧ readyDev.econCauses = 0 ∧ Starts readyDev 0x0101 (cmdOf desc16) 1 ∧
      ∃ t, exec (.devInfo (cmdOf desc16)) ready = .next t := by
  refine ⟨?_, ?_, ?_, ?_, ?_, ?_, starts_of (by decide +kernel), _, rfl⟩ <;> decide +kernel

/-! ### Tests; the expected values are those of the spec's worked examples, or worked by hand from its rules -/

/-- The device of the next state; the empty device where there is none. -/
def devOf (o : Host.Outcome State Fault Refusal) : Dev := match o with | .next s => s.dev | _ => {}

/-- R46 names CRC-32C; its check value is that of the bytes of "123456789". -/
theorem test_crc32c_check : crc32c [0x31, 0x32, 0x33, 0x34, 0x35, 0x36, 0x37, 0x38, 0x39] = 0xE3069283 := by decide +kernel

/-- The example of R12: a high word is that of the instant at which the low word was read. -/
theorem test_highWordIsCaptured :
    let d : Dev := { readyDev with now := 20000 * 0x1FFFFFFFF }
    (d.readReg R.tbuFrameLo).1 = 0xFFFFFFFF ∧ ({ (d.readReg R.tbuFrameLo).2 with now := 20000 * 0x200000000 }.readReg R.tbuFrameHi).1 = 1 := by
  decide +kernel

/-- The worked example of chapter 05: thirteen changes, five of them on link 3, take two waves; with cell 800 in place of 760, one. -/
theorem test_wavesOfTheWorkedExample :
    waveCount [610, 640, 700, 705, 760, 1201, 1800, 2300, 2900, 3305, 3700, 4100, 4754] = 2 ∧
    waveCount [610, 640, 700, 705, 800, 1201, 1800, 2300, 2900, 3305, 3700, 4100, 4754] = 1 := by decide +kernel

/-- CIRCUIT_SET on the two-port map needs its cell and the VOA of its output. -/
theorem test_circuitSetPlansCellAndVoa : (setPlan mapDev).elems = [(0, 1, true, 0), (2, 2, false, 100)] ∧ (setPlan mapDev).demand = 2 := by
  decide +kernel

/-- The example of chapter 09: an error of 0.00021 has exponent −12, keeps 14 bits at exponent −3 and 22 at −11. -/
theorem test_exponentsOfTheWorkedExample :
    (Frac.mk2 21 100000).ownExp = -12 ∧ mantissaAt 23 (Frac.mk2 21 100000) (-3) = 14093 ∧ keptBits (-3) (Frac.mk2 21 100000) = 14 ∧
    mantissaAt 23 (Frac.mk2 21 100000) (-11) = 3607773 ∧ keptBits (-11) (Frac.mk2 21 100000) = 22 := by decide +kernel

/-- A VOA's loop of the example of chapter 07. -/
def swapDev : Dev :=
  { readyDev with
    lpc :=
      { sets := [(0x21, [1200, 150, 0, 60000, 1000, 0, 0, 0].map (fun i => coefWord (Frac.ofInt i)))]
        shadow := [(0x21, [2000, 100, 0, 60000, 1000, 0, 0, 0].map (fun i => coefWord (Frac.ofInt i)))]
        swaps := [⟨1, 1, false, [0x21]⟩]
        loops := [(4608, { slot := 1, set := 0x21, i := extWord (Frac.ofInt 27000), eLast := Frac.ofInt 4, f := Frac.ofInt 30000 })] }
    cal := { bankA := { valid := true, recs := [{ rtype := 2, rsub := 24, body := le 4 (coefWord Frac.one).toNat }] } } }

/-- At the boundary the integrator becomes 27 000 + (1200 − 2000) × 4.00 = 23 800 (R188). -/
theorem test_coefSwapRecomputesIntegrator :
    let x := (devOf (exec .coefSwapBoundary (stOf swapDev))).loop 4608
    extValue x.i = Frac.ofInt 23800 := by decide +kernel

/-- An output beyond umax is held there (frame n of the example: 30 000 + 7000 + 23 800 = 60 800), and its step is limited to c4 (frame n + 2:
58 290 after 59 600 gives 58 600). -/
theorem test_outputIsHeldAndRateLimited :
    let f := fun p u => outputForm Frac.zero (Frac.ofInt 60000) (Frac.ofInt 1000) (Frac.ofInt p) (Frac.ofInt u)
    (f 60000 60800).1 = Frac.ofInt 60000 ∧ (f 60000 59600).1 = Frac.ofInt 59600 ∧ (f 59600 58290).1 = Frac.ofInt 58600 := by decide +kernel

/-- The example of chapter 11: R = 2450 bit times with a turn-round of 250 in every PONG is a delay of 1100 bit times, with the 16th PONG. -/
theorem test_pongGivesDelay :
    (devOf (exec (.pongReceived 7 7 (cellRec 0x21 (zeros 10 ++ le 4 250 ++ zeros 4)) 2450) (stOf (cellDev (List.replicate 15 2200))))).fld
      (F.clnCellDly_a 47) = 1100 := by
  decide +kernel

/-- The example of chapter 10: 2180 bit times with a turn-round of 1800 is a delay of 190 bit times. -/
theorem test_echoGivesDelay :
    ((devOf (exec (.respReceived 31 (linkRec 0xC3 2 7 (zeros 8 ++ le 4 1800 ++ zeros 12)) 2180) (stOf (elkDev 3 { ctrls := [⟨7, 2, 0, 0, 0, 0⟩] })))).elink 31).echoes
      = [190] := by decide +kernel

/-- Leg 3 of the example of chapter 13, before a period end at tick 32 000: `hi` is its compare, `per` what is staged. -/
def leg3 (duty per act : Nat) (x : Leg) : Dev :=
  { (readyDev |>.setFld (F.pwmLegCfg_src 3) 1 |>.setFld (F.pwmLegDt_dtR 3) 240 |>.setFld (F.pwmLegDt_dtF 3) 240 |>.setFld (F.pwmLegMp_minPulse 3) 400
      |>.setFld (F.pwmLegCfg_bstN 3) 4 |>.setFld (F.pwmLegMp_bstW 3) 1600 |>.setFld (F.pwmPerAct_v 3) act |>.setFld (F.pwmPerStg_v 3) per
      |>.setFld (F.pwmDutyStg_v 3) duty |>.setFld (F.pwmLegStat_state 3) 2 |>.setFld (F.pwmLegCfg_upd 3) 0) with
    pwm := { legs := [(3, x)] } }

/-- At 4.000 µs the commit takes effect, the count becomes 6, and the low-side pulse of −40 ticks is dropped: the period is high throughout. -/
theorem test_commitDropsShortLowPulse :
    let d := devOf (exec (.pwmBoundary 3) (stOf (leg3 31800 32000 32000 { high := 16000, cmpNew := true, commits := 5, cmpAt := 5, pendingAt := some 5600 })))
    (d.leg 3).commits = 6 ∧ (d.leg 3).high = 32000 ∧ d.flag (F.pwmLegFlags_pairSplit 3) = false := by decide +kernel

/-- At 12.000 µs a period committed without its duty, staged at an earlier count, sets `pair_split`. -/
theorem test_commitOfPeriodAloneSplitsPair :
    let d := devOf (exec (.pwmBoundary 3) (stOf (leg3 31800 24000 32000 { high := 32000, perNew := true, commits := 6, cmpAt := 5, perAt := 6, pendingAt := some 5600 })))
    d.fld (F.pwmPerAct_v 3) = 24000 ∧ (d.leg 3).high = 24000 ∧ d.flag (F.pwmLegFlags_pairSplit 3) = true := by decide +kernel

/-- The example of chapter 13: a crossing of the hard comparator latches `hard_oc` of the leg, which leaves its state. -/
theorem test_hardComparatorLatches :
    let d := devOf (exec (.hardComparatorTrip 7) (stOf (legDev 7 2)))
    d.flag (F.gdpLegLatch_hardOc 7) = true ∧ d.legState 7 = 4 := by decide +kernel

/-- The example of chapter 14: a third firing while a conversion is pending is dropped, and `overrun` sets. -/
theorem test_thirdTriggerOverruns :
    let d := devOf (exec (.adcSlotFire 5 7) (stOf (pairDev { freeA := 800, freeB := 960, pend := some (conv7 none) } true)))
    d.flag (F.adcPairStat_overrun 5) = true ∧ (d.adcPair 5).pend = some (conv7 none) := by decide +kernel

/-- The example of chapter 18: s = 160 gives pauses of 46, 93 and 140 cycles at levels 1 to 3. -/
theorem test_pausesOfTheWorkedExample :
    let d := (readyDev.setBitAt R.lpcEngEn 7 true).setFld (F.lpcEngSlack_slack 7) 160
    (List.map (fun l => (d.setFld F.thsStat_level l).engPause 7) [1, 2, 3]) = [46, 93, 140] := by decide +kernel

/-- FAULT_CLEAR of the example of chapter 16: source 249 stays sticky while it is present, and clears once it is not. -/
theorem test_faultClearOfTheWorkedExample :
    let c := cmdOf (le 4 7 ++ le 4 0x02000000)
    let d := readyDev.setSticky 249 true
    (devOf (exec (.faultClear c) (stOf d))).sticky 249 = false ∧
      (devOf (exec (.faultClear c) (stOf (d.setBitAt (R.fltPresent 7) 25 true)))).sticky 249 = true := by decide +kernel

/-- R91: at 250 km/h a train moves 69 444.4 mm in one second, rounded towards its reference. -/
theorem test_trainExtrapolates :
    (⟨3, 48200000, 0, 69444, 0, 3⟩ : Train).at 500000000 = 48234722 ∧ (⟨3, 48200000, 0, -69445, 0, 3⟩ : Train).at 500000000 = 48165278 := by
  decide +kernel

/-- R11, R8: a direct write to an RW register changes nothing; REG_WRITE of the same register does. -/
theorem test_rwRegisterOnlyByCommand :
    (devOf (exec (.bar0Write R.lpcEngEn 1#32) ready)).reg R.lpcEngEn = readyDev.reg R.lpcEngEn ∧
    (devOf (exec (.regWrite (cmdOf (regPayload R.lpcEngEn 0 1))) ready)).regN R.lpcEngEn = readyDev.regN R.lpcEngEn - readyDev.regN R.lpcEngEn % 2 := by
  decide +kernel

/-- R27: economy mode ends when its dwell is over. -/
theorem test_economyEnds : (devOf (exec .economyExit (stOf dwellDev))).economy = false ∧ dwellDev.economy = true := by decide +kernel

/-- R39: a command of a wrong length is refused and changes no register outside the command processor; a right one runs. -/
theorem test_wrongLengthIsRefused :
    (devOf (exec (.econConfig (cmdOf (zeros 4))) ready)).reg R.thsEconCtrl = readyDev.reg R.thsEconCtrl ∧
    (devOf (exec (.econConfig (cmdOf (le 4 0x000A0000 ++ zeros 4))) ready)).regN R.thsEconCtrl = 0x000A0000 := by decide +kernel

/-- The command at the front of the queue runs first. -/
theorem test_queueIsFirstInFirstOut :
    let t := (match step ⟨readyDev, [.throttleDisable, .powerUp]⟩ with | .next t => t | _ => ready)
    t.pending = [.powerUp] ∧ t.dev.flag F.thsCtrl_thrEn = false := by decide +kernel

/-! ### Every check of WellFormed refuses an ill-formed term -/

/-- Zero bytes as a wire record. -/
def rec0 (n : Nat) : WireRec := ⟨zeros n⟩
/-- A packet with payload length `n` that says `m`, from `v`. -/
def packet (v : Via) (n m : Nat) : Cmd := { cmdOf (zeros n) with via := v, length := m }

theorem test_wf_packets :
    [Instr.devInfo (packet (.ring 8) 16 16), .devInfo (packet (.udp (2 ^ 32) 0) 16 16), .devInfo (packet (.udp 0 65536) 16 16),
      .devInfo (packet (.ring 0) 16 65536), .echo (packet (.ring 0) 1009 1009)].all (fun i => !i.wf) = true ∧
    (Instr.devInfo (packet (.ring 7) 16 16)).wf = true := by decide +kernel

/-- The constructors that carry a packet. -/
def packetRows : List (Cmd → Instr) :=
  [.devInfo, .devRestart, .eventSubscribe, .reqClose, .econConfig, .mapLoad, .circuitSet, .circuitClear, .circuitQuery, .portCeiling, .circuitBatch,
   .scheduleQuery, .moveCancel, .sluiceStatus, .lawLoad, .loopBind, .coefSwap, .setpointSet, .loopQuery, .placePin, .placeUnpin, .placeHint, .placeStats,
   .trainReport, .trainDrop, .wsenseConfig, .timeQuery, .sstStart, .sstStop, .periodSet, .cellBypass, .neutralSection, .sstQuery, .legConfig, .legEnable,
   .lvReference, .legQuery, .adcConfig, .adcInject, .dacConfig, .dacEnable, .calRun, .calGap, .calBank, .faultMap, .faultClear, .faultORelease, .faultQuery,
   .twinPair, .twinYield, .twinQuery, .traceArm, .harvest, .traceStop, .regRead, .regWrite, .echo, .memStatus, .cfgWrite, .sessionOpen, .sessionClose,
   .imageUpdate, .attest]

theorem test_wf_every_packet_row : packetRows.all (fun f => !(f (packet (.ring 8) 0 0)).wf && (f (packet (.ring 7) 0 0)).wf) = true := by decide +kernel

theorem test_wf_boot_and_rings :
    [Instr.bootVerifyDone 2 (slotImg true) (slotImg true), .bootVerifyDone 0 { slotImg true with version := 2 ^ 32 } (slotImg true),
      .bootVerifyDone 0 (slotImg true) { slotImg true with rollback := 256 }, .imageUpdateComplete { slotImg true with digest := 2 ^ 384 },
      .imageUpdateComplete { slotImg true with cfg := [(2 ^ 22, 0)] }, .imageUpdateComplete { slotImg true with sets := [(0x1100, [])] },
      .imageUpdateComplete { slotImg true with ucode := [(4096, 0)] }, .imageUpdateComplete { slotImg true with dir := [(64, 0, 0)] },
      .functionReady 64, .supplyExcursion 12 0, .supplyExcursion 0 32768, .supplyRecover 12 0, .supplyRecover 0 32768, .sqTailDoorbell 8 0 [] [],
      .cqHeadDoorbell 8 0, .ringConfigWrite 0x10C 0, .ringConfigWrite 0x309 0, .ringEnable 8 0, .ringDisable 8 0, .ringDisableEffect 8, .ringDmaError 8,
      .udpDatagram (2 ^ 32) 0 true [] [], .udpDatagram 0 65536 true [] [], .cqStallTimeout 8, .msixCoalesceExpiry 8, .bar0Write (2 ^ 22) 0,
      .bar0Write 2 0].all (fun i => !i.wf) = true := by decide +kernel

theorem test_wf_optics :
    [Instr.lawSwitch 47, .lawSwitch 64, .engineDisable 16, .engineEnable 16, .engineRestart 16 true, .engineParityError 16 true, .linkDisable 32,
      .linkEnable 32, .blockEvaluate 16 0, .blockEvaluate 0 68, .markFire 4096, .angleMarkFire 4096, .trainConfidenceFall 64, .wheelPulse 8,
      .ceilingTrip 512, .sluiceStart 64, .segmentEnd ⟨64, none⟩, .sluiceRearmEnd 64, .stallAbandon 64, .segmentWrite ⟨2 ^ 15, 0, 0, true, .step 0⟩,
      .segmentWrite ⟨0, 2 ^ 18, 0, true, .step 0⟩, .segmentWrite ⟨0, 0, 2 ^ 15, true, .step 0⟩, .segmentWrite ⟨0, 0, 0, true, .step 6144⟩,
      .segmentWrite ⟨0, 0, 0, true, .library 0 16 true 0⟩, .segmentWrite ⟨0, 0, 0, true, .library 0 0 true 4⟩,
      .segmentWrite ⟨0, 0, 0, true, .sweep 0 true 256 0 []⟩, .segmentWrite ⟨0, 0, 0, true, .sweep 0 true 0 (2 ^ 15) []⟩,
      .segmentWrite ⟨0, 0, 0, true, .sweep 0 true 0 0 [65536]⟩, .loopRestore 6144,
      .samplesReceived 32 (rec0 224), .samplesReceived 0 (rec0 1044), .fastupReceived 32 (rec0 24), .fastupReceived 0 (rec0 23),
      .respReceived 32 (rec0 32) 0, .respReceived 0 (rec0 33) 0, .ctrlTimeout 32, .linkLost 32 1, .linkLost 0 0, .linkLost 0 3, .linkLate 32,
      .linkTrainStep 32, .linkRetryTimer 32].all (fun i => !i.wf) = true := by decide +kernel

theorem test_wf_power :
    [Instr.chainDisable 8, .chainEnable 8, .measReceived 8 0 (rec0 32), .measReceived 0 8 (rec0 32), .measReceived 0 0 (rec0 31),
      .pongReceived 8 0 (rec0 24) 0, .pongReceived 0 8 (rec0 24) 0, .pongReceived 0 0 (rec0 25) 0, .ackReceived 8 0 (rec0 20), .ackReceived 0 8 (rec0 20),
      .ackReceived 0 0 (rec0 21), .cmdTimeout 48, .cellLost 48, .chainLost 8, .chainTrainStep 8, .chainRetryTimer 8, .cellLinkSyncLoss 8 0,
      .cellLinkSyncLoss 0 8, .pwmStageWrite 0xC0110 0, .pwmBoundary 8, .refreshPulse 8, .legPrechargeEnd 8, .pwmTriggerPulse 8 true, .mainComparatorTrip 8,
      .hardComparatorTrip 8, .shootThroughBlock 8, .tripInAssert 4 true, .drvEnRise 256 0, .drvEnRise 0 256, .bootstrapUndervoltage 8 true,
      .angleLock (2 ^ 32) 0 0, .angleLock 0 (2 ^ 32) 0, .angleLock 0 0 (2 ^ 32), .catenaryLoss (2 ^ 32), .lossOfLock (2 ^ 32)].all (fun i => !i.wf) = true := by
  decide +kernel

theorem test_wf_converters_and_services :
    [Instr.adcPairDisable 6, .adcPairEnable 6, .dacQueuePush 16 0, .adcSlotFire 6 0, .adcSlotFire 0 8, .adcConversionDone 6 true 0,
      .adcConversionDone 0 true 65536, .adcRefSettled 6, .adcInjectTimeout 6, .dacSampleTick 16, .dacEnableSettle 16, .dacDrainDone 16,
      .dacSpanRelaySettle 16, .rakeComplete ⟨64, none⟩ (rake true), .rakeComplete ⟨0, some 64⟩ (rake true), .rakeComplete ⟨0, none⟩ ⟨6144, true, [], [], []⟩, .liveStepComplete ⟨0, true, zeros 129, [], []⟩,
      .liveStepComplete ⟨0, true, [], zeros 9, []⟩, .liveStepComplete ⟨0, true, [], [], zeros 9⟩, .detectedGapOpen 1024,
      .calJobComplete true true [⟨256, 0, []⟩], .calJobComplete true true [⟨0, 2 ^ 32, []⟩], .faultSourceAssert 423, .fltSelfCheckFail 3,
      .sensorReading 28 0, .sensorReading 0 (-32769), .sensorReading 0 32768, .sramUncorrectable 6 0 0, .sramUncorrectable 0 0 (2 ^ 32),
      .ddrUncorrectable 2 0 0 0, .ddrUncorrectable 0 6 0 0, .ddrUncorrectable 0 0 0 (2 ^ 32), .heartbeatReceived (rec0 41), .twinLinkLost 4,
      .mirrorReceived (rec0 1044), .mackReceived (rec0 17), .forwardReceived (rec0 1044), .fresultReceived (rec0 17), .yieldReceived (rec0 17),
      .digestReceived (rec0 129), .ddrTrainingFailed 2, .eccCorrectedError 3 0, .eccCorrectedError 0 (2 ^ 32)].all (fun i => !i.wf) = true := by
  decide +kernel

/-- The table gives no bits, so no word spells a command (Decode.lean). -/
theorem test_noWordDecodes : decodeTableWord 32 0xFFFFFFFF = none ∧ (ready.withFetchWord 32 0xFFFFFFFF) = ready := by decide +kernel

end Sys2Proof.Tests
end

/-! The proofs of the family 00_scope: direct writes (O32), captured high words (O52), and the checks before a command runs (O58). -/

namespace Sys2Proof.Machine

/-! ### Direct writes through BAR0 (R8 to R11, Table 0-2) -/

/-- BAR0_WRITE ends with the device that the direct write leaves. -/
theorem exec_bar0Write (s : State) (off : Nat) (v : Word) :
    exec (.bar0Write off v) s = .next (s.after (s.dev.writeBar0 off v)) := rfl

/-- Nothing arrives while BAR0 is disabled (R74). -/
theorem Dev.writeBar0_disabled (d : Dev) (off : Nat) (v : Word) (h : d.flag F.cpxReady1_pcie = false) : d.writeBar0 off v = d := by
  simp [Dev.writeBar0, Dev.direct, h]

theorem Dev.writeBar0_noRegister (d : Dev) (off : Nat) (v : Word) (h : regBankAt off = none) : d.writeBar0 off v = d := by
  simp [Dev.writeBar0, Dev.direct, h]

/-- A direct write changes no register with the access RO, RW or CW. -/
theorem Dev.writeBar0_notDirect (d : Dev) (off : Nat) (v : Word) {k : RegBank} (hk : regBankAt off = some k)
    (ha : k.acc = .ro ∨ k.acc = .rw ∨ k.acc = .cw) : d.writeBar0 off v = d := by
  rcases ha with ha | ha | ha <;> simp [Dev.writeBar0, Dev.direct, hk, ha]

theorem Dev.writeBar0_w1c (d : Dev) (off : Nat) (v : Word) {k : RegBank} (hk : regBankAt off = some k) (ha : k.acc = .w1c)
    (h : d.flag F.cpxReady1_pcie = true) : d.writeBar0 off v = d.writeW1c off v k.wmask := by
  simp [Dev.writeBar0, Dev.direct, hk, ha, h]

theorem Dev.writeBar0_d (d : Dev) (off : Nat) (v : Word) {k : RegBank} (hk : regBankAt off = some k) (ha : k.acc = .d)
    (h : d.flag F.cpxReady1_pcie = true) : d.writeBar0 off v = d.writeD off v := by
  simp [Dev.writeBar0, Dev.direct, hk, ha, h]

/-- Ones clear the bits of a W1C register that has no effect beyond its bits. -/
theorem Dev.writeW1c_plain (d : Dev) (off : Nat) (v mask : Word) (he : indexAt (R.lpcEngErr 0) 0x10 16 off = none)
    (hr : indexAt (R.cpxRingStat 0) 0x40 8 off = none) : d.writeW1c off v mask = d.setReg off (d.reg off &&& ~~~(v &&& mask)) := by
  simp only [Dev.writeW1c, he, hr]

/-- Clearing bits of CPX.RING_STAT lets held replies go out (R62). -/
theorem Dev.writeW1c_ringStat (d : Dev) (off : Nat) (v mask : Word) {n : Nat} (he : indexAt (R.lpcEngErr 0) 0x10 16 off = none)
    (hr : indexAt (R.cpxRingStat 0) 0x40 8 off = some n) :
    d.writeW1c off v mask = (d.setReg off (d.reg off &&& ~~~(v &&& mask))).releaseRing n := by
  simp only [Dev.writeW1c, he, hr]

/-- A write of LPC.ENG_ERR that does not clear `stopped` of a stopped engine clears the two other bits. -/
theorem Dev.writeW1c_engErr_clears (d : Dev) (off : Nat) (v mask : Word) {e : Nat} (he : indexAt (R.lpcEngErr 0) 0x10 16 off = some e)
    (h : d.flag (F.lpcEngErr_stopped e) = false ∨ bit v.toNat 0 = false) :
    d.writeW1c off v mask = d.setReg off (d.reg off &&& ~~~(v &&& 6)) := by
  have hno : (bit v.toNat 0 && d.flag (F.lpcEngErr_stopped e)) = false := by
    rcases h with h | h <;> simp [h]
  simp [Dev.writeW1c, he, hno]

/-- A write of LPC.ENG_ERR that clears `stopped` of a stopped engine restarts it (Table 7-19). -/
theorem Dev.writeW1c_engErr_restarts (d : Dev) (off : Nat) (v mask : Word) {e : Nat} (he : indexAt (R.lpcEngErr 0) 0x10 16 off = some e)
    (hs : d.flag (F.lpcEngErr_stopped e) = true) (hv : bit v.toNat 0 = true) :
    d.writeW1c off v mask = (d.fresh 2).2.restartEngine e (decide ((d.fresh 2).1 = 1)) := by
  simp [Dev.writeW1c, he, hs, hv]

/-- No window of BAR0 has a bank of registers with the access W1S. -/
theorem regBanks_acc_ne_w1s (window : Nat) : ∀ b ∈ regBanks window, b.acc ≠ .w1s := by
  unfold regBanks
  split <;> decide

/-- The bank found at an offset is one of its window's. -/
theorem mem_regBanks_of_regBankAt {off : Nat} {k : RegBank} (h : regBankAt off = some k) : k ∈ regBanks (off / 0x10000) := by
  unfold regBankAt at h
  split at h
  · exact List.mem_of_find?_eq_some h
  · exact absurd h (by simp)

theorem regBankAt_acc_ne_w1s {off : Nat} {k : RegBank} (h : regBankAt off = some k) : k.acc ≠ .w1s :=
  regBanks_acc_ne_w1s _ k (mem_regBanks_of_regBankAt h)

/-- Settles O32: one equation of `Dev.writeBar0` for each access code. -/
theorem directWritesFollowTheAccessCode : Obligations.DirectWritesFollowTheAccessCode := by
  intro s off v
  simp only [exec_bar0Write]
  refine ⟨fun h => ?_, fun h => ?_, fun k hk ha => ?_, fun k hk => regBankAt_acc_ne_w1s hk, fun k hk ha hp he hr => ?_,
    fun k n hk ha hp he hr => ?_, fun k e hk ha hp he => ⟨fun h => ?_, fun hs hv => ?_⟩, fun k hk ha hp => ?_⟩
  · rw [Dev.writeBar0_disabled _ _ _ h]
  · rw [Dev.writeBar0_noRegister _ _ _ h]
  · rw [Dev.writeBar0_notDirect _ _ _ hk ha]
  · rw [Dev.writeBar0_w1c _ _ _ hk ha hp, Dev.writeW1c_plain _ _ _ _ he hr]
  · rw [Dev.writeBar0_w1c _ _ _ hk ha hp, Dev.writeW1c_ringStat _ _ _ _ he hr]
  · rw [Dev.writeBar0_w1c _ _ _ hk ha hp, Dev.writeW1c_engErr_clears _ _ _ _ he h]
  · rw [Dev.writeBar0_w1c _ _ _ hk ha hp, Dev.writeW1c_engErr_restarts _ _ _ _ he hs hv]
  · rw [Dev.writeBar0_d _ _ _ hk ha hp]

/-! ### Reads of 64-bit quantities (R12) -/

theorem indexAt_isSome_iff (base stride n off : Nat) :
    (indexAt base stride n off).isSome = true ↔ base ≤ off ∧ (off - base) % stride = 0 ∧ (off - base) / stride < n := by
  simp [indexAt, and_assoc]

/-- No register is both the high word of one 64-bit quantity and the low word of another. -/
theorem lowWord_add_four {off : Nat} (h : lowWord off = true) : lowWord (off + 4) = false := by
  rw [← Bool.not_eq_true]
  intro h'
  simp only [lowWord, Bool.or_eq_true, indexAt_isSome_iff, List.contains_eq_mem, List.mem_cons, List.not_mem_nil, or_false,
    decide_eq_true_eq, R.tbuFrameLo, R.tbuTaiLo, R.tbuEvseqLo, R.lpcSwapLo, R.calSwitchLo, R.twnPairOfsLo, R.cpxEqBaseLo, R.elkFeIdLo,
    R.memDdrEaddrLo, R.cpxSqBaseLo, R.cpxCqBaseLo] at h h'
  omega

/-- A low word is returned as it stands, and the high word captured; the shadow holds one more than the word, 0 meaning none. -/
theorem Dev.readReg_lowWord (d : Dev) {off : Nat} (h : lowWord off = true) :
    d.readReg off = (d.view off, { d with shadow := tput (fun _ => 0) d.shadow (off + 4) ((d.view (off + 4)).toNat + 1) }) := by
  rw [Dev.readReg, if_pos h]

/-- Without a capture a register reads as it stands. -/
theorem Dev.readReg_uncaptured (d : Dev) {off : Nat} (h : lowWord off = false) (hx : tget (fun _ => 0) d.shadow off = 0) :
    d.readReg off = (d.view off, d) := by
  simp [Dev.readReg, h, hx]

/-- A captured word is returned and used up. -/
theorem Dev.readReg_captured (d : Dev) {off : Nat} {w : Word} (h : lowWord off = false)
    (hx : tget (fun _ => 0) d.shadow off = w.toNat + 1) :
    d.readReg off = (w, { d with shadow := tput (fun _ => 0) d.shadow off 0 }) := by
  simp [Dev.readReg, h, hx]

/-- Settles O52: the shadow that the read of the low word leaves decides the next two reads of the high word. -/
theorem lowWordReadCapturesHighWord : Obligations.LowWordReadCapturesHighWord := by
  intro d off hlow
  have hhigh := lowWord_add_four hlow
  refine ⟨by rw [d.readReg_lowWord hlow], fun t ht => ?_, fun hx => by rw [d.readReg_uncaptured hhigh hx]⟩
  have hcap : tget (fun _ => 0) t.shadow (off + 4) = (d.view (off + 4)).toNat + 1 := by
    rw [ht, d.readReg_lowWord hlow, tget_tput_same]
  rw [t.readReg_captured hhigh hcap]
  exact ⟨rfl, by rw [Dev.readReg_uncaptured _ hhigh (tget_tput_same _ _ _ _)]⟩

/-! ### Checks before a command runs (R10, R39, R40, R55, R390) -/

theorem Dev.Keeps.trans {a b c : Dev} (h : a.Keeps b) (k : b.Keeps c) : a.Keeps c :=
  ⟨k.rest.trans h.rest, fun off ho he => (k.regs off ho he).trans (h.regs off ho he)⟩

/-- The command processor's own state counts as inside it. -/
theorem Dev.keeps_withCpx (d : Dev) (c : Cpx) : d.Keeps { d with cpx := c } := ⟨rfl, fun _ _ _ => rfl⟩

/-- The registers of its window count as inside the command processor. -/
theorem Dev.keeps_setReg (d : Dev) (off : Nat) (w : Word) (h : off < 0x10000) : d.Keeps (d.setReg off w) :=
  ⟨rfl, fun o ho _ => d.reg_setReg_other off o w (by omega)⟩

/-- A count of BUSY replies changes a register of the CPX window at most. -/
theorem Dev.countBusy_eq (d : Dev) (st : Nat) : d.countBusy st = d ∨ ∃ w, d.countBusy st = d.setReg R.cpxBusyCount w := by
  unfold Dev.countBusy
  split
  · exact .inr ⟨_, rfl⟩
  · exact .inl rfl

theorem Dev.keeps_countBusy (d : Dev) (st : Nat) : d.Keeps (d.countBusy st) := by
  rcases d.countBusy_eq st with h | ⟨w, h⟩ <;> rw [h]
  · exact d.keeps_withCpx d.cpx
  · exact d.keeps_setReg _ _ (by decide)

theorem Dev.countBusy_cpx (d : Dev) (st : Nat) : (d.countBusy st).cpx = d.cpx := by
  rcases d.countBusy_eq st with h | ⟨w, h⟩
  · rw [h]
  · rw [h, Dev.setReg_cpx]

theorem Dev.countBusy_twn (d : Dev) (st : Nat) : (d.countBusy st).twn = d.twn := by
  rcases d.countBusy_eq st with h | ⟨w, h⟩
  · rw [h]
  · rw [h, Dev.setReg_twn]

/-- Whether a unit is the active one of a pair stands in TWN.STAT. -/
theorem Dev.pairedActive_congr {a b : Dev} (h : a.reg R.twnStat = b.reg R.twnStat) : a.pairedActive = b.pairedActive :=
  congrArg (fun w => decide (fieldOf F.twnStat_role w = 1) && decide (fieldOf F.twnStat_paired w ≠ 0)) h

theorem Dev.countBusy_pairedActive (d : Dev) (st : Nat) : (d.countBusy st).pairedActive = d.pairedActive :=
  Dev.pairedActive_congr ((d.keeps_countBusy st).regs _ (by decide) (by decide))

theorem Dev.reply_decided (d : Dev) (r : Reply) : d.reply (d.decided r) = d.reply r := by simp [Dev.reply, Dev.decided]

/-- Where no twin follows, every reply goes out at once. -/
theorem Dev.answer_alone (d : Dev) (r : Reply) (hp : d.pairedActive = false) (hf : d.twn.fwdSent = []) : d.answer r = d.reply r := by
  simp [Dev.answer, hp, hf, Dev.reply_decided]

/-- A recorded final reply without a twin: beyond the BUSY count it touches the command processor's state alone, and there neither
the open nor the waiting commands. -/
theorem Dev.close_alone (d : Dev) (p : Packet) (q st : Nat) (result : Bytes) (hp : d.pairedActive = false) (hf : d.twn.fwdSent = []) :
    d.close p q true st result = { d.countBusy st with cpx := (d.close p q true st result).cpx } ∧
      (d.close p q true st result).cpx.opened = d.cpx.opened ∧ (d.close p q true st result).cpx.waiting = d.cpx.waiting := by
  have ha : ∀ r, (d.countBusy st).answer r = (d.countBusy st).reply r := fun r =>
    Dev.answer_alone _ r (by rw [Dev.countBusy_pairedActive, hp]) (by rw [Dev.countBusy_twn, hf])
  have ho : (d.countBusy st).cpx.opened = d.cpx.opened := by rw [Dev.countBusy_cpx]
  have hw : (d.countBusy st).cpx.waiting = d.cpx.waiting := by rw [Dev.countBusy_cpx]
  unfold Dev.close
  simp only [ha, Bool.not_true, Bool.false_eq_true, if_false]
  split
  · exact ⟨rfl, ho, hw⟩
  · exact ⟨rfl, ho, hw⟩

/-- A refused command gets its reply, and nothing outside the command processor changes. -/
theorem Dev.startCmd_refused (d : Dev) (q st : Nat) (p : Packet) (hp : d.pairedActive = false) (hf : d.twn.fwdSent = [])
    (h : d.refusal q true p = some st) :
    d.startCmd q true p = d.close p q true st [] ∧ d.Keeps (d.startCmd q true p) ∧
      (d.startCmd q true p).cpx.opened = d.cpx.opened ∧ (d.startCmd q true p).cpx.waiting = d.cpx.waiting := by
  have hs : d.startCmd q true p = d.close p q true st [] := by simp only [Dev.startCmd, h]
  obtain ⟨hc, ho, hw⟩ := d.close_alone p q st [] hp hf
  rw [hs]
  refine ⟨rfl, ?_, ho, hw⟩
  rw [hc]
  exact (d.keeps_countBusy st).trans (Dev.keeps_withCpx _ _)

/-- A packet of the bound requester, without a key and with its header and payload in order, is refused for the unit's role or for a
function that is not ready, in this order, and for nothing else. -/
theorem Dev.refusal_of_wellFormed (d : Dev) (q : Nat) (p : Packet) (row : OpRow) (hrow : opRow p.opcode.toNat = some row)
    (hkey : row.key = none) (hq : p.cmd.requester.toNat = q) (h1 : 1 ≤ q) (h2 : q < 0xFFFF) (hl : row.lengthOk p.cmd.length = true)
    (hf : flagReserved p.cmd.flags = false) (hd : descOk p = true) :
    d.refusal q true p = if row.active && d.standby then some St.notActive
      else if !d.groupReady p.opcode.toNat p.cmd.payload (d.namedChain p) then some St.notReady else none := by
  have hne0 : q ≠ 0 := by omega
  have hneF : q ≠ 0xFFFF := by omega
  simp [Dev.refusal, hq, hne0, hneF, hrow, hkey, hl, hf, hd]

/-- In optical safe a command of R390 that its function does not find malformed is refused and changes nothing. -/
theorem bodyOf_opticalSafe (op : Nat) (d : Dev) (c : Call) (h : opticalSafeRefuses op c.packet.cmd.payload = true)
    (hs : d.flag F.fltState_osafe = true) (hb : (functionOf op d c).2 ≠ .final St.badParam []) :
    bodyOf op d c = (d, .final St.refused []) := by
  simp [bodyOf, refuse, h, hs, hb]

/-- What its function finds malformed is answered so, in optical safe too. -/
theorem bodyOf_malformed (op : Nat) (d : Dev) (c : Call) (hb : (functionOf op d c).2 = .final St.badParam []) :
    bodyOf op d c = functionOf op d c := by
  simp [bodyOf, hb]

/-- Settles O58: the refusal's reply touches the command processor alone, `Dev.refusal` has three outcomes for a well-formed packet, and
`bodyOf` refuses in optical safe what its function does not find malformed. -/
theorem commandsAreCheckedBeforeTheyRun : Obligations.CommandsAreCheckedBeforeTheyRun := by
  refine ⟨fun d q st p hp hf h => d.startCmd_refused q st p hp hf h, fun d q p row hrow hkey hq h1 h2 hl hf hd => ?_, fun d op c => ⟨?_, ?_⟩⟩
  · rw [d.refusal_of_wellFormed q p row hrow hkey hq h1 h2 hl hf hd]
    refine ⟨fun ha hs => ?_, fun hs hg => ?_, fun hs hg => ?_⟩
    · simp [ha, hs]
    · simp [hs, hg]
    · simp [hs, hg]
  · exact bodyOf_opticalSafe op d c
  · rintro (h | h | h)
    · exact bodyOf_permitted op d c (by rw [h, Bool.false_and])
    · exact bodyOf_permitted op d c (by rw [h, Bool.and_false])
    · exact bodyOf_malformed op d c h

end Sys2Proof.Machine

/-! The proofs of the family 01_architecture: the end of every row (O4, O6), the rows of the frame strobe, economy mode, sensors and supplies
(O29), of the control period (O38), and of power and reset (O34). -/

namespace Sys2Proof.Machine

/-! ### Every row commits or faults -/

theorem commitIf_ok {ok : Bool} (h : ok = true) (what : String) (s : State) (d : Dev) : commitIf ok what s d = .next (s.after d) := by
  rw [commitIf, if_pos h, commit]

theorem commitIf_commits_or_faults (ok : Bool) (what : String) (s : State) (d : Dev) :
    (∃ d', commitIf ok what s d = commit s d') ∨ ∃ f, commitIf ok what s d = .fault f := by
  unfold commitIf
  split
  · exact .inl ⟨d, rfl⟩
  · exact .inr ⟨_, rfl⟩

/-- PWM_STAGE_WRITE finds its leg by its offset, and faults where no leg has a staging register there. -/
theorem execPwmStageWrite_commits_or_faults (off : Nat) (v : Word) (s : State) :
    (∃ d, execPwmStageWrite off v s = commit s d) ∨ ∃ f, execPwmStageWrite off v s = .fault f := by
  unfold execPwmStageWrite
  split
  · exact .inl ⟨_, rfl⟩
  · exact .inr ⟨_, rfl⟩

/-- Every row ends with `State.after` of its effect, or it faults. -/
theorem exec_commits_or_faults (c : Instr) (s : State) : (∃ d, exec c s = commit s d) ∨ ∃ f, exec c s = .fault f := by
  cases c
  case pwmStageWrite off v => exact execPwmStageWrite_commits_or_faults off v s
  case
      pwmBoundary | refreshPulse | legPrechargeEnd | pwmTriggerPulse | mainComparatorTrip | hardComparatorTrip | shootThroughBlock |
      tripInAssert | bootstrapUndervoltage | wheelPulse | trainConfidenceFall | markFire | angleMarkFire | adcSlotFire |
      adcConversionDone | adcRefSettled | adcInjectTimeout | adcPairDisable | adcPairEnable | dacQueuePush | dacSampleTick |
      dacEnableSettle | dacDrainDone | dacSpanRelaySettle | sluiceStart | segmentEnd | sluiceRearmEnd | stallAbandon | blockEvaluate |
      loopRestore | engineParityError | engineRestart | engineDisable | engineEnable | linkLost | ctrlTimeout | linkTrainStep |
      linkRetryTimer | linkLate | respReceived | samplesReceived | fastupReceived | linkDisable | linkEnable | lawSwitch |
      rakeComplete | detectedGapOpen | faultSourceAssert | fltSelfCheckFail | chainDisable | chainEnable | measReceived |
      pongReceived | ackReceived | cmdTimeout | cellLost | cellLinkSyncLoss | chainLost | chainTrainStep | chainRetryTimer |
      sensorReading | supplyExcursion | supplyRecover | sramUncorrectable | ddrUncorrectable | eccCorrectedError |
      ddrTrainingFailed | ceilingTrip | bootVerifyDone | functionReady | sqTailDoorbell | cqHeadDoorbell | ringConfigWrite |
      ringEnable | ringDisable | ringDisableEffect | ringDmaError | cqStallTimeout | msixCoalesceExpiry | twinLinkLost =>
    exact commitIf_commits_or_faults _ _ s _
  all_goals exact .inl ⟨_, rfl⟩

/-- A row that goes on ends with `State.after` of its effect. -/
theorem exec_next_after {c : Instr} {s t : State} (h : exec c s = .next t) : ∃ d, t = s.after d := by
  rcases exec_commits_or_faults c s with ⟨d, hd⟩ | ⟨f, hf⟩
  · exact ⟨d, Host.Outcome.next.inj (h.symm.trans hd)⟩
  · exact absurd (h.symm.trans hf) (by simp)

/-- A timebase count changes the clock alone, so what ECON_STAT shows stays true. -/
theorem Dev.econOk_tick {d : Dev} {pending : List Instr} (h : State.econOk ⟨d, pending⟩) : State.econOk ⟨d.tick, pending⟩ := by
  unfold Dev.tick
  split <;> exact h

theorem Dev.quiet_tick {d : Dev} {pending : List Instr} (h : State.quiet ⟨d, pending⟩) : State.quiet ⟨d.tick, pending⟩ := by
  unfold Dev.tick
  split <;> exact h

/-- Settles O4: a step on an empty queue moves the clock alone, and every row ends with a settlement of economy mode and a flush. -/
theorem everyStepShowsEconomyCausesAndSendsAll : Obligations.EveryStepShowsEconomyCausesAndSendsAll := by
  intro s t ⟨hecon, hquiet⟩ ht
  unfold step at ht
  split at ht
  next =>
    obtain rfl := Host.Outcome.next.inj ht
    exact ⟨Dev.econOk_tick hecon, Dev.quiet_tick hquiet⟩
  next c rest _ =>
    obtain ⟨d, rfl⟩ := exec_next_after ht
    exact ⟨State.econOk_after _ d, State.quiet_after _ d⟩

/-! ### What the end of a row keeps (R25 to R27) -/

/-- No twin follows a unit that is neither the active unit nor the standby of a pair. -/
theorem Dev.twinFollow_alone (d old : Dev) (ha : d.pairedActive = false) (hs : (d.standby && d.flag F.twnStat_paired) = false) :
    d.twinFollow old = d := by
  simp [Dev.twinFollow, ha, hs]

/-- What the sending of replies and events changes stands inside the command processor. -/
theorem Dev.SentFrom.keeps {a b : Dev} (h : a.SentFrom b) : a.Keeps b :=
  ⟨Dev.congr_rest h.rest (fun x => { x.rest with ths := { x.ths with dwellFrom := none } }) (fun _ => rfl), fun o ho _ => h.regs o ho⟩

theorem Dev.keeps_flush (d : Dev) : d.Keeps d.flush := (d.keeps_withCpx _).trans d.sentFrom_flush.keeps

theorem Dev.keeps_withDwell (d : Dev) (t : Option Nat) : d.Keeps { d with ths := { d.ths with dwellFrom := t } } :=
  ⟨rfl, fun _ _ _ => rfl⟩

theorem Dev.keeps_showCauses (d : Dev) : d.Keeps d.showCauses := ⟨rfl, fun o _ ho => d.reg_setReg_other _ o _ ho⟩

/-- While no trigger of economy mode has arisen, its settlement changes ECON_STAT and the dwell alone. -/
theorem Dev.keeps_settle (d : Dev) (h : d.econCauses = 0 ∨ d.economy = true) : d.Keeps d.settle ∧ d.settle.cpx = d.cpx := by
  obtain ⟨t, ht⟩ := d.settle_calm h
  rw [ht]
  exact ⟨(d.keeps_withDwell t).trans (Dev.keeps_showCauses _), rfl⟩

/-- Where nothing waits for the replies, a row ends once economy mode is settled and everything sent. -/
theorem Dev.finalize_noPost (d : Dev) (h : d.settle.cpx.post = []) : d.finalize = d.settle.flush := by
  rw [Dev.finalize, if_pos (by rw [Dev.flush_post, h])]

/-- Settles O6: the end of such a row is `Dev.settle` without a trigger and then `Dev.flush`. -/
theorem endOfRowKeepsEffect : Obligations.EndOfRowKeepsEffect := by
  intro s d ha hs hpost hcalm
  obtain ⟨hkeeps, hcpx⟩ := d.keeps_settle hcalm
  have hdev : (s.after d).dev = d.settle.flush := by
    show (d.twinFollow s.dev).finalize = _
    rw [d.twinFollow_alone _ ha hs, d.finalize_noPost (by rw [hcpx, hpost])]
  refine ⟨hdev ▸ hkeeps.trans (Dev.keeps_flush _), rfl, ?_, ?_, ?_, s.quiet_after d⟩
  · rw [hdev, Dev.flush_opened, hcpx]
  · rw [hdev, Dev.flush_waiting, hcpx]
  · rw [hdev, Dev.flush_nextOid, hcpx]

/-! ### The frame strobe, economy mode, sensors and supplies (R27, R85, R432 to R443) -/

theorem exec_frameStrobe (s : State) :
    exec .frameStrobe s = .next (s.after (if s.dev.mem.porst && !s.dev.mem.brownOut then s.dev.frameStrobe else s.dev)) := rfl

/-- Economy mode ends when a dwell that runs is over. -/
theorem exec_economyExit_dwelled (s : State) {t : Nat} (ht : s.dev.ths.dwellFrom = some t) (he : s.dev.economy = true) :
    exec .economyExit s = .next (s.after ((s.dev.advance (t + s.dev.fld F.thsEconCtrl_exitDwell * tickMs)).leaveEconomy)) := by
  show execEconomyExit s = _
  simp only [execEconomyExit, commit, ht, he, if_true]

theorem exec_economyExit_undue (s : State) (h : s.dev.ths.dwellFrom = none ∨ s.dev.economy = false) :
    exec .economyExit s = .next (s.after s.dev) := by
  show execEconomyExit s = _
  unfold execEconomyExit
  split
  · rfl
  next t ht =>
    have he : s.dev.economy = false := h.resolve_left (by simp [ht])
    rw [he]
    rfl

/-- The device as the throttle level falls by a step (R437). -/
def Dev.throttleFallen (d : Dev) (t : Nat) : Dev :=
  let d1 := d.advance (t + 100 * tickMs)
  { d1 with ths := { d1.ths with target := d1.ths.target - 1, belowFrom := none } }

theorem exec_throttleFall_due (s : State) {t : Nat} (ht : s.dev.ths.belowFrom = some t) :
    exec .throttleFall s = .next (s.after (if (s.dev.throttleFallen t).flag F.thsStat_divMode then s.dev.throttleFallen t
      else (s.dev.throttleFallen t).applyThrottle).watchFall) := by
  show execThrottleFall s = _
  simp only [execThrottleFall, commit, ht]
  rfl

theorem exec_throttleFall_undue (s : State) (h : s.dev.ths.belowFrom = none) : exec .throttleFall s = .next (s.after s.dev) := by
  show execThrottleFall s = _
  simp only [execThrottleFall, commit, h]

/-- The device with the first reading of a sensor recorded, and the highest it has shown (R432). -/
def Dev.firstReading (d : Dev) (i : Nat) (v : Int) : Dev :=
  let d1 := (d.setSensor i { d.sensor i with readAt := d.now, hist := [(d.now, v)] }).setFld (F.thsSensT_reading i) (pattern 16 v)
  if signed 16 (d1.fld (F.thsSensMax_reading i)) < v then d1.setFld (F.thsSensMax_reading i) (pattern 16 v) else d1

/-- A recorded reading judged (R433 to R437), and the corrections that follow it (R441). -/
def Dev.judgeReading (d : Dev) (i : Nat) : Dev :=
  ((((((d.crossCheck i).rateCheck i).absCheck i).fastCheck i).showHottest).watchFall).compensate

/-- A sensor's first reading comes at the clock as it stands and is its whole history. -/
theorem exec_sensorReading_first (s : State) {i : Nat} {v : Int} (hi : i < 28) (hlo : -32768 ≤ v) (hhi : v ≤ 32767)
    (hfirst : (s.dev.sensor i).hist = []) :
    exec (.sensorReading i v) s = .next (s.after ((s.dev.firstReading i v).judgeReading i)) := by
  have hok : (decide (i < 28) && decide (-32768 ≤ v) && decide (v ≤ 32767)) = true := by simp [hi, hlo, hhi]
  show execSensorReading i v s = _
  rw [execSensorReading, commitIf_ok hok]
  simp only [hfirst, if_true, List.take_nil, List.drop_nil, List.filter_nil, List.append_nil]
  rfl

theorem supplyOperands_ok {rail mv : Nat} (hr : rail < 12) (hm : mv < 32768) : (decide (rail < 12) && decide (mv < 32768)) = true := by
  simp [hr, hm]

theorem exec_supplyExcursion_leaves (s : State) {rail mv : Nat} (hr : rail < 12) (hm : mv < 32768)
    (hbad : s.dev.railGood rail mv = false) (hwas : bit (s.dev.regN R.thsSupStat) rail = true) :
    exec (.supplyExcursion rail mv) s = .next (s.after
      (((((s.dev.showRail rail mv).bumpSat (F.thsSupV_excursions rail)).setBitAt R.thsSupStat rail false).railOut rail).raiseLevel
        (404 + rail))) := by
  show execSupplyExcursion rail mv s = _
  rw [execSupplyExcursion, commitIf_ok (supplyOperands_ok hr hm)]
  simp only [hbad, hwas, Bool.not_true, Bool.false_eq_true, or_self, if_false]

/-- The device with a rail shown good again at `mv`, within its limits for 100 µs (R442). -/
def Dev.railReturned (d : Dev) (rail mv : Nat) : Dev :=
  let d1 := ((d.showRail rail mv).setBitAt R.thsSupStat rail true).clearLevel (404 + rail)
  { d1 with ths := { d1.ths with rails := tput (fun _ => {}) d1.ths.rails rail ⟨d1.now - 100 * tickUs⟩ } }

theorem exec_supplyRecover_returns (s : State) {rail mv : Nat} (hr : rail < 12) (hm : mv < 32768)
    (hgood : s.dev.railGood rail mv = true) (hwas : bit (s.dev.regN R.thsSupStat) rail = false) :
    exec (.supplyRecover rail mv) s = .next (s.after (((s.dev.railReturned rail mv).railBack rail).updateAlive)) := by
  show execSupplyRecover rail mv s = _
  rw [execSupplyRecover, commitIf_ok (supplyOperands_ok hr hm)]
  simp only [hgood, hwas, Bool.not_true, Bool.false_and, Bool.false_eq_true, if_false]
  rfl

/-- Settles O29: each row's effect under its condition, and none outside it where the statement says so. -/
theorem frameEconomySensorAndSupplyRowsTakeEffect : Obligations.FrameEconomySensorAndSupplyRowsTakeEffect := by
  intro s
  refine ⟨fun hp hb => ?_, fun h => ?_, fun t ht he => exec_economyExit_dwelled s ht he, exec_economyExit_undue s,
    fun t ht => ⟨fun (hdiv : (s.dev.throttleFallen t).flag F.thsStat_divMode = false) => ?_,
      fun (hdiv : (s.dev.throttleFallen t).flag F.thsStat_divMode = true) => ?_⟩, exec_throttleFall_undue s, rfl,
    fun i v hi hlo hhi hfirst => exec_sensorReading_first s hi hlo hhi hfirst,
    fun rail mv hr hm hbad hwas => exec_supplyExcursion_leaves s hr hm hbad hwas,
    fun rail mv hr hm hgood hwas => exec_supplyRecover_returns s hr hm hgood hwas⟩
  · simp [exec_frameStrobe, hp, hb]
  · rcases h with h | h <;> simp [exec_frameStrobe, h]
  · rw [exec_throttleFall_due s ht, if_neg (Bool.eq_false_iff.mp hdiv)]
    rfl
  · rw [exec_throttleFall_due s ht, if_pos hdiv]
    rfl

/-! ### The rows of the control period (R23, R24, R184, R185, R299, R303, R312, R315, R327) -/

/-- The device at the cut-off of the period's measurements (R24). -/
def Dev.measuredAtCutoff (d : Dev) : Dev :=
  let d1 := (d.advance (d.periodInstant 25)).takeMeasurements
  (d1.setReg R.pwmPlv (coefWord d1.pLv)).checkProtections

theorem exec_measurementCutoff (s : State) :
    exec .measurementCutoff s = .next (s.after
      (if s.dev.measuredAtCutoff.flag F.lpcPowerCfg_reserve then s.dev.measuredAtCutoff.evalPower else s.dev.measuredAtCutoff)) := rfl

/-- The device with the outputs of the period published and the bypassed cells gone (R184). -/
def Dev.publishedPeriod (d : Dev) : Dev :=
  let d1 := d.advance (d.periodInstant 40)
  (if d1.flag F.lpcPowerCfg_reserve then d1.publishPower else d1).leaveBypassed

/-- The modulation has reached `m_max` in stages 3 to 9: the condition of `overmod` (Table 12-10). -/
def Dev.pastModulation (d : Dev) : Bool :=
  decide (3 ≤ d.stage) && decide (d.stage ≤ 9) && Frac.le (Frac.mk2 (d.fld F.cmuModCfg_mMax) 100) (d.mCommon d.cmu.outNow).abs

/-- The device after `n` such periods in a row: 20 of them latch bit 6 (Table 12-10), and the lists are built (R299). -/
def Dev.endPublish (d : Dev) (n : Nat) : Dev :=
  (({ d with cmu := { d.cmu with overStreak := n } } : Dev).protLatch 6 (decide (20 ≤ n))).buildEdges.showPower

theorem exec_powerPublish (s : State) :
    exec .powerPublish s = .next (s.after (s.dev.publishedPeriod.endPublish
      (if s.dev.publishedPeriod.pastModulation then s.dev.publishedPeriod.cmu.overStreak + 1 else 0))) := rfl

theorem Dev.pastModulation_iff (d : Dev) :
    d.pastModulation = true ↔ 3 ≤ d.stage ∧ d.stage ≤ 9 ∧
      Frac.le (Frac.mk2 (d.fld F.cmuModCfg_mMax) 100) (d.mCommon d.cmu.outNow).abs = true := by
  simp [Dev.pastModulation, and_assoc]

/-- The duty of the period staged on the LV legs that run (R327). -/
def Dev.stageDuties (d : Dev) : Dev :=
  ((List.range 8).filter (fun l => d.legLv l && (d.legState l = 2 || d.legState l = 5))).foldl (fun x l => x.stageDuty d.cmu.outNow.duty l)
    (d.setReg R.pwmLvD (coefWord d.cmu.outNow.duty))

theorem exec_dutyWrite (s : State) :
    let d1 := s.dev.advance (s.dev.periodInstant 50)
    exec .dutyWrite s = .next (s.after (if (d1.lane 100).run then d1.stageDuties else d1)) := rfl

theorem exec_sstStartTimeout (s : State) :
    exec .sstStartTimeout s = .next (s.after
      (if s.dev.cmu.startCmd.isSome then (s.dev.advance s.dev.startLimit).failStart 1 else s.dev)) := rfl

theorem exec_coastExpiry_coasting (s : State) {t : Nat} (ht : s.dev.cmu.coastFrom = some t) :
    exec .coastExpiry s = .next (s.after
      (((s.dev.advance (t + s.dev.fld F.cmuCoast_coastMax * 100 * tickMs)).protCondition 4 true).protGone 4)) := by
  show execCoastExpiry s = _
  simp only [execCoastExpiry, commit, ht]

theorem exec_coastExpiry_none (s : State) (h : s.dev.cmu.coastFrom = none) : exec .coastExpiry s = .next (s.after s.dev) := by
  show execCoastExpiry s = _
  simp only [execCoastExpiry, commit, h]

/-- BRK_TRIP released `brk_min` after it was asserted (R315). -/
def Dev.releaseBrk (d : Dev) : Dev :=
  let d1 := d.advance (d.cmu.brkAt + d.fld F.cmuBrkCfg_brkMin * tickMs)
  (({ d1 with cmu := { d1.cmu with brkSource := none } } : Dev).setFlag F.cmuProtStat_brk false).event 0x0724 0 (le 1 0)

theorem exec_brkTripRelease (s : State) :
    exec .brkTripRelease s = .next (s.after (if s.dev.flag F.cmuProtStat_brk && s.dev.brkLatchClear then s.dev.releaseBrk else s.dev)) := rfl

theorem exec_periodWatchdog (s : State) :
    exec .periodWatchdog s = .next (s.after
      (if s.dev.sstUp then (s.dev.advance (s.dev.cmu.start + 4 * s.dev.periodTicks)).assertBrk 9 else s.dev)) := rfl

theorem Dev.sstUp_iff (d : Dev) : d.sstUp = true ↔ 1 ≤ d.stage ∧ d.stage ≤ 9 := by
  simp [Dev.sstUp]

/-- Settles O38: one equation for each row, and the branch that its condition takes. -/
theorem controlPeriodRowsTakeEffect : Obligations.ControlPeriodRowsTakeEffect := by
  intro s
  refine ⟨rfl, ⟨fun (hres : s.dev.measuredAtCutoff.flag F.lpcPowerCfg_reserve = false) => ?_,
      fun (hres : s.dev.measuredAtCutoff.flag F.lpcPowerCfg_reserve = true) => ?_⟩,
    ⟨fun hpast => ?_, fun hpast => ?_⟩, ⟨fun hrun => ?_, fun hrun => ?_⟩, fun h => ?_, fun h => ?_,
    fun t ht => exec_coastExpiry_coasting s ht, exec_coastExpiry_none s, fun hbrk hclear => ?_, fun h => ?_, fun hlo hhi => ?_, fun h => ?_⟩
  · rw [exec_measurementCutoff, if_neg (Bool.eq_false_iff.mp hres)]
    rfl
  · rw [exec_measurementCutoff, if_pos hres]
    rfl
  · rw [exec_powerPublish, if_pos (s.dev.publishedPeriod.pastModulation_iff.mpr hpast)]
    rfl
  · rw [exec_powerPublish, if_neg (mt s.dev.publishedPeriod.pastModulation_iff.mp hpast)]
    rfl
  · rw [exec_dutyWrite, if_neg (Bool.eq_false_iff.mp hrun)]
  · rw [exec_dutyWrite, if_pos hrun]
    rfl
  · rw [exec_sstStartTimeout, if_pos h]
  · rw [exec_sstStartTimeout, if_neg (by simp [h])]
  · rw [exec_brkTripRelease, if_pos (by simp [hbrk, hclear])]
    rfl
  · rw [exec_brkTripRelease, if_neg (by rcases h with h | h <;> simp [h])]
  · rw [exec_periodWatchdog, if_pos (s.dev.sstUp_iff.mpr ⟨hlo, hhi⟩)]
  · rw [exec_periodWatchdog, if_neg (mt s.dev.sstUp_iff.mp (by omega))]

/-! ### Power and reset (R16, R67, R69, R77, R393, R444) -/

theorem exec_coldStart (s : State) (unit : Bool) :
    exec (.coldStart unit) s = .next (s.after
      (if s.dev.mem.porst || s.dev.mem.brownOut then s.dev else s.dev.coldStart s.dev.hst.nextCause unit)) := rfl

theorem exec_brownOutRecovery (s : State) :
    exec .brownOutRecovery s = .next (s.after
      (if s.dev.mem.brownOut then s.dev.coldStart 1 (s.dev.flag F.twnStat_unitId) else s.dev)) := rfl

theorem exec_pcieLinkDown (s : State) :
    exec .pcieLinkDown s = .next (s.after
      (if s.dev.flag F.cpxReady1_pcie then (s.dev.setFlag F.cpxReady1_pcie false).resetMaster 1 else s.dev)) := rfl

/-- The supply sources are 404 to 411. -/
theorem not_supplySource {n : Nat} (h : ∀ i < 8, n ≠ 404 + i) : supplySources.contains n = false := by
  rw [List.contains_eq_mem, decide_eq_false_iff_not, supplySources, List.mem_map]
  rintro ⟨i, hi, rfl⟩
  exact h i (List.mem_range.mp hi) (Nat.add_comm i 404)

/-- Without a supply source behind device safe, an automatic restart that is due does not wait for the rails. -/
theorem exec_autoRestart_due (s : State) {t : Nat} (ht : s.dev.hst.restartDue = some t)
    (hsrc : supplySources.contains (s.dev.fld F.fltSafeCause_source) = false) :
    let d1 := s.dev.advance t
    exec .autoRestart s = .next (s.after
      (({ d1 with hst := { d1.hst with restartsAt := d1.hst.restartsAt ++ [(d1.now : Int)] } } : Dev).coldStart 5
        (d1.flag F.twnStat_unitId))) := by
  show execAutoRestart s = _
  simp only [execAutoRestart, commit, ht, hsrc, Bool.false_and, Bool.false_eq_true, if_false]

theorem exec_autoRestart_undue (s : State) (h : s.dev.hst.restartDue = none) : exec .autoRestart s = .next (s.after s.dev) := by
  show execAutoRestart s = _
  simp only [execAutoRestart, commit, h]

/-- Settles O34: one equation for each row, and the branch that its condition takes. -/
theorem powerAndResetRowsTakeEffect : Obligations.PowerAndResetRowsTakeEffect := by
  intro s
  refine ⟨rfl, rfl, rfl, fun unit hp hb => ?_, fun unit h => ?_, fun h => ?_, fun h => ?_,
    fun t ht hsrc => exec_autoRestart_due s ht (not_supplySource hsrc), exec_autoRestart_undue s, rfl, rfl, fun h => ?_, fun h => ?_, rfl⟩
  · rw [exec_coldStart, if_neg (by simp [hp, hb])]
  · rw [exec_coldStart, if_pos (by rcases h with h | h <;> simp [h])]
  · rw [exec_brownOutRecovery, if_pos h]
  · rw [exec_brownOutRecovery, if_neg (Bool.eq_false_iff.mp h)]
  · rw [exec_pcieLinkDown, if_pos h]
  · rw [exec_pcieLinkDown, if_neg (Bool.eq_false_iff.mp h)]

end Sys2Proof.Machine

/-! The proofs of the family 02_commands: the step and the intake (O1, O5, O56, O57), the host group's commands (O8 to O14), the frame of the
queries (O59), and the rows of the rings and the management port (O30, O31). -/

namespace Sys2Proof.Machine

/-- Settles O1: the front of the queue is what `step` matches on. -/
theorem stepRunsFrontCommand : Obligations.StepRunsFrontCommand := fun _ _ => rfl

/-- Settles O56: every host row is the commit of `Dev.host` with its opcode. -/
theorem hostCommandsEnterOneIntake : Obligations.HostCommandsEnterOneIntake := by
  intro s c
  repeat' apply And.intro
  all_goals rfl

/-! ### Well-formed commands complete (R39, log entry 5) -/

theorem commitIf_completes {ok : Bool} (h : ok = true) (what : String) (s : State) (d : Dev) : ∃ t, commitIf ok what s d = .next t :=
  ⟨_, commitIf_ok h what s d⟩

/-- An offset of `stagingOffset` is that of a staging register of some leg. -/
theorem execPwmStageWrite_completes {off : Nat} (h : stagingOffset off = true) (v : Word) (s : State) :
    ∃ t, execPwmStageWrite off v s = .next t := by
  have hleg : ((List.range 8).find? (fun l => off = R.pwmPerStg l || off = R.pwmDutyStg l)).isSome = true :=
    List.find?_isSome.mpr (List.any_eq_true.mp h)
  obtain ⟨l, hl⟩ := Option.isSome_iff_exists.mp hleg
  rw [execPwmStageWrite, hl]
  exact ⟨_, rfl⟩

/-- What `Instr.wf` asks of a row's numbers is at least what the row itself asks before it commits. -/
theorem exec_completes_of_wf (c : Instr) (s : State) (h : c.wf = true) : ∃ t, exec c s = .next t := by
  have and_left : ∀ {a b : Bool}, (a && b) = true → a = true := fun h => (Bool.and_eq_true_iff.mp h).1
  cases c
  case pwmStageWrite off v => exact execPwmStageWrite_completes h v s
  case rakeComplete e r =>
    obtain ⟨hsl, hjump⟩ := Bool.and_eq_true_iff.mp h
    exact commitIf_completes (Bool.and_eq_true_iff.mpr ⟨and_left hsl, hjump⟩) _ s _
  case linkLost | bootVerifyDone => exact commitIf_completes (and_left (and_left h)) _ s _
  case
      adcConversionDone | respReceived | samplesReceived | fastupReceived | measReceived | pongReceived | ackReceived |
      sramUncorrectable | ddrUncorrectable | eccCorrectedError =>
    exact commitIf_completes (and_left h) _ s _
  case
      pwmBoundary | refreshPulse | legPrechargeEnd | pwmTriggerPulse | mainComparatorTrip | hardComparatorTrip | shootThroughBlock |
      tripInAssert | bootstrapUndervoltage | wheelPulse | trainConfidenceFall | markFire | angleMarkFire | adcSlotFire | adcRefSettled |
      adcInjectTimeout | adcPairDisable | adcPairEnable | dacQueuePush | dacSampleTick | dacEnableSettle | dacDrainDone |
      dacSpanRelaySettle | sluiceStart | segmentEnd | sluiceRearmEnd | stallAbandon | blockEvaluate | loopRestore | engineParityError |
      engineRestart | engineDisable | engineEnable | ctrlTimeout | linkTrainStep | linkRetryTimer | linkLate | linkDisable |
      linkEnable | lawSwitch | detectedGapOpen | faultSourceAssert | fltSelfCheckFail | chainDisable | chainEnable | cmdTimeout |
      cellLost | cellLinkSyncLoss | chainLost | chainTrainStep | chainRetryTimer | sensorReading | supplyExcursion | supplyRecover |
      ddrTrainingFailed | ceilingTrip | functionReady | sqTailDoorbell | cqHeadDoorbell | ringConfigWrite | ringEnable | ringDisable |
      ringDisableEffect | ringDmaError | cqStallTimeout | msixCoalesceExpiry | twinLinkLost =>
    exact commitIf_completes h _ s _
  all_goals exact ⟨_, rfl⟩

/-- Settles O5: a well-formed command commits, every other commits or faults, and the end of a row leaves the queue as it was. -/
theorem wellFormedCommandsComplete : Obligations.WellFormedCommandsComplete := by
  refine ⟨exec_completes_of_wf, fun c s t ht => ?_, fun c s f hf => Bool.eq_false_iff.mpr fun hwf => ?_, fun c s r hr => ?_⟩
  · obtain ⟨d, rfl⟩ := exec_next_after ht
    rfl
  · obtain ⟨t, ht⟩ := exec_completes_of_wf c s hwf
    exact absurd (ht.symm.trans hf) (by simp)
  · rcases exec_commits_or_faults c s with ⟨d, hd⟩ | ⟨f, hf⟩
    · exact absurd (hd.symm.trans hr) (by simp [commit])
    · exact absurd (hf.symm.trans hr) (by simp)

/-! ### The replay window (R46) -/

/-- Settles O57: the entry found decides by its CRC and by the reply that it holds. -/
theorem duplicateCommandsAreNotExecuted : Obligations.DuplicateCommandsAreNotExecuted := by
  intro d q p e d1 hfind base
  have htake : d.take q true p = if e.crc = packetCrc p then d1.answerDuplicate q p e
      else d1.reply { replyTo p q St.conflict true [] with record := false } := by
    simp only [Dev.take, Bool.not_true, Bool.false_eq_true, if_false]
    rw [hfind]
  refine ⟨fun x hcrc hx hfinal => ?_, fun hcrc hx => ?_, fun hcrc => ?_⟩
  · rw [htake, if_pos hcrc]
    simp only [Dev.answerDuplicate, hx, hfinal, if_true]
    rfl
  · rw [htake, if_pos hcrc, Dev.answerDuplicate]
    cases hr : e.reply with
    | none => rfl
    | some x =>
      simp only [hx x hr, Bool.false_eq_true, if_false]
      rfl
  · rw [htake, if_neg hcrc]

/-! ### A command with one reply -/

/-- A command whose function answers a final status: the row ends with its reply. -/
theorem after_host_answers {s : State} {op : BitVec 16} {c : Cmd} {q : Nat} {d2 : Dev} {st : Nat} {res : Bytes} (h : Starts s.dev op c q)
    (hf : functionOf op.toNat (s.dev.opened op c q) (s.dev.nextCall op c q) = (d2, .final st res)) :
    (.next (s.after (s.dev.host op c)) : Host.Outcome State Fault Refusal) =
      .next (s.after (d2.replied op c q (s.dev.nextCall op c q).oid st res)) := by
  rw [host_final s.dev op c q h d2 st res ((bodyOf_starts s.dev op c q h).trans hf)]
  rfl

/-! ### The queries' functions -/

section
variable (d : Dev) (c : Call)

theorem bodyAttest_answers (h : c.packet.cmd.payload.length = 48) :
    bodyAttest d c = (d, .final St.done (d.reportHead (c.packet.cmd.payload.drop 16) ++ le 48 Config.devicePublicKey.1 ++
      le 1 (if Config.devicePublicKey.2 then 3 else 2) ++ le 3 0 ++ fitBytes 96 (Config.ecdsaSign (d.reportHead (c.packet.cmd.payload.drop 16))))) := by
  rw [bodyAttest, if_neg (not_not_intro h)]

/-- The SRAM pools are channel 2 of MEM_STATUS. -/
theorem bodyMemStatus_sram (h : rd c.packet.cmd.payload 0 1 = 2) (hz : rd c.packet.cmd.payload 1 3 = 0) :
    bodyMemStatus d c = (d, .final St.done (le 1 2 ++ le 1 2 ++ le 2 0 ++ le 4 (d.regN R.memSramCe) ++ le 4 (d.regN R.memSramUe) ++ le 4 0 ++
      le 8 (d.regN R.memSramAddr) ++ le 8 0)) := by
  simp [bodyMemStatus, h, hz]

theorem bodyMemStatus_ddr {n : Nat} (h : rd c.packet.cmd.payload 0 1 = n) (hn : n < 2) (hz : rd c.packet.cmd.payload 1 3 = 0) :
    bodyMemStatus d c = (d, .final St.done (le 1 n ++ le 1 (d.fld (F.memDdrStat_dstate n)) ++ le 2 (d.ddrRate n) ++ le 4 (d.regN (R.memDdrCe n)) ++
      le 4 (d.regN (R.memDdrUe n)) ++ le 4 (d.scrubAt n % 2 ^ 32) ++
      le 8 (d.regN (R.memDdrEaddrLo n) + 2 ^ 32 * d.regN (R.memDdrEaddrHi n)) ++ le 8 0)) := by
  rw [bodyMemStatus, h, if_neg (by omega), if_neg (by omega)]

theorem bodyRegRead_answers {off n : Nat} (ho : rd c.packet.cmd.payload 16 4 = off) (hn : rd c.packet.cmd.payload 20 4 = n)
    (halign : off % 4 = 0) (h1 : 1 ≤ n) (h64 : n ≤ 64) (hend : off + 4 * n ≤ 0x140000) :
    bodyRegRead d c = ((readRegs n off d).2, .final St.done (readRegs n off d).1) := by
  rw [bodyRegRead]
  dsimp only
  rw [ho, hn, if_neg (by omega)]

theorem bodyCircuitQuery_answers (h1 : 1 ≤ rd c.packet.cmd.payload 18 2)
    (hend : rd c.packet.cmd.payload 16 2 + rd c.packet.cmd.payload 18 2 ≤ 512) :
    bodyCircuitQuery d c = (d, .final St.done ((List.range (rd c.packet.cmd.payload 18 2)).flatMap
      (fun j => d.circuitRecord (rd c.packet.cmd.payload 16 2 + j)))) := by
  rw [bodyCircuitQuery, if_neg (by omega)]

theorem bodyScheduleQuery_answers (h1 : 1 ≤ rd c.packet.cmd.payload 18 2)
    (hend : rd c.packet.cmd.payload 16 2 + rd c.packet.cmd.payload 18 2 ≤ 4096) :
    bodyScheduleQuery d c = (d, .final St.done ((List.range (rd c.packet.cmd.payload 18 2)).flatMap
      (fun j => d.entryRecord (rd c.packet.cmd.payload 16 2 + j)))) := by
  rw [bodyScheduleQuery, if_neg (by omega)]

/-- LOOP_QUERY asks that the link of every drive element it names be ready. -/
theorem bodyLoopQuery_answers (h1 : 1 ≤ rd c.packet.cmd.payload 18 2) (hmax : rd c.packet.cmd.payload 18 2 ≤ 1024)
    (hend : rd c.packet.cmd.payload 16 2 + rd c.packet.cmd.payload 18 2 ≤ 6144)
    (hready : ∀ j < rd c.packet.cmd.payload 18 2, d.isDrive (rd c.packet.cmd.payload 16 2 + j) = true →
      d.linkReady (linkOf (rd c.packet.cmd.payload 16 2 + j)) = true) :
    bodyLoopQuery d c = (d, .final St.done ((List.range (rd c.packet.cmd.payload 18 2)).flatMap
      (fun j => d.loopRecord (rd c.packet.cmd.payload 16 2 + j)))) := by
  have hall : (List.range (rd c.packet.cmd.payload 18 2)).all (fun j => !d.isDrive (rd c.packet.cmd.payload 16 2 + j) ||
      d.linkReady (linkOf (rd c.packet.cmd.payload 16 2 + j))) = true := by
    rw [List.all_eq_true]
    intro j hj
    rw [Bool.or_eq_true, Bool.not_eq_true', or_iff_not_imp_left, Bool.not_eq_false]
    exact hready j (List.mem_range.mp hj)
  rw [bodyLoopQuery, if_neg (by omega), if_neg (by rw [hall]; decide)]

theorem bodyLegQuery_answers {l : Nat} (h : rd c.packet.cmd.payload 0 1 = l) (hl : l ≤ 7) (hz : rd c.packet.cmd.payload 1 3 = 0) :
    bodyLegQuery d c = (d, .final St.done (le 1 l ++ le 1 (d.legState l) ++ le 2 (d.regN (R.gdpLegLatch l)) ++ le 4 (d.fld (F.pwmPerAct_v l)) ++
      le 4 (d.fld (F.pwmDutyAct_v l)) ++ le 4 (d.regN (R.pwmLegFlags l)) ++ le 4 ((d.leg l).commits % 65536) ++
      le 4 (if d.legLv l then d.regN R.pwmLvD else 0) ++ le 8 0)) := by
  rw [bodyLegQuery, h, if_neg (by omega)]

end

/-- Settles O8: each row is `Dev.host` with the answer of its function. -/
theorem queriesAnswer : Obligations.QueriesAnswer := by
  refine ⟨⟨fun s c q h => after_host_answers h rfl,
    fun s c q h hlen => after_host_answers h (bodyAttest_answers _ _ hlen),
    fun s c q h => after_host_answers h rfl,
    fun s c q h hn hz => after_host_answers h (bodyMemStatus_sram _ _ hn hz),
    fun s c q n h hn hlt hz => after_host_answers h (bodyMemStatus_ddr _ _ hn hlt hz),
    fun s c q off n h ho hn halign h1 h64 hend => after_host_answers h (bodyRegRead_answers _ _ ho hn halign h1 h64 hend)⟩,
    fun s c q => ⟨fun h => after_host_answers h rfl,
      fun h h1 hend => after_host_answers h (bodyCircuitQuery_answers _ _ h1 hend),
      fun h h1 hend => after_host_answers h (bodyScheduleQuery_answers _ _ h1 hend),
      fun h h1 hmax hend hready => after_host_answers h (bodyLoopQuery_answers _ _ h1 hmax hend hready),
      fun h => after_host_answers h rfl,
      fun h => after_host_answers h rfl,
      fun h => after_host_answers h rfl,
      fun l h hl hle hz => after_host_answers h (bodyLegQuery_answers _ _ hl hle hz),
      fun h => after_host_answers h rfl,
      fun h => after_host_answers h rfl,
      fun h => after_host_answers h rfl⟩⟩

/-! ### Subscriptions (R483) -/

section
variable (d : Dev) (c : Call)

theorem bodyEventSubscribe_ring (hz : rd c.packet.cmd.payload 3 1 = 0) (hdest : rd c.packet.cmd.payload 2 1 = 0)
    (hg : rd c.packet.cmd.payload 0 2 % 2 = 0) :
    bodyEventSubscribe d c = (d.setRequester c.owner { d.requester c.owner with ringMask := rd c.packet.cmd.payload 0 2 },
      .final St.done (le 2 (d.requester c.owner).ringMask)) := by
  simp [bodyEventSubscribe, hz, hdest, hg]

theorem bodyEventSubscribe_session (hz : rd c.packet.cmd.payload 3 1 = 0) (hdest : rd c.packet.cmd.payload 2 1 = 1)
    (hg : rd c.packet.cmd.payload 0 2 % 2 = 0) (hs : (d.sessionOf c.owner).isSome = true) :
    bodyEventSubscribe d c = (d.setRequester c.owner { d.requester c.owner with ownMask := rd c.packet.cmd.payload 0 2 },
      .final St.done (le 2 (d.requester c.owner).ownMask)) := by
  obtain ⟨x, hx⟩ := Option.isSome_iff_exists.mp hs
  simp [bodyEventSubscribe, hz, hdest, hg, hx]

theorem bodyEventSubscribe_refuses (h : rd c.packet.cmd.payload 3 1 ≠ 0 ∨ 1 < rd c.packet.cmd.payload 2 1 ∨
      rd c.packet.cmd.payload 0 2 % 2 = 1 ∨ (rd c.packet.cmd.payload 2 1 = 1 ∧ d.sessionOf c.owner = none)) :
    bodyEventSubscribe d c = refuse d St.badParam := by
  rw [bodyEventSubscribe, if_pos]
  rw [Option.isNone_iff_eq_none]
  tauto

end

/-- Settles O9: the three outcomes of the function. -/
theorem eventSubscribeReplacesMask : Obligations.EventSubscribeReplacesMask := by
  rintro s c q g dest h rfl rfl
  exact ⟨fun hz hdest hg => after_host_answers h (bodyEventSubscribe_ring _ _ hz hdest hg),
    fun hz hdest hg hs => after_host_answers h (bodyEventSubscribe_session _ _ hz hdest hg hs),
    fun hbad => after_host_answers h (bodyEventSubscribe_refuses _ _ hbad)⟩

/-! ### ECON_CONFIG (R484, Tables 1-8 and 1-9) -/

/-- Both words of an ECON_CONFIG satisfy Tables 1-8 and 1-9. -/
def econLegal (v w : Word) : Prop :=
  v &&& 0xFF00FFC0#32 = 0 ∧ 10 ≤ fieldOf F.thsEconCtrl_exitDwell v ∧
    (fieldOf F.thsEconLv_enterV w = 0 ∨ fieldOf F.thsEconLv_enterV w + 100 ≤ fieldOf F.thsEconLv_exitV w)

/-- The model refuses what is not legal. -/
theorem not_econLegal_iff (v w : Word) :
    ¬ econLegal v w ↔ (v &&& 0xFF00FFC0#32 ≠ 0 ∨ fieldOf F.thsEconCtrl_exitDwell v < 10 ∨
      (fieldOf F.thsEconLv_enterV w ≠ 0 ∧ fieldOf F.thsEconLv_exitV w < fieldOf F.thsEconLv_enterV w + 100)) := by
  simp only [econLegal, not_and_or, not_or, not_le]

section
variable (d : Dev) (c : Call)

theorem bodyEconConfig_writes
    (h : econLegal (BitVec.ofNat 32 (rd c.packet.cmd.payload 0 4)) (BitVec.ofNat 32 (rd c.packet.cmd.payload 4 4))) :
    bodyEconConfig d c = (((d.setReg R.thsEconCtrl (BitVec.ofNat 32 (rd c.packet.cmd.payload 0 4))).setReg R.thsEconLv
      (BitVec.ofNat 32 (rd c.packet.cmd.payload 4 4))).followPark, .final St.done []) := by
  rw [bodyEconConfig, if_neg (fun hbad => (not_econLegal_iff _ _).mpr hbad h)]

theorem bodyEconConfig_refuses
    (h : ¬ econLegal (BitVec.ofNat 32 (rd c.packet.cmd.payload 0 4)) (BitVec.ofNat 32 (rd c.packet.cmd.payload 4 4))) :
    bodyEconConfig d c = refuse d St.badParam := by
  rw [bodyEconConfig, if_pos ((not_econLegal_iff _ _).mp h)]

end

/-- The row of ECON_CONFIG in Table 2-7. -/
theorem opRow_econConfig : opRow 0x0105 = some ⟨0x0105, false, true, 8, 8, none⟩ := by decide

/-- Settles O11: the length stands in Table 2-7, and the function's condition is `econLegal`. -/
theorem econConfigWritesBothRegistersOrNeither : Obligations.EconConfigWritesBothRegistersOrNeither := by
  refine ⟨fun row n hrow => ?_, ?_⟩
  · obtain rfl := Option.some.inj (opRow_econConfig.symm.trans hrow)
    simp only [OpRow.lengthOk, Bool.and_eq_true, decide_eq_true_eq]
    omega
  · rintro s c q v w h rfl rfl
    exact ⟨fun hl => after_host_answers h (bodyEconConfig_writes _ _ hl),
      fun hl => after_host_answers h (bodyEconConfig_refuses _ _ hl)⟩

/-! ### REG_WRITE and CFG_WRITE (R58, R59, R489) -/

section
variable {d : Dev} {c : Call} {off : Nat} {k : RegBank} {v m : Word} {a : Access}

theorem Dev.writeWord_masked (ho : rd c.packet.cmd.payload 0 4 = off) (hv : BitVec.ofNat 32 (rd c.packet.cmd.payload 4 4) = v)
    (hm : BitVec.ofNat 32 (rd c.packet.cmd.payload 8 4) = m) (hz : rd c.packet.cmd.payload 12 4 = 0) (hk : regBankAt off = some k)
    (ha : k.acc = a) (hro : (v ^^^ d.view off) &&& m &&& ~~~k.wmask = 0) :
    d.writeWord c a = some (off, mergeWord (d.writeBase off) v (m &&& k.wmask), m) := by
  subst ho hv hm
  simp only [Dev.writeWord, hk]
  rw [if_neg (by simp [hz, ha, hro])]

/-- No register, another access code, or a masked read-only bit that differs. -/
theorem Dev.writeWord_none (ho : rd c.packet.cmd.payload 0 4 = off) (hv : BitVec.ofNat 32 (rd c.packet.cmd.payload 4 4) = v)
    (hm : BitVec.ofNat 32 (rd c.packet.cmd.payload 8 4) = m)
    (h : regBankAt off = none ∨ (regBankAt off = some k ∧ (k.acc ≠ a ∨ (v ^^^ d.view off) &&& m &&& ~~~k.wmask ≠ 0))) :
    d.writeWord c a = none := by
  subst ho hv hm
  rcases h with hk | ⟨hk, hbad⟩
  · simp only [Dev.writeWord, hk]
  · simp only [Dev.writeWord, hk]
    rw [if_pos (.inr hbad)]

theorem Dev.writeWord_off (h : d.writeWord c a = some (off, v, m)) : off = rd c.packet.cmd.payload 0 4 := by
  simp only [Dev.writeWord] at h
  split at h
  · cases h
  · split at h
    · cases h
    · exact (congrArg Prod.fst (Option.some.inj h)).symm

theorem bodyRegWrite_writes (hw : d.writeWord c .rw = some (off, v, m)) (hr : d.rwRefusal off v = St.done) :
    bodyRegWrite d c = (d.writeRw off v, .final St.done []) := by
  simp [bodyRegWrite, hw, hr]

theorem bodyRegWrite_refuses (hw : d.writeWord c .rw = none) : bodyRegWrite d c = refuse d St.badParam := by
  simp only [bodyRegWrite, hw]

theorem bodyCfgWrite_writes (hw : d.writeWord c .cw = some (off, v, m)) (ho : ownedCw off = false) (hr : rangesOk off v m = true)
    (hc : d.cwConditions off v m = true) (hf : d.cwRefusal off v m = St.done) :
    bodyCfgWrite d c = (d.writeCw off v, .final St.done []) := by
  simp [bodyCfgWrite, hw, ho, hr, hc, hf]

theorem bodyCfgWrite_refuses (hw : d.writeWord c .cw = none) : bodyCfgWrite d c = refuse d St.badParam := by
  simp only [bodyCfgWrite, hw]

/-- A register that a command of its own writes, whether the packet's word is right or not. -/
theorem bodyCfgWrite_owned (ho : ownedCw (rd c.packet.cmd.payload 0 4) = true) : bodyCfgWrite d c = refuse d St.badParam := by
  rw [bodyCfgWrite]
  split
  · rfl
  next off v m hw =>
    rw [Dev.writeWord_off hw, ho, Bool.true_or, Bool.true_or, if_pos rfl]

end

/-- Settles O12: `Dev.writeWord` gives the word or finds the packet wrong, and the functions write it or refuse. -/
theorem registerWriteCommandsWriteMaskedBits : Obligations.RegisterWriteCommandsWriteMaskedBits := by
  intro s c q off k v m ho hv hm hz
  refine ⟨fun h => ⟨fun hk ha hro hr => ?_, fun hbad => ?_⟩, fun h => ⟨fun hk ha hro how hr hc hf => ?_, ?_⟩⟩
  · exact after_host_answers h (bodyRegWrite_writes (Dev.writeWord_masked ho hv hm hz hk ha hro) hr)
  · exact after_host_answers h (bodyRegWrite_refuses (Dev.writeWord_none ho hv hm hbad))
  · exact after_host_answers h (bodyCfgWrite_writes (Dev.writeWord_masked ho hv hm hz hk ha hro) how hr hc hf)
  · rintro (hk | ⟨hk, ha | hro | how⟩)
    · exact after_host_answers h (bodyCfgWrite_refuses (Dev.writeWord_none (k := k) ho hv hm (.inl hk)))
    · exact after_host_answers h (bodyCfgWrite_refuses (Dev.writeWord_none ho hv hm (.inr ⟨hk, .inl ha⟩)))
    · exact after_host_answers h (bodyCfgWrite_refuses (Dev.writeWord_none ho hv hm (.inr ⟨hk, .inr hro⟩)))
    · exact after_host_answers h (bodyCfgWrite_owned (ho.symm ▸ how))

/-! ### SESSION_OPEN (R60, R491) -/

/-- A session number that is found free is below 24, free, and the lowest such. -/
theorem Dev.freeSession_lowest {d : Dev} {n : Nat}
    (h : (List.range 24).find? (fun n => !d.cpx.sessions.any (fun s => s.number = n)) = some n) :
    d.freeSession = n ∧ n < 24 ∧ (∀ u ∈ d.cpx.sessions, u.number ≠ n) ∧ ∀ m < n, ∃ u ∈ d.cpx.sessions, u.number = m := by
  obtain ⟨hfree, hlt, hbelow⟩ := List.find?_range_eq_some.mp h
  refine ⟨by rw [Dev.freeSession, h, Option.getD_some], List.mem_range.mp hlt, fun u hu hn => ?_, fun m hm => ?_⟩
  · rw [Bool.not_eq_true', List.any_eq_false] at hfree
    exact hfree u hu (by simpa using hn)
  · simpa using hbelow m hm

/-- While fewer than 24 sessions are open a number is free: 24 numbers cannot all be among theirs. -/
theorem Dev.freeSession_exists {d : Dev} (h : d.cpx.sessions.length < 24) :
    ∃ n, (List.range 24).find? (fun n => !d.cpx.sessions.any (fun s => s.number = n)) = some n := by
  rw [← Option.isSome_iff_exists, List.find?_isSome]
  by_contra hall
  have hsub : List.range 24 ⊆ d.cpx.sessions.map (fun s => s.number) := fun n hn => by
    by_contra hno
    refine hall ⟨n, hn, ?_⟩
    simpa using hno
  have hle := (List.nodup_range.subperm hsub).length_le
  rw [List.length_range, List.length_map] at hle
  omega

/-- A packet from a datagram goes to the intake of datagrams while that is up, enabled and accepting. -/
theorem Dev.intake_udp {d : Dev} {p : Packet} {addr port : Nat} (hv : p.cmd.via = .udp addr port) (h : d.flag F.cpxReady1_mgmt = true)
    (hen : d.flag F.cpxUdpCfg_en = true) (ha : d.cpx.accepting = true) : d.intake p = d.takeUdp addr port p := by
  simp [Dev.intake, hv, h, hen, ha]

/-- A SESSION_OPEN datagram from a source without a session is taken unrecorded, and runs. -/
theorem host_startsUnbound {d : Dev} {c : Cmd} {addr port : Nat} (h : StartsUnbound d 0x0F01 c addr port) :
    d.host 0x0F01 c = ((d.bump R.cpxCmdCount).runCmd c.requester.toNat false ⟨0x0F01, c⟩).pump := by
  have htake : d.takeUdp addr port ⟨0x0F01, c⟩ = d.take c.requester.toNat false ⟨0x0F01, c⟩ := by
    rw [Dev.takeUdp, if_neg (not_not_intro h.whole), h.unknown]
    exact if_pos rfl
  rw [Dev.host, Dev.intake_udp h.source h.ready h.listens h.accepting, htake, ← close_real _ _ _ _ h.passes]
  rfl

/-- The only reply to a command of an unbound source, which is forwarded to no twin. -/
theorem host_unbound_final {d : Dev} {c : Cmd} {addr port : Nat} (h : StartsUnbound d 0x0F01 c addr port) {d2 : Dev} {st : Nat} {res : Bytes}
    (hb : bodyOf 0x0F01 ((d.bump R.cpxCmdCount).openCmd ⟨0x0F01, c⟩ c.requester.toNat)
      ⟨(d.bump R.cpxCmdCount).cpx.nextOid, c.requester.toNat, ⟨0x0F01, c⟩, none⟩ = (d2, .final st res)) :
    d.host 0x0F01 c =
      ((d2.strike (d.bump R.cpxCmdCount).cpx.nextOid).close ⟨0x0F01, c⟩ c.requester.toNat false st res).pump := by
  have hfwd : ∀ v, d2.forwardIf d2 ⟨0x0F01, c⟩ c.requester.toNat (d.bump R.cpxCmdCount).cpx.nextOid v = d2 := fun v => by
    rw [Dev.forwardIf, show forwards ⟨0x0F01, c⟩ = false from rfl, Bool.and_false, Bool.false_and, if_neg Bool.false_ne_true]
  rw [host_startsUnbound h, Dev.runCmd]
  simp only [BitVec.reduceToNat, hb, h.real, Bool.false_eq_true, if_false, hfwd]

theorem bodySessionOpen_binds {d : Dev} {c : Call} {addr port key : Nat} (hv : c.packet.cmd.via = .udp addr port)
    (hq : rd c.packet.cmd.payload 0 2 = c.packet.cmd.requester.toNat) (hz : rd c.packet.cmd.payload 2 2 = 0)
    (hfree : d.requesterTaken c.packet.cmd.requester.toNat = false) (hunknown : d.sessionAt addr port = none)
    (hroom : d.cpx.sessions.length < 24) (hkey : d.hst.ownerKey = some key)
    (hsig : Config.ecdsaVerify key (d.nonceBytes ++ c.packet.cmd.payload.take 2) ((c.packet.cmd.payload.drop 4).take 96) = true) :
    let b := d.renewNonce.forgetRequester c.packet.cmd.requester.toNat
    bodySessionOpen d c = ({ b with cpx := { b.cpx with sessions := b.cpx.sessions ++
      [⟨d.freeSession, c.packet.cmd.requester.toNat, addr, port, 0⟩] } }, .final St.done (le 2 d.freeSession ++ le 2 0)) := by
  have hle : ¬ 24 ≤ d.cpx.sessions.length := Nat.not_le.mpr hroom
  simp only [bodySessionOpen, hv, hq, hz, hfree, hunknown, hle, hkey, hsig, ne_eq, not_true_eq_false, or_self, Option.isSome_none,
    Bool.or_self, Bool.false_eq_true, if_false, if_true]

/-- Settles O13: a number is free by counting, and the function binds the lowest. -/
theorem sessionOpenBindsLowestFreeNumber : Obligations.SessionOpenBindsLowestFreeNumber := by
  intro s c addr port key h q a o hq hz hfree hroom hkey hsig b d2
  obtain ⟨n, hn⟩ := Dev.freeSession_exists hroom
  obtain ⟨rfl, hlt, hnew, hlow⟩ := Dev.freeSession_lowest hn
  refine ⟨hnew, hlt, hlow, congrArg (fun d : Dev => Host.Outcome.next (s.after d)) (host_unbound_final h ?_)⟩
  rw [bodyOf_permitted _ _ _ rfl]
  exact bodySessionOpen_binds h.source hq hz hfree h.unknown hroom hkey hsig

/-! ### IMAGE_UPDATE, TWIN_PAIR and TWIN_YIELD (R73, R431) -/

/-- A two-stage command that no twin follows and optical safe never refuses: its function, which accepts on the device that has opened the
command, acts on the device that has given ACCEPTED. -/
theorem after_host_begins {s : State} {op : BitVec 16} {c : Cmd} {q : Nat} {d2 : Dev} (h : Starts s.dev op c q)
    (hf : forwards ⟨op, c⟩ = false) (hm : mirroredOpcode op.toNat = false) (hsafe : opticalSafeRefuses op.toNat c.payload = false)
    (hacc : (functionOf op.toNat (s.dev.opened op c q) (s.dev.nextCall op c q)).2 = .accepted [])
    (heff : (functionOf op.toNat ((s.dev.opened op c q).interim op c q []) (s.dev.nextCall op c q)).1 = d2) :
    (.next (s.after (s.dev.host op c)) : Host.Outcome State Fault Refusal) = .next (s.after (d2.goesOn q)) := by
  have hbody : ∀ d, bodyOf op.toNat d (s.dev.nextCall op c q) = functionOf op.toNat d (s.dev.nextCall op c q) := fun d =>
    bodyOf_permitted _ _ _ (by rw [show opticalSafeRefuses op.toNat (s.dev.nextCall op c q).packet.cmd.payload = false from hsafe, Bool.false_and])
  rw [host_begins s.dev op c q h (.inr ⟨hf, hm⟩) [] (by rw [hbody, hacc]), hbody, heff]

theorem bodyImageUpdate_begins {d : Dev} {c : Call} (hz : rd c.packet.cmd.payload 12 4 = 0) (hu : d.hst.update = none) :
    bodyImageUpdate d c =
      ({ d with hst := { d.hst with update := some (c.oid, 1 - d.hst.bootedSlot, c.packet.cmd.image) } }, .accepted []) := by
  simp [bodyImageUpdate, hz, hu]

/-- What TWIN_PAIR leaves while a pair, a resynchronisation or an active unit stands: its final reply waits, and a DIGEST goes out. -/
def Dev.pairNoted (d : Dev) (oid : Nat) : Dev :=
  let d1 : Dev := { d with twn := { d.twn with pairing := d.twn.pairing ++ [oid] } }
  if d.flag F.twnStat_linkUp then d1.sendDigest else d1

/-- A DIGEST is sent, and nothing else of the device changes. -/
theorem Dev.pairNoted_eq (d : Dev) (oid : Nat) :
    ∃ x, d.pairNoted oid = { d with twn := { d.twn with pairing := d.twn.pairing ++ [oid] }, out := x } := by
  unfold Dev.pairNoted
  split
  · exact ⟨_, rfl⟩
  · exact ⟨_, rfl⟩

theorem Dev.pairNoted_stands (d : Dev) (oid : Nat) : (d.pairNoted oid).flag F.twnStat_paired = d.flag F.twnStat_paired ∧
    (d.pairNoted oid).twn.resync = d.twn.resync ∧ (d.pairNoted oid).active = d.active := by
  obtain ⟨x, hx⟩ := d.pairNoted_eq oid
  rw [hx]
  exact ⟨rfl, rfl, rfl⟩

theorem bodyTwinPair_eq (d : Dev) (c : Call) : bodyTwinPair d c = if (!d.twinMode) = true then refuse d St.refused else
    (if (!(d.pairNoted c.oid).flag F.twnStat_paired && decide ((d.pairNoted c.oid).twn.resync = 0) && !(d.pairNoted c.oid).active) = true then
      { d.pairNoted c.oid with twn := { (d.pairNoted c.oid).twn with resync := 1 } } else d.pairNoted c.oid, .accepted []) := rfl

/-- TWIN_PAIR where a pair stands, a resynchronisation runs or the unit is active. -/
theorem bodyTwinPair_again {d : Dev} {c : Call} (h : d.twinMode = true)
    (hstands : d.flag F.twnStat_paired = true ∨ d.twn.resync ≠ 0 ∨ d.active = true) : bodyTwinPair d c = (d.pairNoted c.oid, .accepted []) := by
  obtain ⟨hpaired, hresync, hactive⟩ := d.pairNoted_stands c.oid
  have hno : (!d.flag F.twnStat_paired && decide (d.twn.resync = 0) && !d.active) = false := by
    rcases hstands with h | h | h <;> simp [h]
  rw [bodyTwinPair_eq, hpaired, hresync, hactive, hno, h, Bool.not_true, if_neg Bool.false_ne_true, if_neg Bool.false_ne_true]

/-- TWIN_PAIR begins the resynchronisation of a unit that is neither paired nor active. -/
theorem bodyTwinPair_resyncs {d : Dev} {c : Call} (h : d.twinMode = true) (hp : d.flag F.twnStat_paired = false) (hr : d.twn.resync = 0)
    (ha : d.active = false) :
    bodyTwinPair d c = ({ d.pairNoted c.oid with twn := { (d.pairNoted c.oid).twn with resync := 1 } }, .accepted []) := by
  obtain ⟨hpaired, hresync, hactive⟩ := d.pairNoted_stands c.oid
  rw [bodyTwinPair_eq, hpaired, hresync, hactive, hp, hr, ha, h, Bool.not_true, if_neg Bool.false_ne_true, if_pos (by decide)]

theorem bodyTwinYield_active {d : Dev} {c : Call} (ha : d.active = true) (he : d.flag F.twnStat_peerEligible = true) :
    bodyTwinYield d c = (({ d with twn := { d.twn with yieldOids := d.twn.yieldOids ++ [c.oid] } } : Dev).yield.afterRole, .accepted []) := by
  simp only [bodyTwinYield, ha, he, Bool.and_self, if_true]

theorem Dev.not_active_of_standby {d : Dev} (h : d.standby = true) : d.active = false := by
  simp only [Dev.standby, Dev.active, decide_eq_true_eq, decide_eq_false_iff_not] at *
  omega

theorem bodyTwinYield_standby {d : Dev} {c : Call} (hs : d.standby = true) (he : d.flag F.twnStat_eligible = true) :
    bodyTwinYield d c = (({ d with twn := { d.twn with yieldOids := d.twn.yieldOids ++ [c.oid] } } : Dev).send (.twin twinYield [d.term]),
      .accepted []) := by
  simp only [bodyTwinYield, Dev.not_active_of_standby hs, hs, he, Bool.false_and, Bool.and_self, Bool.false_eq_true, if_false, if_true]

theorem functionOf_twinYield (d : Dev) (c : Call) : functionOf (0x0C02 : BitVec 16).toNat d c = bodyTwinYield d c := rfl

/-- What ACCEPTED leaves of a device: all but the command processor's own state. -/
theorem Dev.interim_stands (d : Dev) (op : BitVec 16) (c : Cmd) (q : Nat) (res : Bytes) :
    (d.interim op c q res).hst = d.hst ∧ (d.interim op c q res).twn = d.twn ∧ (d.interim op c q res).twinMode = d.twinMode ∧
      (d.interim op c q res).active = d.active ∧ (d.interim op c q res).standby = d.standby ∧ ∀ f, (d.interim op c q res).flag f = d.flag f := by
  obtain ⟨x, hx⟩ := d.interim_eq op c q res
  rw [hx]
  exact ⟨rfl, rfl, rfl, rfl, rfl, fun _ => rfl⟩

/-- Settles O14: each function accepts before and after ACCEPTED has been given, which changes nothing that it looks at. -/
theorem hostTwoStageCommandsBegin : Obligations.HostTwoStageCommandsBegin := by
  intro s c q
  refine ⟨?_, ?_, ?_⟩
  · intro h hz o hu
    obtain ⟨hhst, -⟩ := (s.dev.opened 0x0F03 c q).interim_stands 0x0F03 c q []
    have hu' : (s.dev.opened 0x0F03 c q).hst.update = none := hhst ▸ hu
    exact after_host_begins h rfl rfl rfl (congrArg Prod.snd (bodyImageUpdate_begins hz hu')) (congrArg Prod.fst (bodyImageUpdate_begins hz hu))
  · intro h o d1 d2 hmode
    obtain ⟨-, htwn, hmode', hactive, -, hflag⟩ := (s.dev.opened 0x0C01 c q).interim_stands 0x0C01 c q []
    refine ⟨fun hstands => ?_, fun hp hr ha => ?_⟩
    · have hstands' := hstands.imp ((hflag _).symm.trans) (Or.imp (fun h => htwn ▸ h) (hactive.symm.trans))
      exact after_host_begins h rfl rfl rfl (congrArg Prod.snd (bodyTwinPair_again (hmode'.symm.trans hmode) hstands'))
        (congrArg Prod.fst (bodyTwinPair_again hmode hstands))
    · have hr' : (s.dev.opened 0x0C01 c q).twn.resync = 0 := htwn ▸ hr
      exact after_host_begins h rfl rfl rfl (congrArg Prod.snd (bodyTwinPair_resyncs (hmode'.symm.trans hmode) ((hflag _).symm.trans hp) hr'
        (hactive.symm.trans ha))) (congrArg Prod.fst (bodyTwinPair_resyncs hmode hp hr ha))
  · intro h
    obtain ⟨-, -, -, hactive, hstandby, hflag⟩ := (s.dev.opened 0x0C02 c q).interim_stands 0x0C02 c q []
    refine ⟨fun ha he => ?_, fun hs he => ?_⟩
    · refine after_host_begins h rfl rfl rfl ?_ ?_
      · rw [functionOf_twinYield, bodyTwinYield_active (hactive.symm.trans ha) ((hflag _).symm.trans he)]
      · rw [functionOf_twinYield, bodyTwinYield_active ha he]
    · refine after_host_begins h rfl rfl rfl ?_ ?_
      · rw [functionOf_twinYield, bodyTwinYield_standby (hstandby.symm.trans hs) ((hflag _).symm.trans he)]
      · rw [functionOf_twinYield, bodyTwinYield_standby hs he]

/-! ### What waits for the replies stays as it is while economy mode is settled (R26, R27)

The settlement may withdraw moves and park elements; neither touches the list of what follows the replies. -/

section
variable (d : Dev)

theorem foldl_post {α : Type} {f : Dev → α → Dev} (hf : ∀ d x, (f d x).cpx.post = d.cpx.post) (l : List α) :
    (l.foldl f d).cpx.post = d.cpx.post := by
  induction l generalizing d with
  | nil => rfl
  | cons x r ih => rw [List.foldl_cons, ih, hf]

@[simp] theorem Dev.event_post (code source : Nat) (data : Bytes) : (d.event code source data).cpx.post = d.cpx.post := rfl
@[simp] theorem Dev.freeCircuit_post (n : Nat) : (d.freeCircuit n).cpx.post = d.cpx.post := rfl
@[simp] theorem Dev.setBlanked_post (p : Nat) (v : Bool) : (d.setBlanked p v).cpx.post = d.cpx.post := rfl

theorem Dev.dropGrants_post (p : Nat → Bool) : (d.dropGrants p).cpx.post = d.cpx.post := by
  unfold Dev.dropGrants
  refine foldl_post d (fun d s => ?_) _
  dsimp only
  split
  · split
    · split <;> rfl
    · rfl
  · rfl

theorem Dev.queueCode_post (el code : Nat) : (d.queueCode el code).cpx.post = d.cpx.post := by
  unfold Dev.queueCode
  dsimp only
  split
  · rfl
  · split <;> rfl

theorem Dev.parkElement_post (e : Nat) (v : Bool) : (d.parkElement e v).cpx.post = d.cpx.post := by
  unfold Dev.parkElement
  dsimp only
  split
  · rfl
  · split
    · rw [Dev.setFld_cpx, Dev.queueCode_post, Dev.setLoop_cpx]
    · rfl

theorem Dev.parkIdle_post : d.parkIdle.cpx.post = d.cpx.post := by
  unfold Dev.parkIdle
  split
  · exact foldl_post d (fun d e => d.parkElement_post _ true) _
  · rfl

theorem Dev.resumeLoop_post (e : Nat) : (d.resumeLoop e).cpx.post = d.cpx.post := by
  unfold Dev.resumeLoop
  dsimp only
  split <;> rfl

theorem Dev.answer_post (r : Reply) : (d.answer r).cpx.post = d.cpx.post := by
  unfold Dev.answer
  dsimp only
  split
  · split
    · rfl
    · split <;> rfl
  · split
    · split <;> rfl
    · split <;> rfl

theorem Dev.finishElsewhere_post (oid status : Nat) : (d.finishElsewhere oid status).cpx.post = d.cpx.post := by
  unfold Dev.finishElsewhere
  split <;> rfl

theorem Dev.finish_post (oid status : Nat) (result : Bytes) : (d.finish oid status result).cpx.post = d.cpx.post := by
  unfold Dev.finish Dev.finishCut
  split
  · exact d.finishElsewhere_post oid status
  · exact Dev.answer_post _ _

/-- Every branch of the end of a blank sets a loop, a register bit or nothing. -/
theorem Dev.endBlank_post (p : Nat) : (d.endBlank p).cpx.post = d.cpx.post := by
  simp only [Dev.endBlank, apply_ite Dev.cpx, Dev.setBitAt_cpx, Dev.event_post, Dev.setLoop_cpx, Dev.setBlanked_post, ite_self]

theorem Dev.releaseCircuit_post (n : Nat) : (d.releaseCircuit n).cpx.post = d.cpx.post := by
  unfold Dev.releaseCircuit
  split
  · rfl
  · dsimp only
    split
    · rw [Dev.endBlank_post, Dev.freeCircuit_post]
    · rfl

theorem Dev.applyMove_post (m : Move) (ok : Bool) : (d.applyMove m ok).cpx.post = d.cpx.post := by
  unfold Dev.applyMove
  extract_lets t ran played d1 d2 d3 d4
  have h1 : d1.cpx.post = d.cpx.post := by
    unfold d1
    split
    · refine foldl_post d (fun d p => ?_) _
      split <;> rfl
    · rfl
  have h2 : d2.cpx.post = d1.cpx.post := by
    refine foldl_post d1 (fun d a => ?_) _
    split
    · split <;> rfl
    · rfl
  have h3 : d3.cpx.post = d2.cpx.post := by
    refine foldl_post d2 (fun d n => ?_) _
    split
    · rfl
    · dsimp only
      split
      · exact d.releaseCircuit_post n
      · split <;> rfl
  have h4 : d4.cpx.post = d3.cpx.post := by
    refine foldl_post d3 (fun d n => ?_) _
    split
    · rfl
    · split
      · exact d.releaseCircuit_post n
      · rfl
  have hall : d4.cpx.post = d.cpx.post := h4.trans (h3.trans (h2.trans h1))
  split
  · exact hall
  · refine (foldl_post d4 (fun d n => ?_) _).trans hall
    split <;> rfl

theorem Dev.finishMove_post (m : Move) (status : Nat) : (d.finishMove m status).cpx.post = d.cpx.post := by
  unfold Dev.finishMove
  dsimp only
  rw [Dev.parkIdle_post, Dev.finish_post, foldl_post _ (fun d x => d.resumeLoop_post _), Dev.applyMove_post]

theorem Dev.withdrawMove_post (m : Move) (status : Nat) : (d.withdrawMove m status).cpx.post = d.cpx.post := by
  rw [Dev.withdrawMove, Dev.finishMove_post, Dev.dropGrants_post]

theorem Dev.deferMoves_post : d.deferMoves.cpx.post = d.cpx.post := by
  refine foldl_post d (fun d m => ?_) _
  split
  · exact d.withdrawMove_post m _
  · rw [Dev.setMove_cpx, Dev.dropGrants_post]

theorem Dev.settle_post : d.settle.cpx.post = d.cpx.post := by
  have henter : (if d.econCauses ≠ 0 ∧ (!d.economy) = true then ((d.setFlag F.thsEconStat_active true).deferMoves).parkIdle else d).cpx.post =
      d.cpx.post := by
    split
    · rw [Dev.parkIdle_post, Dev.deferMoves_post, Dev.setFlag_cpx]
    · rfl
  exact henter

end

/-! ### Restart and close (R81, R482, R492, R493) -/

/-- Something noted to follow the replies of the row. -/
def Dev.noted (d : Dev) (a : PostAction) : Dev := { d with cpx := { d.cpx with post := d.cpx.post ++ [a] } }

section
variable {d : Dev} {c : Call}

/-- A cold restart, and a warm one that ends no power work on an active unit, follow the reply at once. -/
theorem bodyDevRestart_notes {m : Nat} (hm : rd c.packet.cmd.payload 0 1 = m) (hle : m ≤ 1) (hz : rd c.packet.cmd.payload 1 3 = 0)
    (hfree : m = 1 ∨ (d.active && d.powerWork) = false) :
    bodyDevRestart d c = (d.noted (.restart (decide (m = 1))), .final St.done []) := by
  subst hm
  rw [bodyDevRestart, if_neg (by omega), if_pos (hfree.imp_right fun h => by rw [h]; rfl)]
  rfl

/-- With power work on an active unit the unit yields first, or is refused without an eligible peer (R81). -/
theorem bodyDevRestart_yields (hm : rd c.packet.cmd.payload 0 1 = 0) (hz : rd c.packet.cmd.payload 1 3 = 0)
    (hwork : (d.active && d.powerWork) = true) (hpeer : d.flag F.twnStat_peerEligible = true) :
    bodyDevRestart d c = (d.yield.afterRole.noted (.restart false), .final St.done []) := by
  rw [bodyDevRestart, if_neg (by omega), if_neg (by simp [hm, hwork]), if_pos hpeer, hm]
  rfl

theorem bodyDevRestart_refused (hm : rd c.packet.cmd.payload 0 1 = 0) (hz : rd c.packet.cmd.payload 1 3 = 0)
    (hwork : (d.active && d.powerWork) = true) (hpeer : d.flag F.twnStat_peerEligible = false) :
    bodyDevRestart d c = refuse d St.refused := by
  rw [bodyDevRestart, if_neg (by omega), if_neg (by simp [hm, hwork]), if_neg (Bool.eq_false_iff.mp hpeer)]

theorem bodyDevRestart_badMode (hm : 1 < rd c.packet.cmd.payload 0 1) : bodyDevRestart d c = refuse d St.badParam := by
  rw [bodyDevRestart, if_pos (.inl hm)]

theorem Dev.closeOwn_notes (h : d.openCount c.owner ≤ 1) : d.closeOwn c = (d.noted (.close c.owner), .final St.done []) := by
  rw [Dev.closeOwn, if_neg (Nat.not_lt.mpr h)]
  rfl

theorem Dev.closeOwn_conflict (h : 1 < d.openCount c.owner) : d.closeOwn c = refuse d St.conflict := by
  rw [Dev.closeOwn, if_pos h]

/-- SESSION_CLOSE of the requester's own session does what REQ_CLOSE does. -/
theorem bodySessionClose_own {u : Session} (hz : rd c.packet.cmd.payload 2 2 = 0)
    (hu : d.cpx.sessions.find? (fun x => x.number = rd c.packet.cmd.payload 0 2) = some u) (hq : u.requester = c.owner) :
    bodySessionClose d c = d.closeOwn c := by
  simp only [bodySessionClose, hu, hz, hq, ne_eq, not_true_eq_false, if_false]

end

/-- The device with its replies sent, as what follows them finds it. -/
def Dev.replySent (d : Dev) : Dev := { d.settle.flush with cpx := { d.settle.flush.cpx with post := [] } }

/-- Where no twin follows, what waits for the replies is done once they have been sent. -/
theorem State.after_post (s : State) {d : Dev} {l : List PostAction} (ha : d.pairedActive = false)
    (hs : (d.standby && d.flag F.twnStat_paired) = false) (hp : d.cpx.post = l) (hne : l ≠ []) :
    (s.after d).dev = ((runPost l d.replySent).settle).flush := by
  have hpost : d.settle.flush.cpx.post = l := by rw [Dev.flush_post, Dev.settle_post, hp]
  show (d.twinFollow s.dev).finalize = _
  rw [d.twinFollow_alone _ ha hs, Dev.finalize, if_neg (by rw [hpost]; exact hne), hpost]
  rfl

/-- Settles O10: the functions note what follows the reply, and the end of the row does it. -/
theorem restartAndCloseFollowTheirReply : Obligations.RestartAndCloseFollowTheirReply := by
  refine ⟨fun s c q => ⟨fun h hz => ⟨fun hm => ?_, fun hm hfree => ?_, fun hm hwork hpeer => ?_, fun hm hwork hpeer => ?_, fun hm => ?_⟩,
    fun h => ⟨fun hone => ?_, fun hmore => ?_⟩, ?_⟩, fun s d ha hs => ⟨fun hp => ?_, fun hp => ?_, fun q hp => ?_⟩⟩
  · exact after_host_answers h (bodyDevRestart_notes hm le_rfl hz (.inl rfl))
  · exact after_host_answers h (bodyDevRestart_notes hm zero_le_one hz (.inr hfree))
  · exact after_host_answers h (bodyDevRestart_yields hm hz hwork hpeer)
  · exact after_host_answers h (bodyDevRestart_refused hm hz hwork hpeer)
  · exact after_host_answers h (bodyDevRestart_badMode hm)
  · exact after_host_answers h (Dev.closeOwn_notes hone)
  · exact after_host_answers h (Dev.closeOwn_conflict hmore)
  · rintro n u h rfl hz o hu rfl
    exact ⟨fun hone => after_host_answers h ((bodySessionClose_own hz hu rfl).trans (Dev.closeOwn_notes hone)),
      fun hmore => after_host_answers h ((bodySessionClose_own hz hu rfl).trans (Dev.closeOwn_conflict hmore))⟩
  · rw [s.after_post ha hs hp (by simp), runPost, runPost]
    rfl
  · rw [s.after_post ha hs hp (by simp), runPost, runPost]
    rfl
  · rw [s.after_post ha hs hp (by simp), runPost, runPost]
    rfl

/-! ### Writes of the ring registers (R31 to R34, R50, Table 2-17) -/

theorem Dev.direct_up {d : Dev} (h : d.flag F.cpxReady1_pcie = true) (f : Dev → Dev) : d.direct f = f d := if_pos h

theorem Dev.direct_down {d : Dev} (h : d.flag F.cpxReady1_pcie = false) (f : Dev → Dev) : d.direct f = d :=
  if_neg (Bool.eq_false_iff.mp h)

theorem okRing_of_lt {n : Nat} (h : n < 8) : okRing n = true := decide_eq_true h

/-- A one-bit field of a word is that bit. -/
theorem fieldOf_bit (f : FieldRef) (w : Word) (h : f.width = 1) : fieldOf f w = (w.getLsbD f.lo).toNat := by
  rw [fieldOf, h, Nat.shiftRight_eq_div_pow, BitVec.getLsbD, Nat.toNat_testBit, pow_one]

theorem fieldOf_ringEn_set (n : Nat) (v : Word) : fieldOf (F.cpxRingCtrl_en n) (v ||| 0x10000#32) ≠ 0 := by
  rw [fieldOf_bit _ _ rfl]
  simp [F.cpxRingCtrl_en]

theorem fieldOf_eqEn_set (v : Word) : fieldOf F.cpxEqSize_en (v ||| 0x10#32) ≠ 0 := by
  rw [fieldOf_bit _ _ rfl]
  simp [F.cpxEqSize_en]

/-- Bit 4 stands outside the size field. -/
theorem size_or_eqEn (v : Word) : (v ||| 0x10#32).toNat % 16 = v.toNat % 16 := by
  have h := Nat.or_mod_two_pow (a := v.toNat) (b := 0x10) (n := 4)
  simpa using h

theorem sizeOk_iff (v : Word) : sizeOk v = true ↔ 4 ≤ v.toNat % 16 ∧ v.toNat % 16 ≤ 12 := by
  simp [sizeOk]

/-- The offset of a base or size register of a pair is one that RING_CONFIG_WRITE names. -/
theorem isRingConfig_bank {n k : Nat} (hn : n < 8) (hk : k ∈ [0, 1, 2, 5, 6, 7]) : isRingConfig (R.cpxSqBaseLo n + 4 * k) = true := by
  have hlt : k < 8 := by fin_cases hk <;> omega
  have hword : (R.cpxSqBaseLo n + 4 * k - 0x100) % 0x40 / 4 = k := by unfold R.cpxSqBaseLo; omega
  have hmem : [0, 1, 2, 5, 6, 7, 10].contains k = true := by fin_cases hk <;> rfl
  have halign : (R.cpxSqBaseLo n + 4 * k) % 4 = 0 := by unfold R.cpxSqBaseLo; omega
  have hrange : 0x100 ≤ R.cpxSqBaseLo n + 4 * k ∧ R.cpxSqBaseLo n + 4 * k < 0x300 := by unfold R.cpxSqBaseLo; omega
  rw [isRingConfig, hword, hmem, halign, decide_eq_true hrange.1, decide_eq_true hrange.2]
  rfl

section
variable {s : State} {n k : Nat} {v : Word} (hn : n < 8) (hp : s.dev.flag F.cpxReady1_pcie = true)
include hn hp

/-- RING_CONFIG_WRITE of a base or size register writes the word of its pair. -/
theorem exec_ringConfigWrite (hk : k ∈ [0, 1, 2, 5, 6, 7]) :
    exec (.ringConfigWrite (R.cpxSqBaseLo n + 4 * k) v) s = .next (s.after (s.dev.writeRing n k v)) := by
  have hlt : k < 8 := by fin_cases hk <;> omega
  have hbelow : ¬ 0x300 ≤ R.cpxSqBaseLo n + 4 * k := by unfold R.cpxSqBaseLo; omega
  have hpair : (R.cpxSqBaseLo n + 4 * k - 0x100) / 0x40 = n := by unfold R.cpxSqBaseLo; omega
  have hword : (R.cpxSqBaseLo n + 4 * k - 0x100) % 0x40 / 4 = k := by unfold R.cpxSqBaseLo; omega
  show execRingConfigWrite _ v s = _
  rw [execRingConfigWrite, commitIf_ok (isRingConfig_bank hn hk), Dev.direct_up hp, if_neg hbelow, hpair, hword]

theorem exec_sqTailDoorbell (b : Bytes) (images : List Bytes) :
    exec (.sqTailDoorbell n v b images) s = .next (s.after
      ((s.dev.setFld (F.cpxSqTail_slot n) v.toNat).setRing n { s.dev.ring n with slots := b, images := images }).takeAll) := by
  show execSqTailDoorbell n v b images s = _
  rw [execSqTailDoorbell, commitIf_ok (okRing_of_lt hn), Dev.direct_up hp]

theorem exec_cqHeadDoorbell : exec (.cqHeadDoorbell n v) s = .next (s.after (s.dev.writeCqHead n v).takeAll) := by
  show execCqHeadDoorbell n v s = _
  rw [execCqHeadDoorbell, commitIf_ok (okRing_of_lt hn), Dev.direct_up hp]

theorem exec_ringEnable : exec (.ringEnable n v) s = .next (s.after (s.dev.writeRingCtrl n (v ||| 0x10000#32))) := by
  show execRingEnable n v s = _
  rw [execRingEnable, commitIf_ok (okRing_of_lt hn), Dev.direct_up hp]

theorem exec_ringDisable : exec (.ringDisable n v) s = .next (s.after (s.dev.writeRingCtrl n (v &&& 0xFFFEFFFF#32))) := by
  show execRingDisable n v s = _
  rw [execRingDisable, commitIf_ok (okRing_of_lt hn), Dev.direct_up hp]

end

/-- While BAR0 is disabled none of the rows of the ring registers arrives. -/
theorem exec_ringRows_down {s : State} {n : Nat} {v : Word} (hn : n < 8) (hp : s.dev.flag F.cpxReady1_pcie = false) (b : Bytes)
    (images : List Bytes) :
    exec (.sqTailDoorbell n v b images) s = .next (s.after s.dev) ∧ exec (.cqHeadDoorbell n v) s = .next (s.after s.dev) ∧
    exec (.eqHeadDoorbell v) s = .next (s.after s.dev) ∧ exec (.ringEnable n v) s = .next (s.after s.dev) ∧
    exec (.ringDisable n v) s = .next (s.after s.dev) ∧ exec (.eventRingEnable v) s = .next (s.after s.dev) := by
  have hpair : ∀ f, commitIf (okRing n) "ring pair" s (s.dev.direct f) = .next (s.after s.dev) := fun f => by
    rw [commitIf_ok (okRing_of_lt hn), Dev.direct_down hp]
  have hevent : ∀ f, commit s (s.dev.direct f) = .next (s.after s.dev) := fun f => by rw [commit, Dev.direct_down hp]
  exact ⟨hpair _, hpair _, hevent _, hpair _, hpair _, hevent _⟩

section
variable {d : Dev} {n k : Nat} {v : Word}

theorem Dev.writeRing_base (hk : k = 0 ∨ k = 1 ∨ k = 5 ∨ k = 6) (h : d.flag (F.cpxRingCtrl_en n) = false) :
    d.writeRing n k v = d.setReg (R.cpxSqBaseLo n + 4 * k) v := by
  rcases hk with rfl | rfl | rfl | rfl <;> simp [Dev.writeRing, h]

theorem Dev.writeRing_size (hk : k = 2 ∨ k = 7) (h : d.flag (F.cpxRingCtrl_en n) = false) (hv : sizeOk v = true) :
    d.writeRing n k v = d.setReg (R.cpxSqBaseLo n + 4 * k) (v &&& 0xF) := by
  rcases hk with rfl | rfl <;> simp [Dev.writeRing, h, hv]

/-- A base or size of an enabled pair is left as it was. -/
theorem Dev.writeRing_enabled (hk : k ∈ [0, 1, 2, 5, 6, 7]) (h : d.flag (F.cpxRingCtrl_en n) = true) : d.writeRing n k v = d.cfgErr n := by
  fin_cases hk <;> simp [Dev.writeRing, h]

theorem Dev.writeRing_badSize (hk : k = 2 ∨ k = 7) (hv : sizeOk v = false) : d.writeRing n k v = d.cfgErr n := by
  rcases hk with rfl | rfl <;> simp [Dev.writeRing, hv]

/-- A free requester is bound to the pair that is enabled for it (R33, R34). -/
theorem Dev.enableRing_binds (hen : d.flag (F.cpxRingCtrl_en n) = false) (h0 : d.fld (F.cpxRingCtrl_requester n) ≠ 0)
    (hF : d.fld (F.cpxRingCtrl_requester n) ≠ 0xFFFF) (hfree : d.requesterTaken (d.fld (F.cpxRingCtrl_requester n)) = false)
    (hdis : (d.ring n).disabling = false) :
    d.enableRing n = ((((((d.setRing n { bound := some (d.fld (F.cpxRingCtrl_requester n)) }).setFlag (F.cpxRingCtrl_en n) true).setReg
      (R.cpxSqHead n) 0).setReg (R.cpxSqTail n) 0).setReg (R.cpxCqHead n) 0).setReg (R.cpxCqTail n) 0) := by
  simp [Dev.enableRing, hen, h0, hF, hfree, hdis]

theorem Dev.enableRing_cfgErr (hen : d.flag (F.cpxRingCtrl_en n) = false)
    (hbad : d.fld (F.cpxRingCtrl_requester n) = 0 ∨ d.fld (F.cpxRingCtrl_requester n) = 0xFFFF ∨
      d.requesterTaken (d.fld (F.cpxRingCtrl_requester n)) = true ∨ (d.ring n).disabling = true) : d.enableRing n = d.cfgErr n := by
  rw [Dev.enableRing, if_neg (Bool.eq_false_iff.mp hen), if_pos hbad]

/-- CPX.RING_CTRL of a disabled pair written with `en` set: requester, `irq_en` and `coalesce`, then the enabling. -/
theorem Dev.writeRingCtrl_enables (hen : d.flag (F.cpxRingCtrl_en n) = false) (hv : fieldOf (F.cpxRingCtrl_en n) v ≠ 0) :
    d.writeRingCtrl n v = ((((if fieldOf (F.cpxRingCtrl_requester n) v = d.fld (F.cpxRingCtrl_requester n) then d
      else d.setFld (F.cpxRingCtrl_requester n) (fieldOf (F.cpxRingCtrl_requester n) v)).setFld (F.cpxRingCtrl_irqEn n)
        (fieldOf (F.cpxRingCtrl_irqEn n) v)).setFld (F.cpxRingCtrl_coalesce n) (fieldOf (F.cpxRingCtrl_coalesce n) v)).enableRing n) := by
  simp only [Dev.writeRingCtrl, hen, hv, ne_eq, not_false_eq_true, decide_true, if_true, Bool.false_eq_true, if_false]

/-- A disabled event ring starts at slot 0 with phase 1 (R33). -/
theorem Dev.writeEqSize_starts (hen : d.flag F.cpxEqSize_en = false) (hv : fieldOf F.cpxEqSize_en v ≠ 0) (hs : sizeOk v = true) :
    let d2 := (((d.setFld F.cpxEqSize_log2Slots (v.toNat % 16)).setFlag F.cpxEqSize_en true).setReg R.cpxEqHead 0).setReg R.cpxEqTail 0
    d.writeEqSize v = ({ d2 with cpx := { d2.cpx with eqPhase := true } } : Dev).eqRoom := by
  simp [Dev.writeEqSize, hen, hv, hs]

end

/-- Settles O30: each row is one write, and each write one of its cases. -/
theorem ringRegistersFollowTheirWrites : Obligations.RingRegistersFollowTheirWrites := by
  intro s n v hn
  refine ⟨fun b images hp => exec_ringRows_down hn hp b images, fun hp => ⟨fun b images => exec_sqTailDoorbell hn hp b images,
    ⟨fun hfull => ?_, fun hroom => ?_⟩, ?_, fun k hk => ?_, fun k hk => ?_, ?_, exec_ringDisable hn hp, fun hen h4 h12 => ?_⟩⟩
  · rw [exec_cqHeadDoorbell hn hp, Dev.writeCqHead, if_pos hfull]
  · rw [exec_cqHeadDoorbell hn hp, Dev.writeCqHead, if_neg (Bool.eq_false_iff.mp hroom)]
  · show commit s _ = _
    rw [Dev.direct_up hp]
    rfl
  · have hmem : k ∈ [0, 1, 2, 5, 6, 7] := by rcases hk with rfl | rfl | rfl | rfl <;> decide
    rw [exec_ringConfigWrite hn hp hmem]
    exact ⟨fun hen => by rw [Dev.writeRing_enabled hmem hen]; rfl, fun hen => by rw [Dev.writeRing_base hk hen]⟩
  · have hmem : k ∈ [0, 1, 2, 5, 6, 7] := by rcases hk with rfl | rfl <;> decide
    rw [exec_ringConfigWrite hn hp hmem]
    refine ⟨fun hen h4 h12 => by rw [Dev.writeRing_size hk hen ((sizeOk_iff v).mpr ⟨h4, h12⟩)], ?_⟩
    rintro (hen | hv)
    · rw [Dev.writeRing_enabled hmem hen]
      rfl
    · rw [Dev.writeRing_badSize hk (Bool.eq_false_iff.mpr fun hok => by have := (sizeOk_iff v).mp hok; omega)]
      rfl
  · intro w d1 d2 q hen hen2
    rw [exec_ringEnable hn hp, Dev.writeRingCtrl_enables hen (fieldOf_ringEn_set n v)]
    refine ⟨fun h0 hF hfree hdis => ?_, fun hbad => ?_⟩
    · rw [Dev.enableRing_binds hen2 h0 hF hfree hdis]
    · rw [Dev.enableRing_cfgErr hen2 hbad]
      rfl
  · show commit s _ = _
    have hs : sizeOk (v ||| 0x10#32) = true := (sizeOk_iff _).mpr (by rw [size_or_eqEn]; exact ⟨h4, h12⟩)
    rw [Dev.direct_up hp, Dev.writeEqSize_starts hen (fieldOf_eqEn_set v) hs, size_or_eqEn]
    rfl

/-! ### Rings and datagrams without a host command (R35 to R37, R48, R62) -/

section
variable (s : State) {n : Nat} (hn : n < 8)
include hn

theorem exec_ringDisableEffect : exec (.ringDisableEffect n) s = .next (s.after
    (if (s.dev.ring n).disabling && s.dev.ringIdle n then s.dev.ringDisabled n else s.dev)) :=
  commitIf_ok (okRing_of_lt hn) _ s _

theorem exec_ringDmaError : exec (.ringDmaError n) s = .next (s.after
    (if s.dev.flag (F.cpxRingCtrl_en n) then ((s.dev.disableRing n).setFlag (F.cpxRingStat_dmaErr n) true).resetMaster 2 else s.dev)) :=
  commitIf_ok (okRing_of_lt hn) _ s _

/-- A completion ring that is full and has been for 1 ms stalls (R62). -/
theorem exec_cqStallTimeout_full {t : Nat} (ht : (s.dev.ring n).fullSince = some t) (hf : s.dev.cqFull n = true) :
    exec (.cqStallTimeout n) s = .next (s.after (((s.dev.advance (t + tickMs)).setFlag (F.cpxRingStat_cqStall n) true).raiseLevel 298)) := by
  show execCqStallTimeout n s = _
  simp only [execCqStallTimeout, commitIf_ok (okRing_of_lt hn), ht, hf, if_true]

theorem exec_cqStallTimeout_room (h : (s.dev.ring n).fullSince = none ∨ s.dev.cqFull n = false) :
    exec (.cqStallTimeout n) s = .next (s.after s.dev) := by
  show execCqStallTimeout n s = _
  rw [execCqStallTimeout, commitIf_ok (okRing_of_lt hn)]
  dsimp only
  split
  next t ht => rw [h.resolve_left (by simp [ht])]; rfl
  next => rfl

theorem exec_msixCoalesceExpiry : exec (.msixCoalesceExpiry n) s = .next (s.after (if (s.dev.ring n).unsignalled = 0 then s.dev
    else ((s.dev.advance ((s.dev.ring n).firstUnsignalled + s.dev.fld (F.cpxRingCtrl_coalesce n) * tickUs)).setRing n
      { s.dev.ring n with unsignalled := 0 }).send (.msix n))) :=
  commitIf_ok (okRing_of_lt hn) _ s _

end

section
variable {s : State} {addr port : Nat} {whole : Bool} {b image : Bytes}

theorem exec_udpDatagram_down (h : s.dev.flag F.cpxReady1_mgmt = false) : exec (.udpDatagram addr port whole b image) s = .next (s.after s.dev) := by
  show execUdpDatagram addr port whole b image s = _
  simp [execUdpDatagram, commit, h]

/-- A fragment, a wrong length, and a datagram that comes while `en` is 0 are discarded and counted. -/
theorem exec_udpDatagram_discards (h : s.dev.flag F.cpxReady1_mgmt = true)
    (hbad : s.dev.flag F.cpxUdpCfg_en = false ∨ whole = false ∨ b.length ≠ 16 + rd b 6 2) :
    exec (.udpDatagram addr port whole b image) s = .next (s.after (s.dev.bumpSat F.cpxUdpStat_badDgram)) := by
  have hcond : (!s.dev.flag F.cpxUdpCfg_en || !whole || decide (b.length < 16) || decide (b.length ≠ 16 + rd b 6 2)) = true := by
    rcases hbad with h | h | h <;> simp [h]
  show execUdpDatagram addr port whole b image s = _
  simp only [execUdpDatagram, commit, h, hcond, Bool.not_true, Bool.false_eq_true, if_false, if_true, Dev.discardDatagram]

theorem exec_udpDatagram_takes (h : s.dev.flag F.cpxReady1_mgmt = true) (hen : s.dev.flag F.cpxUdpCfg_en = true) (hw : whole = true)
    (hl : b.length = 16 + rd b 6 2) (ha : s.dev.cpx.accepting = true) :
    exec (.udpDatagram addr port whole b image) s = .next (s.after
      (({ s.dev with cpx := { s.dev.cpx with turn := 0 } } : Dev).takeUdp addr port (packetOf (.udp addr port) b image)).takeAll) := by
  have hcond : (!s.dev.flag F.cpxUdpCfg_en || !whole || decide (b.length < 16) || decide (b.length ≠ 16 + rd b 6 2)) = false := by
    simp [hen, hw, hl]
  show execUdpDatagram addr port whole b image s = _
  rw [execUdpDatagram, commit]
  dsimp only
  rw [if_neg (by simp [h]), hcond, if_neg Bool.false_ne_true]
  exact congrArg (fun d : Dev => Host.Outcome.next (s.after d.takeAll)) (Dev.intake_udp rfl h hen ha)

end

/-- Settles O31: one equation for each row, and the branch that its condition takes. -/
theorem ringAndDatagramRowsTakeEffect : Obligations.RingAndDatagramRowsTakeEffect := by
  intro s n hn
  refine ⟨fun hdis hidle => ?_, fun h => ?_, fun hen => ?_, fun hen => ?_, fun t ht hf => exec_cqStallTimeout_full s hn ht hf,
    exec_cqStallTimeout_room s hn, fun h => ?_, fun h => ?_, fun addr port whole b image =>
    ⟨exec_udpDatagram_down, exec_udpDatagram_discards, exec_udpDatagram_takes⟩⟩
  · rw [exec_ringDisableEffect s hn, hdis, hidle, Bool.and_self, if_pos rfl]
  · rw [exec_ringDisableEffect s hn, if_neg (by rcases h with h | h <;> simp [h])]
  · rw [exec_ringDmaError s hn, if_pos hen]
  · rw [exec_ringDmaError s hn, if_neg (Bool.eq_false_iff.mp hen)]
  · rw [exec_msixCoalesceExpiry s hn, if_neg h]
  · rw [exec_msixCoalesceExpiry s hn, if_pos h]

/-! ### The frame of the queries (R44)

A query's end strikes out every open command with its number (`Dev.strike`). The statement asks nothing of the numbers of the commands that
are open before it, so a state in which one already holds the number that is given out next loses that command too. -/

/-- An ECHO of requester 1 on ring pair 0, without data. -/
def bareEcho : Cmd :=
  { via := .ring 0, flags := 0, requester := 1, length := 16, tag := 7, sequence := 2, payload := List.replicate 16 0, image := [] }

/-- A TWIN_PAIR of requester 1 that is open under number 1. -/
def openPairing : OpenCmd :=
  { oid := 1, owner := 1, packet := ⟨0x0C01, { bareEcho with length := 0, payload := [], tag := 6, sequence := 1 }⟩ }

/-- BAR0 is enabled, ring pair 0 serves requester 1, and a command is open under the number that comes next. -/
def numberTaken : State :=
  { dev := ({ cpx := { rings := [(0, { bound := some 1 })], accepting := true, nextOid := 1, opened := [openPairing] } } : Dev).setFlag
      F.cpxReady1_pcie true,
    pending := [] }

theorem numberTaken_starts : Starts numberTaken.dev 0x0E03 bareEcho 1 where
  fetched := ⟨0, rfl, by decide +kernel⟩
  whole := rfl
  newTag := by decide +kernel
  room := by decide +kernel
  alone := by decide +kernel
  noFence := by decide +kernel
  real := by decide +kernel
  passes := by decide +kernel
  permitted := by decide +kernel

/-- The ECHO runs, and the TWIN_PAIR is open no more. -/
theorem numberTaken_echo_opened : (numberTaken.after (numberTaken.dev.host 0x0E03 bareEcho)).dev.cpx.opened = [] := by decide +kernel

/-- Refutes O59: after ECHO in `numberTaken` no command is open, where one was before. -/
theorem not_queriesChangeNothingElse : ¬ Obligations.QueriesChangeNothingElse := by
  intro h
  obtain ⟨-, -, hopened⟩ := h numberTaken (numberTaken.after (numberTaken.dev.host 0x0E03 bareEcho)) bareEcho 1 (by decide +kernel)
    (by decide +kernel) rfl rfl rfl (.inl (by decide +kernel))
    (.inr (.inr (.inr (.inr (.inr (.inr (.inr (.inr (.inr (.inr (.inr (.inr (.inl ⟨numberTaken_starts, rfl⟩)))))))))))))
  rw [numberTaken_echo_opened] at hopened
  exact absurd hopened (by decide +kernel)

end Sys2Proof.Machine

/-! The proofs of the family 03_startup: the reset state (O3), a cold start (O33), and the boot, the image update and the ready bits (O35). -/

namespace Sys2Proof.Machine

/-! ### The reset state (R68) -/

/-- Settles O3: no register is listed, so each reads its reset value, and none of the four triggers of economy mode is armed. -/
theorem resetStateReadsResetValues : Obligations.ResetStateReadsResetValues := by
  have hcauses : State.reset.dev.econCauses = 0 := by decide +kernel
  have hshown : State.reset.dev.regN R.thsEconStat / 2 % 16 = 0 := by decide +kernel
  exact ⟨rfl, fun _ => rfl, ⟨hshown.trans hcauses.symm, fun h => absurd hcauses h⟩, rfl, .nil, rfl, by decide +kernel, by decide +kernel,
    by decide +kernel, by decide +kernel, by decide +kernel⟩

/-! ### Registers that a write leaves alone -/

/-- Where no register is listed each reads its reset value. -/
theorem Dev.reg_unlisted {d : Dev} (h : d.regs = []) (off : Nat) : d.reg off = regReset off := by
  rw [Dev.reg, h, tget]

theorem Dev.reg_setFld_other (d : Dev) (f : FieldRef) (n : Nat) {off : Nat} (h : off ≠ f.off) : (d.setFld f n).reg off = d.reg off :=
  d.reg_setReg_other _ off _ h

theorem Dev.reg_foldl_setReg_other {α : Type} (offs : α → Nat) (w : α → Word) {l : List α} {off : Nat} (h : ∀ a ∈ l, off ≠ offs a) (d : Dev) :
    (l.foldl (fun x a => x.setReg (offs a) (w a)) d).reg off = d.reg off := by
  induction l generalizing d with
  | nil => rfl
  | cons a l ih =>
    obtain ⟨ha, hl⟩ := List.forall_mem_cons.mp h
    exact (ih hl _).trans (d.reg_setReg_other _ off _ ha)

theorem Dev.reg_foldl_setReg_notMem (w : Nat → Word) {l : List Nat} {off : Nat} (h : off ∉ l) (d : Dev) :
    (l.foldl (fun x o => x.setReg o (w o)) d).reg off = d.reg off :=
  Dev.reg_foldl_setReg_other id w (fun o ho (e : off = o) => h (e ▸ ho)) d

theorem Dev.reg_foldl_setReg_mem (w : Nat → Word) {l : List Nat} {off : Nat} (h : off ∈ l) (d : Dev) :
    (l.foldl (fun x o => x.setReg o (w o)) d).reg off = w off := by
  induction l generalizing d with
  | nil => cases h
  | cons o l ih =>
    by_cases hl : off ∈ l
    · exact ih hl _
    · obtain rfl : off = o := (List.mem_cons.mp h).resolve_right hl
      exact (Dev.reg_foldl_setReg_notMem w hl _).trans (d.reg_setReg_same off _)

/-- Replacing a field leaves the bits below it. -/
theorem withField_mod (f : FieldRef) (w : Word) (n : Nat) (h : f.lo ≤ 32) : (withField f w n).toNat % 2 ^ f.lo = w.toNat % 2 ^ f.lo := by
  have hle : fieldOf f w * 2 ^ f.lo ≤ w.toNat := by
    rw [fieldOf, Nat.shiftRight_eq_div_pow]
    exact (Nat.mul_le_mul_right _ (Nat.mod_le _ _)).trans (Nat.div_mul_le_self _ _)
  rw [withField, BitVec.toNat_ofNat, Nat.mod_mod_of_dvd _ (pow_dvd_pow 2 h), Nat.add_mul_mod_self_right]
  conv_rhs => rw [← Nat.sub_add_cancel hle, Nat.add_mul_mod_self_right]

/-- A field that lies below the replaced one reads as before. -/
theorem fieldOf_withField_below {f g : FieldRef} (w : Word) (n : Nat) (h : f.lo ≤ 32) (hg : g.lo + g.width ≤ f.lo) :
    fieldOf g (withField f w n) = fieldOf g w := by
  have hfield (v : Word) : fieldOf g v = v.toNat % 2 ^ f.lo % 2 ^ (g.lo + g.width) / 2 ^ g.lo := by
    rw [Nat.mod_mod_of_dvd _ (pow_dvd_pow 2 hg), pow_add, Nat.mod_mul_right_div_self, fieldOf, Nat.shiftRight_eq_div_pow]
  rw [hfield, hfield, withField_mod f w n h]

theorem Dev.fld_setFld_below (d : Dev) (f g : FieldRef) (n : Nat) (h : f.lo ≤ 32) (hoff : g.off = f.off) (hg : g.lo + g.width ≤ f.lo) :
    (d.setFld f n).fld g = d.fld g := by
  rw [Dev.fld, Dev.fld, hoff, Dev.setFld, Dev.reg_setReg_same, fieldOf_withField_below _ n h hg]

/-! ### A cold start (R60, R67, R68) -/

/-- A new nonce changes the eight registers of HST.NONCE alone. -/
theorem Dev.reg_renewNonce (d : Dev) {off : Nat} (h : ∀ i < 8, off ≠ R.hstNonce i) : d.renewNonce.reg off = d.reg off := by
  rw [Dev.renewNonce]
  exact Dev.reg_foldl_setReg_other R.hstNonce (fun i => BitVec.ofNat 32 (Config.nonce d.hst.nonceCount / 2 ^ (32 * i)))
    (fun i hi => h i (List.mem_range.mp hi)) _

/-- Of the registers that keep their value in reset, none is TWN.STAT or part of HST.NONCE. -/
theorem keptRegs_apart {off : Nat} (h : off ∈ keptRegs) : off ≠ R.twnStat ∧ ∀ i < 8, off ≠ R.hstNonce i := by
  revert off
  decide

theorem Dev.reg_resetAll_kept (d : Dev) (cause : Nat) {off : Nat} (h : off ∈ keptRegs) : (d.resetAll cause).reg off = d.reg off := by
  have htwn := (keptRegs_apart h).1
  rw [Dev.resetAll, Dev.setFlag, Dev.reg_setFld_other _ _ _ htwn, Dev.reg_setFld_other _ _ _ htwn, Dev.reg_foldl_setReg_mem d.reg h]

theorem Dev.reg_resetAll_reset (d : Dev) (cause : Nat) {off : Nat} (h : off ∉ keptRegs) (htwn : off ≠ R.twnStat) :
    (d.resetAll cause).reg off = regReset off := by
  rw [Dev.resetAll, Dev.setFlag, Dev.reg_setFld_other _ _ _ htwn, Dev.reg_setFld_other _ _ _ htwn, Dev.reg_foldl_setReg_notMem d.reg h,
    Dev.reg_unlisted rfl]

theorem Dev.resetAll_paired (d : Dev) (cause : Nat) : (d.resetAll cause).fld F.twnStat_paired = 0 := by
  have hreset : fieldOf F.twnStat_paired (regReset R.twnStat) = 0 := by decide +kernel
  rw [Dev.resetAll, Dev.setFlag, Dev.fld_setFld_below _ F.twnStat_unitId F.twnStat_paired _ (by decide) rfl (by decide),
    Dev.fld_setFld_below _ F.twnStat_term F.twnStat_paired _ (by decide) rfl (by decide), Dev.fld,
    Dev.reg_foldl_setReg_notMem d.reg (by decide), Dev.reg_unlisted rfl]
  exact hreset

section
variable (d : Dev) (cause : Nat) (unit : Bool)

/-- Both dice out of reset, before the start is counted. -/
def Dev.outOfReset : Dev :=
  let d1 := d.resetAll 1
  { d1 with mem := { d1.mem with porst := true, jtagIr := if 2 ≤ d1.mem.jtagIr then 0 else d1.mem.jtagIr } }

/-- The start counted, and its cause recorded. -/
def Dev.startCounted : Dev :=
  (d.outOfReset.setRegN R.hstColdCount (min (d.regN R.hstColdCount + 1) 0xFFFFFFFF)).setFld F.hstResetCause_cause cause

theorem Dev.coldStart_eq : d.coldStart cause unit = ((d.startCounted cause).setFlag F.twnStat_unitId unit).renewNonce := rfl

/-- What the start itself writes beside the nonce: TWN.STAT, HST.RESET_CAUSE and HST.COLD_COUNT. -/
theorem Dev.reg_coldStart {off : Nat} (htwn : off ≠ R.twnStat) (hnonce : ∀ i < 8, off ≠ R.hstNonce i) (hcause : off ≠ R.hstResetCause)
    (hcount : off ≠ R.hstColdCount) : (d.coldStart cause unit).reg off = (d.resetAll 1).reg off :=
  calc (d.coldStart cause unit).reg off
    _ = ((d.startCounted cause).setFlag F.twnStat_unitId unit).reg off := by rw [Dev.coldStart_eq, Dev.reg_renewNonce _ hnonce]
    _ = (d.startCounted cause).reg off := Dev.reg_setFld_other _ _ _ htwn
    _ = (d.outOfReset.setRegN R.hstColdCount _).reg off := Dev.reg_setFld_other _ _ _ hcause
    _ = (d.resetAll 1).reg off := Dev.reg_setReg_other _ _ off _ hcount

/-- HST.RESET_CAUSE and HST.COLD_COUNT read as the start has written them. -/
theorem Dev.reg_coldStart_host {off : Nat} (h : off = R.hstResetCause ∨ off = R.hstColdCount) :
    (d.coldStart cause unit).reg off = (d.startCounted cause).reg off := by
  have hkept : off ∈ keptRegs := by rcases h with rfl | rfl <;> decide
  obtain ⟨htwn, hnonce⟩ := keptRegs_apart hkept
  rw [Dev.coldStart_eq, Dev.reg_renewNonce _ hnonce, Dev.setFlag, Dev.reg_setFld_other _ _ _ htwn]

theorem Dev.coldStart_cause (h : cause < 2 ^ F.hstResetCause_cause.width) : (d.coldStart cause unit).fld F.hstResetCause_cause = cause := by
  have hreg := d.reg_coldStart_host cause unit (.inl rfl : F.hstResetCause_cause.off = R.hstResetCause ∨ _)
  rw [Dev.fld, hreg]
  exact (Dev.fld_setFld_same _ _ _ (by decide)).trans (Nat.mod_eq_of_lt h)

theorem Dev.coldStart_count : (d.coldStart cause unit).regN R.hstColdCount = min (d.regN R.hstColdCount + 1) 0xFFFFFFFF := by
  rw [Dev.regN, d.reg_coldStart_host cause unit (.inr rfl), Dev.startCounted, Dev.reg_setFld_other _ _ _ (by decide), Dev.setRegN,
    Dev.reg_setReg_same, BitVec.toNat_ofNat]
  exact Nat.mod_eq_of_lt ((Nat.min_le_right _ _).trans_lt (by decide))

theorem Dev.fld_coldStart_twnStat {g : FieldRef} (hg : g.off = R.twnStat) :
    (d.coldStart cause unit).fld g = ((d.startCounted cause).setFlag F.twnStat_unitId unit).fld g := by
  rw [Dev.coldStart_eq, Dev.fld, Dev.reg_renewNonce _ (hg ▸ by decide), Dev.fld]

theorem Dev.coldStart_unitId : (d.coldStart cause unit).flag F.twnStat_unitId = unit := by
  rw [Dev.flag, Dev.fld_coldStart_twnStat _ _ _ rfl]
  exact Dev.flag_setFlag_same _ _ unit (by decide) rfl

theorem Dev.coldStart_paired : (d.coldStart cause unit).flag F.twnStat_paired = false := by
  have hzero : (d.coldStart cause unit).fld F.twnStat_paired = 0 :=
    calc (d.coldStart cause unit).fld F.twnStat_paired
      _ = ((d.startCounted cause).setFlag F.twnStat_unitId unit).fld F.twnStat_paired := Dev.fld_coldStart_twnStat _ _ _ rfl
      _ = (d.startCounted cause).fld F.twnStat_paired := Dev.fld_setFld_below _ _ _ _ (by decide) rfl (by decide)
      _ = (d.outOfReset.setRegN R.hstColdCount _).fld F.twnStat_paired := Dev.fld_setFld_other _ _ _ _ (by decide)
      _ = (d.resetAll 1).fld F.twnStat_paired := congrArg (fieldOf _) (Dev.reg_setReg_other _ _ R.twnStat _ (by decide))
      _ = 0 := d.resetAll_paired 1
  rw [Dev.flag, hzero]
  rfl

end

/-- Settles O33: the start writes four registers and the nonce, and every other one is as `Dev.resetAll` leaves it. -/
theorem coldStartReturnsRegistersToReset : Obligations.ColdStartReturnsRegistersToReset := by
  intro d cause unit hcause
  refine ⟨fun off hkept htwn hnonce => ?_, d.coldStart_cause cause unit hcause, d.coldStart_count cause unit, fun off hkept hc hn => ?_,
    d.coldStart_unitId cause unit, d.coldStart_paired cause unit, rfl, rfl, rfl, rfl, rfl, rfl⟩
  · have hc : off ≠ R.hstResetCause := fun e => hkept (e ▸ by decide)
    have hn : off ≠ R.hstColdCount := fun e => hkept (e ▸ by decide)
    rw [d.reg_coldStart cause unit htwn hnonce hc hn, d.reg_resetAll_reset 1 hkept htwn]
  · obtain ⟨htwn, hnonce⟩ := keptRegs_apart hkept
    rw [d.reg_coldStart cause unit htwn hnonce hc hn, d.reg_resetAll_kept 1 hkept]

/-! ### The checks of a slot (R70, R71) -/

section
variable {d : Dev} {i : SlotImage}

/-- Once an owner key is fused, a configuration section that is not signed under it is refused. -/
theorem ownerUnsigned_iff : (d.hst.ownerKey.isSome && decide (i.ownerSig ≠ d.hst.ownerKey)) = true ↔
    ¬ (d.hst.ownerKey = none ∨ i.ownerSig = d.hst.ownerKey) := by
  rw [Bool.and_eq_true, Option.isSome_iff_ne_none, decide_eq_true_iff, not_or]

theorem Dev.slotRefusal_unsigned (hv : i.vendorSig = false) : d.slotRefusal i = 1 := by
  rw [Dev.slotRefusal, hv]
  rfl

theorem Dev.slotRefusal_badTag (hv : i.vendorSig = true) (ht : i.tagOk = false) : d.slotRefusal i = 2 := by
  rw [Dev.slotRefusal, hv, ht]
  rfl

theorem Dev.slotRefusal_badDigest (hv : i.vendorSig = true) (ht : i.tagOk = true) (hd : i.digestOk = false) : d.slotRefusal i = 3 := by
  rw [Dev.slotRefusal, hv, ht, hd]
  rfl

/-- An image that is signed, opens and has its digest is judged by its rollback value and the owner's signature. -/
theorem Dev.slotRefusal_intact (hv : i.vendorSig = true) (ht : i.tagOk = true) (hd : i.digestOk = true) :
    d.slotRefusal i = if i.rollback < d.fld F.hstRollback_value then 4
      else if d.hst.ownerKey.isSome && decide (i.ownerSig ≠ d.hst.ownerKey) then 5 else 0 := by
  rw [Dev.slotRefusal, hv, ht, hd]
  rfl

end

/-! ### The choice of a slot (R73) -/

section
variable {d : Dev} {staged n : Nat} {a b x y : SlotImage}

/-- The slot that the boot tries first, its image, and the image of the other. -/
def Dev.bootOrder (d : Dev) (staged : Nat) (a b : SlotImage) : Nat × SlotImage × SlotImage :=
  let p := d.bootSlots staged a b
  (p.1, if p.1 = 0 then p.2.1 else p.2.2, if p.1 = 0 then p.2.2 else p.2.1)

theorem Dev.bootOrder_flash (h : d.hst.staged = none) :
    d.bootOrder staged a b = (staged, if staged = 0 then a else b, if staged = 0 then b else a) := by
  simp only [Dev.bootOrder, Dev.bootSlots, h]

theorem Dev.bootOrder_updated (hn : n < 2) (h : d.hst.staged = some (n, x)) : d.bootOrder staged a b = (n, x, if n = 0 then b else a) := by
  obtain rfl | rfl : n = 0 ∨ n = 1 := by omega
  · simp [Dev.bootOrder, Dev.bootSlots, h]
  · simp [Dev.bootOrder, Dev.bootSlots, h]

/-- The boot where slot `n`, which holds `x`, is tried first, and the other, which holds `y`, second. -/
def Dev.bootFrom (d : Dev) (n : Nat) (x y : SlotImage) : Dev :=
  if d.slotRefusal x = 0 then d.bootSlot n false x
  else if d.slotRefusal y = 0 then (d.setFld F.hstBootStat_failWhy (d.slotRefusal x)).bootSlot (1 - n) true y
  else (d.setFld F.hstBootStat_failWhy (d.slotRefusal y)).setFlag F.hstBootStat_noImage true

/-- Out of reset, and with no boot behind it, the device boots in the order of `Dev.bootOrder`. -/
theorem exec_bootVerifyDone {s : State} (hs : staged < 2) (hp : s.dev.mem.porst = true) (hb : s.dev.mem.brownOut = false)
    (hboot : s.dev.flag F.cpxReady1_boot = false) (hno : s.dev.flag F.hstBootStat_noImage = false) (hw : s.dev.hst.warm = false)
    (ho : s.dev.bootOrder staged a b = (n, x, y)) : exec (.bootVerifyDone staged a b) s = .next (s.after (s.dev.bootFrom n x y)) := by
  have hcond : (!s.dev.mem.porst || s.dev.mem.brownOut || s.dev.flag F.cpxReady1_boot || s.dev.flag F.hstBootStat_noImage ||
      s.dev.hst.warm) = false := by
    rw [hp, hb, hboot, hno, hw]
    rfl
  obtain ⟨rfl, rfl, rfl⟩ : _ ∧ _ ∧ _ := by simpa only [Dev.bootOrder, Prod.mk.injEq] using ho
  show execBootVerifyDone staged a b s = _
  rw [execBootVerifyDone, commitIf_ok (decide_eq_true hs)]
  dsimp only
  rw [hcond, if_neg Bool.false_ne_true]
  rfl

end

/-! ### The end of an image update (R73) -/

section
variable {s : State} {img : SlotImage}

theorem exec_imageUpdateComplete_idle (h : s.dev.hst.update = none) : exec (.imageUpdateComplete img) s = .next (s.after s.dev) := by
  show execImageUpdateComplete img s = _
  simp only [execImageUpdateComplete, commit, h]

theorem exec_imageUpdateComplete {oid addr : Nat} {len : Bytes} (h : s.dev.hst.update = some (oid, addr, len)) :
    exec (.imageUpdateComplete img) s = .next (s.after (if s.dev.slotRefusal img = 0 then
      (({ s.dev with hst := { s.dev.hst with update := none, staged := some (1 - s.dev.hst.bootedSlot, img) } } : Dev).send
        (.flash (1 - s.dev.hst.bootedSlot) img)).finish oid St.done (le 4 img.version)
      else ({ s.dev with hst := { s.dev.hst with update := none } } : Dev).finish oid St.refused [])) := by
  show execImageUpdateComplete img s = _
  simp only [execImageUpdateComplete, commit, h]

end

/-! ### Functions that become ready (R77) -/

section
variable {d : Dev} {n : Nat}

theorem exec_functionReady (s : State) (hn : n < 64) : exec (.functionReady n) s = .next (s.after (s.dev.functionReady n)) :=
  commitIf_ok (decide_eq_true hn) _ s _

theorem Dev.functionReady_unmet (h : d.readyNeeds n = false) : d.functionReady n = d := by
  rw [Dev.functionReady, h]
  rfl

theorem Dev.functionReady_bit (hn : n < 32) (hcal : n ≠ 13) (h : d.readyNeeds n = true) :
    d.functionReady n = (d.setBitAt R.cpxReady1 n true).readyEffect n := by
  rw [Dev.functionReady, h, if_neg (by decide), if_neg (Nat.not_le.mpr hn), if_neg hcal]

theorem Dev.functionReady_cal (h : d.readyNeeds 13 = true) : d.functionReady 13 = d.readyEffect 13 := by
  rw [Dev.functionReady, h, if_neg (by decide), if_neg (by decide), if_pos rfl]

theorem Dev.functionReady_link {l : Nat} (h : d.readyNeeds (32 + l) = true) :
    d.functionReady (32 + l) = if d.linkState l = 5 then d.linkUp l else d.setBitAt R.cpxReady0 l true := by
  rw [Dev.functionReady, h, if_neg (by decide), if_pos (Nat.le_add_right 32 l), Nat.add_sub_cancel_left]

end

/-- Settles O35: the checks in their order, the boot in the order of the slots, and one equation for each other row. -/
theorem bootTriesStagedSlotFirst : Obligations.BootTriesStagedSlotFirst := by
  intro s a b
  refine ⟨fun i => ⟨Dev.slotRefusal_unsigned, Dev.slotRefusal_badTag, Dev.slotRefusal_badDigest, fun hv ht hd hr => ?_, fun hv ht hd hr ho => ?_,
    fun hv ht hd hr ho => ?_⟩, fun staged n x y hs hp hb hboot hno hw hslots => ?_, fun oid addr len hu => ⟨fun h => ?_, fun h => ?_⟩,
    exec_imageUpdateComplete_idle, fun n hn h => ?_, fun n hn hcal h => ?_, fun h => ?_, fun l hl h => ⟨fun h5 => ?_, fun h5 => ?_⟩⟩
  · rw [Dev.slotRefusal_intact hv ht hd, if_pos hr]
  · rw [Dev.slotRefusal_intact hv ht hd, if_neg (Nat.not_lt.mpr hr), if_pos (ownerUnsigned_iff.mpr ho)]
  · rw [Dev.slotRefusal_intact hv ht hd, if_neg (Nat.not_lt.mpr hr), if_neg (fun h => ownerUnsigned_iff.mp h ho)]
  · have horder : s.dev.bootOrder staged a b = (n, x, y) := by
      rcases hslots with ⟨hflash, rfl, rfl, rfl⟩ | ⟨hn, hstaged, rfl⟩
      · exact Dev.bootOrder_flash hflash
      · exact Dev.bootOrder_updated hn hstaged
    rw [exec_bootVerifyDone hs hp hb hboot hno hw horder, Dev.bootFrom]
    refine ⟨fun hx => ?_, fun hx hy => ?_, fun hx hy => ?_⟩
    · rw [if_pos hx]
    · rw [if_neg hx, if_pos hy]
    · rw [if_neg hx, if_neg hy]
  · rw [exec_imageUpdateComplete hu, if_pos h]
  · rw [exec_imageUpdateComplete hu, if_neg h]
  · rw [exec_functionReady s hn, Dev.functionReady_unmet h]
  · rw [exec_functionReady s (hn.trans (by decide)), Dev.functionReady_bit hn hcal h]
  · rw [exec_functionReady s (by decide), Dev.functionReady_cal h]
  · rw [exec_functionReady s (Nat.add_lt_add_left hl 32), Dev.functionReady_link h, if_pos h5]
  · rw [exec_functionReady s (Nat.add_lt_add_left hl 32), Dev.functionReady_link h, if_neg h5]

end Sys2Proof.Machine

/-! The proofs of the family 04_timebases: the timebase (O2, O25), the position of a train (O26), the commands of trains and sensors (O27), the rows
of wall time, trains, marks and the catenary tracker (O28), and the claims of an accepted move (O16). -/

namespace Sys2Proof.Machine

/-! ### The timebase (R15, R85, R86) -/

theorem step_idle {s : State} (h : s.pending = []) : step s = .next { s with dev := s.dev.tick } := by
  rw [step, h]

theorem Dev.tick_running {d : Dev} (hp : d.mem.porst = true) (hb : d.mem.brownOut = false) (hr : d.mem.refLost = false) :
    d.tick = { d with now := d.now + 20 } := by
  rw [Dev.tick, hp, hb, hr]
  rfl

theorem Dev.tick_stopped {d : Dev} (h : d.mem.porst = false ∨ d.mem.brownOut = true ∨ d.mem.refLost = true) : d.tick = d := by
  rw [Dev.tick, if_neg]
  rcases h with h | h | h <;> simp [h]

/-- Settles O2: the step is `Dev.tick`, which counts where all three conditions hold. -/
theorem idleStepCountsTimebaseOnce : Obligations.IdleStepCountsTimebaseOnce := by
  intro s hs
  rw [step_idle hs]
  exact ⟨fun ⟨hp, hb, hr⟩ => by rw [Dev.tick_running hp hb hr], fun h => by rw [Dev.tick_stopped h]⟩

/-- A frame is 1000 timebase counts. -/
theorem Dev.localFrame_eq (d : Dev) : d.localFrame = d.count / 1000 := (Nat.div_div_eq_div_mul d.now 20 1000).symm

theorem Dev.view_frameLo (d : Dev) : d.view R.tbuFrameLo = BitVec.ofNat 32 d.localFrame := rfl

theorem Dev.view_frameHi (d : Dev) : d.view R.tbuFrameHi = BitVec.ofNat 32 (d.localFrame / 2 ^ 32) := rfl

theorem Dev.view_cycle (d : Dev) : d.view R.tbuCycle = BitVec.ofNat 32 (d.count % 1000) := rfl

/-- Settles O25: the three registers show one count, and the frame count is that count divided by 1000. -/
theorem frameCountIsTimebaseOverThousand : Obligations.FrameCountIsTimebaseOverThousand := by
  intro d
  rw [Dev.view_frameLo, Dev.view_frameHi, Dev.view_cycle, Dev.localFrame_eq]
  exact ⟨rfl, rfl, rfl, rfl⟩

/-! ### The position of a train (R91) -/

theorem Train.at_sub_pRef (x : Train) (t : Int) : x.at t - x.pRef = (x.speed * (t - x.tRef)).tdiv 1000000000 := add_sub_cancel_left _ _

/-- Division towards zero leaves a quotient of 0 or more, less than 1 below the exact one. -/
theorem tdiv_bounds_of_nonneg {a n : Int} (ha : 0 ≤ a) (hn : 0 < n) : 0 ≤ a.tdiv n ∧ a.tdiv n * n ≤ a ∧ a < (a.tdiv n + 1) * n := by
  rw [Int.tdiv_eq_ediv_of_nonneg ha]
  exact ⟨Int.ediv_nonneg ha hn.le, Int.ediv_mul_le a hn.ne', Int.lt_ediv_add_one_mul_self a hn⟩

/-- Settles O26: a movement backwards is the mirror image of one forwards. -/
theorem trainPositionRoundsTowardsReference : Obligations.TrainPositionRoundsTowardsReference := by
  intro x t exact moved
  have hmoved : moved = exact.tdiv 1000000000 := x.at_sub_pRef t
  rw [hmoved]
  refine ⟨fun h => tdiv_bounds_of_nonneg h (by decide), fun h => ?_⟩
  obtain ⟨hsign, hle, hlt⟩ := tdiv_bounds_of_nonneg (n := 1000000000) (neg_nonneg.mpr h) (by decide)
  rw [Int.neg_tdiv] at hsign hle hlt
  omega

/-! ### The commands of trains and sensors (R92 to R96) -/

section
variable {d : Dev} {c : Call}

/-- The instant of a TRAIN_REPORT: the one it names while `ptp` is set, and its arrival otherwise (R92). -/
def Dev.reportInstant (d : Dev) (c : Call) : Int :=
  if d.flag F.cpxReady1_ptp then (rd c.packet.cmd.payload 16 8 : Nat) else c.arrived.getD d.wall

/-- The train that a TRAIN_REPORT tracks anew, but for its confidence. -/
def Dev.reportedTrain (d : Dev) (c : Call) : Train :=
  ⟨rd c.packet.cmd.payload 2 2, signed 32 (rd c.packet.cmd.payload 4 4), d.reportInstant c, signed 32 (rd c.packet.cmd.payload 8 4),
    d.reportInstant c, 0⟩

/-- A report that has not waited behind a fence has arrived now. -/
theorem Dev.reportInstant_now (h : c.arrived = none) :
    d.reportInstant c = if d.flag F.cpxReady1_ptp then ((rd c.packet.cmd.payload 16 8 : Nat) : Int) else d.wall := by
  rw [Dev.reportInstant, h, Option.getD_none]

/-- The confidence of train `t`; 0 where none is tracked. -/
def Dev.trackedConfidence (d : Dev) (t : Nat) : Nat := match d.train t with | some x => d.confidence x | none => 0

/-- What a TRAIN_REPORT that is not refused satisfies (R92). -/
structure Dev.ReportLegal (d : Dev) (c : Call) : Prop where
  train : rd c.packet.cmd.payload 0 1 ≤ 63
  zero : rd c.packet.cmd.payload 1 1 = 0
  zeros : rd c.packet.cmd.payload 12 4 = 0
  speed : (signed 32 (rd c.packet.cmd.payload 8 4)).natAbs ≤ 150000
  instant : d.flag F.cpxReady1_ptp = true → d.reportInstant c ≤ d.wall + 10000000

/-- The model refuses no report that is legal. -/
theorem Dev.ReportLegal.not_refused (h : d.ReportLegal c) :
    ¬ (63 < rd c.packet.cmd.payload 0 1 ∨ rd c.packet.cmd.payload 1 1 ≠ 0 ∨ rd c.packet.cmd.payload 12 4 ≠ 0 ∨
      150000 < (signed 32 (rd c.packet.cmd.payload 8 4)).natAbs ∨
      (d.flag F.cpxReady1_ptp = true ∧ d.wall + 10000000 < d.reportInstant c)) := by
  obtain ⟨ht, hz, hzs, hv, hi⟩ := h
  simp only [not_or, not_and, not_lt, not_not]
  exact ⟨ht, hz, hzs, hv, hi⟩

theorem bodyTrainReport_tracks {x : Train} (h : d.ReportLegal c) (hnew : d.fireAllDue.train (rd c.packet.cmd.payload 0 1) = none)
    (hx : d.reportedTrain c = x) :
    let t := rd c.packet.cmd.payload 0 1
    let d1 := (d.fireAllDue.setTrain t { x with level := d.fireAllDue.confidence x }).recheckTrain t
    bodyTrainReport d c = (d1, .final St.done (le 1 (d1.trackedConfidence t) ++ le 1 0)) := by
  rw [bodyTrainReport, ← hx]
  refine (if_neg h.not_refused).trans ?_
  simp only [hnew, Dev.reportedTrain, Dev.reportInstant]
  generalize Dev.recheckTrain _ _ = d1
  rfl

theorem bodyTrainReport_superseded {y : Train} (h : d.ReportLegal c) (hy : d.fireAllDue.train (rd c.packet.cmd.payload 0 1) = some y)
    (hlate : d.reportInstant c ≤ y.tLast) :
    bodyTrainReport d c = (d.fireAllDue, .final St.done (le 1 (d.fireAllDue.confidence y) ++ le 1 1)) := by
  rw [bodyTrainReport]
  refine (if_neg h.not_refused).trans ?_
  simp only [hy]
  exact if_pos hlate

theorem bodyTrainDrop_closes {t : Nat} (h : rd c.packet.cmd.payload 0 1 = t) (ht : t ≤ 63) (hz : rd c.packet.cmd.payload 1 3 = 0) :
    let k := d.fireAllDue.closeMarks t St.refused (fun _ => true)
    bodyTrainDrop d c = ({ k.2 with tbu := { k.2.tbu with trains := adel k.2.tbu.trains t } }, .final St.done (le 4 k.1)) := by
  rw [bodyTrainDrop, h]
  exact if_neg (by omega)

/-- What a WSENSE_CONFIG that is not refused satisfies (Table 4-2). -/
structure Call.SensorLegal (c : Call) : Prop where
  sensor : rd c.packet.cmd.payload 0 1 ≤ 7
  flags : rd c.packet.cmd.payload 1 1 < 4
  debounce : 1 ≤ rd c.packet.cmd.payload 8 2 ∧ rd c.packet.cmd.payload 8 2 ≤ 1000
  quiet : 100 ≤ rd c.packet.cmd.payload 10 2 ∧ rd c.packet.cmd.payload 10 2 ≤ 10000
  window : 100 ≤ rd c.packet.cmd.payload 12 4 ∧ rd c.packet.cmd.payload 12 4 ≤ 100000

theorem bodyWsenseConfig_sets (h : c.SensorLegal) :
    bodyWsenseConfig d c = (d.setWheel (rd c.packet.cmd.payload 0 1)
      ⟨bit (rd c.packet.cmd.payload 1 1) 0, bit (rd c.packet.cmd.payload 1 1) 1, rd c.packet.cmd.payload 2 2,
        signed 32 (rd c.packet.cmd.payload 4 4), rd c.packet.cmd.payload 8 2, rd c.packet.cmd.payload 10 2,
        rd c.packet.cmd.payload 12 4, d.now⟩, .final St.done []) := by
  obtain ⟨hi, hf, ⟨hd1, hd2⟩, ⟨hq1, hq2⟩, hw1, hw2⟩ := h
  rw [bodyWsenseConfig]
  refine if_neg ?_
  simp [hi, hf, hd1, hd2, hq1, hq2, hw1, hw2]

end

/-- Settles O27: each row is `Dev.host` with the answer of its function. -/
theorem trainAndSensorCommandsTakeEffect : Obligations.TrainAndSensorCommandsTakeEffect := by
  refine fun s c q => ⟨?_, ?_, ?_⟩
  · rintro t h rfl ht hz hzs hv o at_ hat x a d1
    have hinstant : o.reportInstant (s.dev.nextCall 0x0601 c q) = at_ := Dev.reportInstant_now rfl
    have hx : o.reportedTrain (s.dev.nextCall 0x0601 c q) = x := by rw [Dev.reportedTrain, hinstant]; rfl
    have hlegal : o.ReportLegal (s.dev.nextCall 0x0601 c q) := ⟨ht, hz, hzs, hv, fun hptp => hinstant ▸ hat hptp⟩
    refine ⟨fun hnew => ?_, fun y hy hlate => after_host_answers h (bodyTrainReport_superseded hlegal hy (hinstant ▸ hlate))⟩
    have hbody : bodyTrainReport o (s.dev.nextCall 0x0601 c q) =
        (d1, .final St.done (le 1 (d1.trackedConfidence (rd c.payload 0 1)) ++ le 1 0)) := bodyTrainReport_tracks hlegal hnew hx
    clear_value d1
    exact after_host_answers h hbody
  · intro t h hn ht hz
    exact after_host_answers h (bodyTrainDrop_closes hn ht hz)
  · rintro i h rfl hi hf hd1 hd2 hq1 hq2 hw1 hw2
    exact after_host_answers h (bodyWsenseConfig_sets ⟨hi, hf, ⟨hd1, hd2⟩, ⟨hq1, hq2⟩, hw1, hw2⟩)

/-! ### The rows of wall time (R87 to R89) -/

section
variable (s : State)

theorem exec_ptpSync (m : SyncMsg) :
    exec (.ptpSync m) s = .next (s.after (if s.dev.syncUsable m then s.dev.ptpSync m.offset else s.dev)) := rfl

/-- Holdover begun 4 s after `t`, the instant of the last usable Sync. -/
def Dev.enterHoldover (d : Dev) (t : Nat) : Dev :=
  let d1 := (d.advance (t + 4 * tickS)).setFld F.tbuPtpStat_pstate 2
  ({ d1 with tbu := { d1.tbu with holdoverFrom := some d1.now } } : Dev).event 0x0608 0 []

theorem exec_ptpHoldoverEnter_due {t : Nat} (hptp : s.dev.flag F.cpxReady1_ptp = true) (hstate : s.dev.fld F.tbuPtpStat_pstate ≠ 2)
    (ht : s.dev.tbu.lastSync = some t) : exec .ptpHoldoverEnter s = .next (s.after (s.dev.enterHoldover t)) := by
  show execPtpHoldoverEnter s = _
  simp only [execPtpHoldoverEnter, commit, hptp, hstate, ht, Bool.true_and, decide_true, ne_eq, not_false_eq_true, if_true, Option.getD_some]
  rfl

/-- Holdover that began at `t` over, and `ptp` cleared. -/
def Dev.endHoldover (d : Dev) (t : Nat) : Dev :=
  let d1 := ((d.advance (t + d.fld F.tbuPtpCtrl_holdover * tickS)).setFlag F.cpxReady1_ptp false).setFld F.tbuPtpStat_pstate 3
  ((({ d1 with tbu := { d1.tbu with holdoverFrom := none, goodSyncs := 0 } } : Dev).event 0x0609 0 []).raiseLevel 303).updateLevels

theorem exec_ptpHoldoverExpiry_due {t : Nat} (ht : s.dev.tbu.holdoverFrom = some t) :
    exec .ptpHoldoverExpiry s = .next (s.after (s.dev.endHoldover t)) := by
  show execPtpHoldoverExpiry s = _
  simp only [execPtpHoldoverExpiry, commit, ht]
  rfl

theorem exec_ptpHoldoverExpiry_undue (h : s.dev.tbu.holdoverFrom = none) : exec .ptpHoldoverExpiry s = .next (s.after s.dev) := by
  show execPtpHoldoverExpiry s = _
  simp only [execPtpHoldoverExpiry, commit, h]

/-! ### The rows of trains and marks (R94 to R98, R101) -/

theorem exec_wheelPulse {i : Nat} (hi : i < 8) : exec (.wheelPulse i) s = .next (s.after (s.dev.wheelPulse i)) :=
  commitIf_ok (decide_eq_true hi) _ s _

theorem exec_trainConfidenceFall_falls {t : Nat} {x : Train} (hi : t < 64) (hx : s.dev.train t = some x) (hlevel : x.level ≠ 0) :
    exec (.trainConfidenceFall t) s = .next (s.after (((s.dev.advance
      (s.dev.tickOfTai (x.tLast + (if x.level = 1 then 10000000001 else 2000000001))).toNat).fireAllDue).updateLevel t)) := by
  show execTrainConfidenceFall t s = _
  rw [execTrainConfidenceFall, commitIf_ok (decide_eq_true hi)]
  simp only [hx, if_neg hlevel]

theorem exec_markFire {i : Nat} (hi : i < 4096) :
    exec (.markFire i) s = .next (s.after (s.dev.markFires i (fun k => k = 1 || k = 2))) :=
  commitIf_ok (decide_eq_true hi) _ s _

theorem exec_angleMarkFire {i : Nat} (hi : i < 4096) : exec (.angleMarkFire i) s = .next (s.after (s.dev.markFires i (fun k => k = 3))) :=
  commitIf_ok (decide_eq_true hi) _ s _

section
variable {d : Dev} {i : Nat} {e : SchedEntry} {p : Nat → Bool} (he : aget d.tbu.sched i = some e)
include he

theorem Dev.markFires_waiting {t : Nat} (hstate : e.state = 1) (ht : e.predicted = some t) (hkind : p e.key.kind = true) :
    d.markFires i p = (d.advance t).fireAllDue := by
  simp only [Dev.markFires, he, hstate, ht, hkind, if_true]

theorem Dev.markFires_undue (h : e.state ≠ 1 ∨ e.predicted = none) : d.markFires i p = d := by
  simp only [Dev.markFires, he]
  split
  next t hstate ht =>
    rcases h with h | h
    · exact absurd hstate h
    · rw [ht] at h
      exact absurd h (by simp)
  next => rfl

end

/-! ### The rows of the catenary tracker (R107 to R109, R112, R486) -/

theorem exec_angleLock (angle freq amp : Nat) : exec (.angleLock angle freq amp) s = .next (s.after
    (if s.dev.trackerRuns && !s.dev.flag F.tbuCatStat_locked && inLockRange (s.dev.fld F.tbuCatCfg_system) freq && !s.dev.belowLoss amp
      then s.dev.lockAngle (angle % 2 ^ 32) freq amp else s.dev)) := rfl

/-- The catenary's voltage lost at the amplitude `amp` (R108). -/
def Dev.loseCatenary (d : Dev) (amp : Nat) : Dev :=
  (((((d.fireAllDue.setAmplitude amp).setFlag F.tbuCatStat_lost true).event 0x060A 0 (le 4 amp)).startFlywheel).raiseLevel 304).sstCatLost

theorem exec_catenaryLoss (amp : Nat) : exec (.catenaryLoss amp) s = .next (s.after
    (if s.dev.trackerRuns && !s.dev.flag F.tbuCatStat_lost && s.dev.belowLoss amp then s.dev.loseCatenary amp else s.dev)) := rfl

/-- The lock lost above the loss level, at the frequency `freq` (R486). -/
def Dev.loseLock (d : Dev) (freq : Nat) : Dev :=
  let d1 := d.fireAllDue
  (((d1.startFlywheel).setRegN R.tbuFreq freq).repredictAngle (d1.angleAt d1.now)).event 0x060E 0 (le 4 freq)

theorem exec_lossOfLock (freq : Nat) : exec (.lossOfLock freq) s = .next (s.after
    (if s.dev.flag F.tbuCatStat_locked && !inLockRange (s.dev.fld F.tbuCatCfg_system) freq &&
        !s.dev.belowLoss (s.dev.fld F.tbuCatStat_amplitude)
      then s.dev.loseLock freq else s.dev)) := rfl

/-- The flywheel that began at `t` over, `angle` cleared and the angle marks held (R109). -/
def Dev.endFlywheel (d : Dev) (t : Nat) : Dev :=
  let d1 := ((d.advance (t + d.fld F.tbuCatCfg_flyMax * (100 * tickMs))).fireAllDue).setFlag F.tbuCatStat_flywheel false
  let h := (d1.setFlag F.cpxReady1_angle false).holdEntries (fun e => e.key.kind = 3)
  (({ h.2 with tbu := { h.2.tbu with flywheelFrom := none } } : Dev).event 0x060D 0 (le 4 h.1)).raiseLevel 305

theorem exec_flywheelExpiry_due {t : Nat} (ht : s.dev.tbu.flywheelFrom = some t) :
    exec .flywheelExpiry s = .next (s.after (s.dev.endFlywheel t)) := by
  show execFlywheelExpiry s = _
  simp only [execFlywheelExpiry, commit, ht, Nat.mul_assoc]
  rfl

theorem exec_flywheelExpiry_undue (h : s.dev.tbu.flywheelFrom = none) : exec .flywheelExpiry s = .next (s.after s.dev) := by
  show execFlywheelExpiry s = _
  simp only [execFlywheelExpiry, commit, h]

theorem exec_catCfgWrite (v : Word) :
    exec (.catCfgWrite v) s = .next (s.after (if catCfgOk v then s.dev.writeCatCfg v else s.dev)) := rfl

end

/-- Settles O28: one equation for each row, and the branch that its condition takes. -/
theorem timeMarkAndCatenaryRowsTakeEffect : Obligations.TimeMarkAndCatenaryRowsTakeEffect := by
  refine ⟨fun s => ⟨fun m h => ?_, fun m h => ?_, fun t hptp hstate ht => exec_ptpHoldoverEnter_due s hptp hstate ht,
      fun t ht => exec_ptpHoldoverExpiry_due s ht, exec_ptpHoldoverExpiry_undue s, fun i hi => exec_wheelPulse s hi,
      fun t x hi hx hlevel => exec_trainConfidenceFall_falls s hi hx hlevel,
      fun i e t hi he hstate ht => ⟨fun hkind => ?_, fun hkind => ?_⟩, fun i e hi he h => ⟨?_, ?_⟩⟩,
    fun s => ⟨fun angle freq amp hruns hlocked hrange hamp => ?_, fun amp hruns hlost hamp => ?_, fun amp h => ?_,
      fun freq hlocked hrange hamp => ?_, fun freq h => ?_, fun t ht => exec_flywheelExpiry_due s ht, exec_flywheelExpiry_undue s,
      fun v h => ?_, fun v h => ?_⟩⟩
  · rw [exec_ptpSync, if_pos h]
  · rw [exec_ptpSync, if_neg (Bool.eq_false_iff.mp h)]
  · rw [exec_markFire s hi, Dev.markFires_waiting he hstate ht (by simpa using hkind)]
  · rw [exec_angleMarkFire s hi, Dev.markFires_waiting he hstate ht (by simpa using hkind)]
  · rw [exec_markFire s hi, Dev.markFires_undue he h]
  · rw [exec_angleMarkFire s hi, Dev.markFires_undue he h]
  · rw [exec_angleLock, if_pos (by simp [hruns, hlocked, hrange, hamp])]
  · rw [exec_catenaryLoss, if_pos (by simp [hruns, hlost, hamp])]
    rfl
  · rw [exec_catenaryLoss, if_neg (by rcases h with h | h | h <;> simp [h])]
  · rw [exec_lossOfLock, if_pos (by simp [hlocked, hrange, hamp])]
    rfl
  · rw [exec_lossOfLock, if_neg (by rcases h with h | h <;> simp [h])]
  · rw [exec_catCfgWrite, if_pos h]
  · rw [exec_catCfgWrite, if_neg (Bool.eq_false_iff.mp h)]

/-! ### The claims of an accepted move (R120, R384)

A claim stops the rakes of its elements (`Dev.stopCal`). The model grants no rake to a move (`grantRound`), and the stop of such a rake leaves the
pending moves as they are; but the statement asks nothing of the sluices, and in a device where a stalled rake names the move that is claimed, its
stop ends a transition of that move. -/

/-- A move that changes element 0 and has not begun. -/
def pendingMove : Move :=
  { oid := 1, owner := 1, tag := 0, opcode := 0x0202, keyKind := 0, fire := none, entry := none, klass := 1, order := 0, strict := false,
    late := false, refused := false, deferred := false, elems := [⟨0, 1, true, 0, 0, false, 0, false⟩], sets := [], clears := [], path := [],
    atts := [], dist := [], result := [], settled := 0, blank := [] }

/-- Sluice 0 stands stalled with a rake of element 0 that names move 1. -/
def rakeWithMove : Dev :=
  ({} : Dev).setSluice 0 { cur := some { el := 0, oid := some 1, klass := 2, desc := 0, startAt := 0, rake := true }, stalledAt := some 0 }

/-- Nothing planned. -/
def emptyWork : Work := ⟨[], [], [], [], [], [], [], [], [], []⟩

/-- The claimed element counts as played to its end. -/
theorem rakeWithMove_claim_phase :
    ((rakeWithMove.claimMove pendingMove emptyWork).rtp.moves.map (fun m => m.elems.map (fun x => x.phase))) = [[3]] := by
  decide +kernel

/-- Refutes O16: in `rakeWithMove` the claim of `pendingMove` does not enter the move as it is, for the stop of the rake ends its transition. -/
theorem not_acceptedMoveClaimsItsPlan : ¬ Obligations.AcceptedMoveClaimsItsPlan := by
  intro h
  have hlinks : ∀ l ∈ ({} : Dev).planLinks ⟨[], [], [], 0, 0⟩ [], ({} : Dev).linkReady l = true := fun _ hl => absurd hl List.not_mem_nil
  obtain ⟨-, -, hentered, -, -⟩ := h {} (({} : Dev).bump R.rtpPlanCount) rakeWithMove ⟨1, 1, ⟨0x0202, bareEcho⟩, none⟩ ⟨0, 0, 0, 0, 0⟩
    emptyWork ⟨[], [], [], 0, 0⟩ [] [] hlinks rfl
  have hphase := rakeWithMove_claim_phase
  rw [hentered pendingMove] at hphase
  exact absurd hphase (by decide)

end Sys2Proof.Machine

/-! The proofs of the family 05_fabric_and_routes: the link of an element (O55), the commands of circuits, maps, ports and moves (O17 to O19), and the
rows of the sluices and ports (O46). -/

namespace Sys2Proof.Machine

/-! ### The link of an element (R113) -/

theorem linkOf_drive {e : Nat} (h : e < 6144) : linkOf e = e / 192 := if_pos h

theorem linkOf_tap {m : Nat} (h : 6144 ≤ m) : linkOf m = (m - 6144) / 32 := if_neg (Nat.not_lt.mpr h)

/-- Settles O55: below 6144 an ID lies among the drive elements, from there on among the taps. -/
theorem elementIdNamesItsLink : Obligations.ElementIdNamesItsLink := by
  refine ⟨fun e he => ?_, fun m hlo hhi => ?_, fun l hl ch hch => ?_, fun l hl t ht => ?_⟩
  · rw [linkOf_drive he]
    omega
  · rw [linkOf_tap hlo]
    omega
  · rw [linkOf_drive (by omega)]
    omega
  · rw [linkOf_tap (by omega)]
    omega

/-! ### CIRCUIT_SET, CIRCUIT_CLEAR and CIRCUIT_BATCH (R128, R130, R131) -/

/-- A command whose function accepts where no twin follows: the function acts on the device that has given ACCEPTED. -/
theorem after_host_accepts {s : State} {op : BitVec 16} {c : Cmd} {q : Nat} {d2 : Dev} {res : Bytes} (h : Starts s.dev op c q)
    (hp : s.dev.pairedActive = false)
    (hacc : (functionOf op.toNat (s.dev.opened op c q) (s.dev.nextCall op c q)).2 = .accepted res)
    (heff : (functionOf op.toNat ((s.dev.opened op c q).interim op c q res) (s.dev.nextCall op c q)).1 = d2) :
    (.next (s.after (s.dev.host op c)) : Host.Outcome State Fault Refusal) = .next (s.after (d2.goesOn q)) := by
  obtain ⟨x, hx⟩ := (s.dev.opened op c q).interim_eq op c q res
  have hosafe : ((s.dev.opened op c q).interim op c q res).flag F.fltState_osafe = s.dev.flag F.fltState_osafe := by
    rw [hx]
    exact congrArg (fun w => decide (fieldOf F.fltState_osafe w ≠ 0)) (s.dev.opened_flag_twn op c q R.fltState (by decide) (by decide))
  have hbody : bodyOf op.toNat ((s.dev.opened op c q).interim op c q res) (s.dev.nextCall op c q) =
      functionOf op.toNat ((s.dev.opened op c q).interim op c q res) (s.dev.nextCall op c q) :=
    bodyOf_permitted _ _ _ (by rw [hosafe]; exact h.permitted)
  rw [host_begins s.dev op c q h (.inl hp) res (by rw [bodyOf_starts s.dev op c q h, hacc]), hbody, heff]

section
variable {d : Dev} {c : Call} {w : Work} {id n : Nat} {p : Plan} {ids outs : List Nat}

/-- A CIRCUIT_SET that is legal and plans as `w` and `p`, for the circuit `id`. -/
structure Dev.SetPlans (d : Dev) (c : Call) (w : Work) (id : Nat) (p : Plan) : Prop where
  idle : d.rtp.loading = none
  flags : rd c.packet.cmd.payload 6 1 < 2
  zeros : rd c.packet.cmd.payload 7 9 = 0
  planned : d.planSet d.planStart 0 (rd c.packet.cmd.payload 0 2) (rd c.packet.cmd.payload 2 2) (rd c.packet.cmd.payload 4 2) = .ok (w, id)
  finished : d.planFinish (bit (rd c.packet.cmd.payload 6 1) 0) w = .ok p

/-- A CIRCUIT_CLEAR of one circuit that is legal and plans as `w` and `p`. -/
structure Dev.ClearPlans (d : Dev) (c : Call) (w : Work) (p : Plan) : Prop where
  idle : d.rtp.loading = none
  zeros : rd c.packet.cmd.payload 2 14 = 0
  one : rd c.packet.cmd.payload 0 2 ≠ 0xFFFF
  planned : d.planClear d.planStart 0 (rd c.packet.cmd.payload 0 2) = .ok w
  finished : d.planFinish false w = .ok p

/-- A CIRCUIT_BATCH of `n` entries that is legal and plans as `w` and `p`, for the circuits `ids` and the output ports `outs`. -/
structure Dev.BatchPlans (d : Dev) (c : Call) (n : Nat) (w : Work) (ids outs : List Nat) (p : Plan) : Prop where
  idle : d.rtp.loading = none
  count : rd c.packet.cmd.payload 32 1 = n
  least : 1 ≤ n
  most : n ≤ 60
  length : c.packet.cmd.payload.length = 48 + 16 * n
  flags : rd c.packet.cmd.payload 33 1 < 2
  zeros : rd c.packet.cmd.payload 34 14 = 0
  planned : d.planBatch c.packet.cmd.payload (List.range n) d.planStart [] [] = .ok (w, ids, outs)
  finished : d.planFinish (bit (rd c.packet.cmd.payload 33 1) 0) w = .ok p

/-- A plan looks at nothing of the command processor's own state. -/
theorem Dev.SetPlans.withCpx (h : d.SetPlans c w id p) (x : Cpx) : ({ d with cpx := x } : Dev).SetPlans c w id p :=
  ⟨h.idle, h.flags, h.zeros, h.planned, h.finished⟩

theorem Dev.ClearPlans.withCpx (h : d.ClearPlans c w p) (x : Cpx) : ({ d with cpx := x } : Dev).ClearPlans c w p :=
  ⟨h.idle, h.zeros, h.one, h.planned, h.finished⟩

theorem Dev.planBatch_withCpx (d : Dev) (x : Cpx) (b : Bytes) (l : List Nat) (w : Work) (ids outs : List Nat) :
    ({ d with cpx := x } : Dev).planBatch b l w ids outs = d.planBatch b l w ids outs := by
  induction l generalizing w ids outs with
  | nil => rfl
  | cons k r ih =>
    have hentry : ({ d with cpx := x } : Dev).planEntry b w k = d.planEntry b w k := rfl
    simp only [Dev.planBatch, hentry, ih]

theorem Dev.BatchPlans.withCpx (h : d.BatchPlans c n w ids outs p) (x : Cpx) : ({ d with cpx := x } : Dev).BatchPlans c n w ids outs p :=
  ⟨h.idle, h.count, h.least, h.most, h.length, h.flags, h.zeros, (d.planBatch_withCpx x _ _ _ _ _).trans h.planned, h.finished⟩

theorem bodyCircuitSet_accepts (h : d.SetPlans c w id p) (hreal : flagCheckOnly c.packet.cmd.flags = false) :
    bodyCircuitSet d c =
      d.acceptMove c (keyAt c.packet.cmd.payload 16) w p [rd c.packet.cmd.payload 2 2] (circuitResult id p) := by
  have hlegal : ¬ (2 ≤ rd c.packet.cmd.payload 6 1 ∨ rd c.packet.cmd.payload 7 9 ≠ 0) := by
    simp [h.flags, h.zeros]
  simp only [bodyCircuitSet, if_neg hlegal, h.idle, h.planned, h.finished, hreal, Option.isSome_none, Bool.false_and, Bool.false_eq_true,
    if_false]

theorem bodyCircuitClear_accepts (h : d.ClearPlans c w p) :
    bodyCircuitClear d c =
      d.acceptMove c (keyAt c.packet.cmd.payload 16) w p [] (circuitResult (rd c.packet.cmd.payload 0 2) p) := by
  simp only [bodyCircuitClear, h.zeros, h.one, h.idle, h.planned, h.finished, ne_eq, not_true_eq_false, Option.isSome_none,
    Bool.false_eq_true, if_false]

/-- CIRCUIT_CLEAR of 0xFFFF releases every adopted element. -/
theorem bodyCircuitClear_releases (hz : rd c.packet.cmd.payload 2 14 = 0) (hall : rd c.packet.cmd.payload 0 2 = 0xFFFF) :
    bodyCircuitClear d c =
      (d.releaseAllAdopted.2.finish c.oid St.done (circuitResult 0xFFFF ⟨[], [], [], d.releaseAllAdopted.1, 0⟩),
        .accepted (circuitResult 0xFFFF ⟨[], [], [], d.releaseAllAdopted.1, 0⟩)) := by
  simp only [bodyCircuitClear, hz, hall, ne_eq, not_true_eq_false, if_false, if_true]

theorem bodyCircuitBatch_accepts (h : d.BatchPlans c n w ids outs p) (hreal : flagCheckOnly c.packet.cmd.flags = false) :
    bodyCircuitBatch d c = d.acceptMove c (keyAt c.packet.cmd.payload 16) w p outs
      (le 2 n ++ le 2 p.dist.length ++ le 2 p.demand ++ le 2 p.waves ++ ids.flatMap (le 2) ++ p.dist.flatMap (le 2)) := by
  have hlegal : ¬ (n = 0 ∨ 60 < n ∨ c.packet.cmd.payload.length ≠ 48 + 16 * n ∨ 2 ≤ rd c.packet.cmd.payload 33 1 ∨
      rd c.packet.cmd.payload 34 14 ≠ 0) := by
    obtain ⟨-, -, h1, h60, hlen, hflags, hz, -, -⟩ := h
    omega
  simp only [bodyCircuitBatch, h.count, if_neg hlegal, h.idle, h.planned, h.finished, hreal, Option.isSome_none, Bool.false_and,
    Bool.false_eq_true, if_false, List.map_id']

end

/-- Settles O17: the plan comes out the same before and after ACCEPTED, which changes the command processor's state alone. -/
theorem circuitCommandsPlanAndAccept : Obligations.CircuitCommandsPlanAndAccept := by
  refine fun s c q hpair => ⟨?_, ?_, ?_, ?_⟩
  · intro w id p h a k result hidle hflags hz hset hfinish hacc
    obtain ⟨x, hx⟩ := a.interim_eq 0x0202 c q result
    have hplans : a.SetPlans k w id p := ⟨hidle, hflags, hz, hset, hfinish⟩
    have hagain : (a.interim 0x0202 c q result).SetPlans k w id p := hx ▸ hplans.withCpx x
    exact after_host_accepts h hpair ((congrArg Prod.snd (bodyCircuitSet_accepts hplans h.real)).trans hacc)
      (congrArg Prod.fst (bodyCircuitSet_accepts hagain h.real))
  · intro w p h a k result hidle hz hone hclear hfinish hacc
    obtain ⟨x, hx⟩ := a.interim_eq 0x0203 c q result
    have hplans : a.ClearPlans k w p := ⟨hidle, hz, hone, hclear, hfinish⟩
    have hagain : (a.interim 0x0203 c q result).ClearPlans k w p := hx ▸ hplans.withCpx x
    exact after_host_accepts h hpair ((congrArg Prod.snd (bodyCircuitClear_accepts hplans)).trans hacc)
      (congrArg Prod.fst (bodyCircuitClear_accepts hagain))
  · intro h a result o hz hall
    exact after_host_accepts h hpair (congrArg Prod.snd (bodyCircuitClear_releases hz hall))
      (congrArg Prod.fst (bodyCircuitClear_releases hz hall))
  · intro w ids outs p n h a k result hidle hcount h1 h60 hlen hflags hz hbatch hfinish hacc
    obtain ⟨x, hx⟩ := a.interim_eq 0x0206 c q result
    have hplans : a.BatchPlans k n w ids outs p := ⟨hidle, hcount, h1, h60, hlen, hflags, hz, hbatch, hfinish⟩
    have hagain : (a.interim 0x0206 c q result).BatchPlans k n w ids outs p := hx ▸ hplans.withCpx x
    exact after_host_accepts h hpair ((congrArg Prod.snd (bodyCircuitBatch_accepts hplans h.real)).trans hacc)
      (congrArg Prod.fst (bodyCircuitBatch_accepts hagain h.real))

/-! ### MAP_LOAD (R115 to R118) -/

/-- A MAP_LOAD of the map `m` that nothing stands in the way of. -/
structure Dev.MapLoads (d : Dev) (c : Call) (key : Nat) (m : FabricMap) : Prop where
  aligned : rd c.packet.cmd.payload 0 8 % 8 = 0
  zeros : rd c.packet.cmd.payload 12 4 = 0
  circuits : d.rtp.circuits = []
  moves : d.rtp.moves = []
  idle : d.rtp.loading = none
  owner : d.hst.ownerKey = some key
  signed : Config.ecdsaVerify key (fitBytes (rd c.packet.cmd.payload 8 4) c.packet.cmd.image) ((c.packet.cmd.payload.drop 16).take 96) = true
  checked : checkMap (fitBytes (rd c.packet.cmd.payload 8 4) c.packet.cmd.image) (rd c.packet.cmd.payload 8 4) = (0, m)

/-- The device with the map `m` noted as loading for the command `oid`, and every adopted element released. -/
def Dev.startLoading (d : Dev) (oid : Nat) (m : FabricMap) : Dev :=
  let d1 := (d.setFlag F.rtpMapStat_loading true).releaseAllAdopted.2
  { d1 with rtp := { d1.rtp with loading := some (oid, m) } }

/-- Nothing of the command processor's own state stands in the way of a map. -/
theorem Dev.mapLoads_withCpx (d : Dev) (x : Cpx) (c : Call) (key : Nat) (m : FabricMap) :
    ({ d with cpx := x } : Dev).MapLoads c key m ↔ d.MapLoads c key m :=
  ⟨fun h => ⟨h.aligned, h.zeros, h.circuits, h.moves, h.idle, h.owner, h.signed, h.checked⟩,
    fun h => ⟨h.aligned, h.zeros, h.circuits, h.moves, h.idle, h.owner, h.signed, h.checked⟩⟩

theorem bodyMapLoad_accepts {d : Dev} {c : Call} {key : Nat} {m : FabricMap} (h : d.MapLoads c key m) :
    bodyMapLoad d c = (d.startLoading c.oid m, .accepted []) := by
  obtain ⟨haligned, hz, hcircuits, hmoves, hidle, howner, hsigned, hchecked⟩ := h
  simp only [bodyMapLoad, haligned, hz, hcircuits, hmoves, hidle, howner, hsigned, hchecked, ne_eq, not_true_eq_false, or_self,
    Option.isSome_none, Bool.not_true, Bool.false_eq_true, if_false]
  rfl

/-- The map that was loading is installed at the next strobe, and its command answered (R117). -/
theorem exec_mapLoadComplete_loading {s : State} {oid : Nat} {m : FabricMap} (h : s.dev.rtp.loading = some (oid, m)) :
    let d1 := (((s.dev.advance (s.dev.strobeFrom s.dev.now)).setFlag F.rtpMapStat_loading false).installMap m).bindMap
    exec .mapLoadComplete s = .next (s.after
      (({ d1 with rtp := { d1.rtp with loading := none } } : Dev).finish oid St.done (mapResult m 0))) := by
  show execMapLoadComplete s = _
  simp only [execMapLoadComplete, commit, h]

theorem exec_mapLoadComplete_idle {s : State} (h : s.dev.rtp.loading = none) : exec .mapLoadComplete s = .next (s.after s.dev) := by
  show execMapLoadComplete s = _
  simp only [execMapLoadComplete, commit, h]

/-- Settles O18: the function accepts before and after ACCEPTED has been given, and the row of the boundary has one equation for each case. -/
theorem mapLoadInstallsCheckedMap : Obligations.MapLoadInstallsCheckedMap := by
  refine ⟨?_, fun _ _ _ => exec_mapLoadComplete_loading, fun _ => exec_mapLoadComplete_idle⟩
  intro s c q key m hpair h o img haligned hz hcircuits hmoves hidle howner hsigned hchecked
  obtain ⟨x, hx⟩ := (s.dev.opened 0x0201 c q).interim_eq 0x0201 c q []
  have hloads : o.MapLoads (s.dev.nextCall 0x0201 c q) key m := ⟨haligned, hz, hcircuits, hmoves, hidle, howner, hsigned, hchecked⟩
  have hbefore : (s.dev.opened 0x0201 c q).MapLoads (s.dev.nextCall 0x0201 c q) key m :=
    (Dev.mapLoads_withCpx _ x _ _ _).mp (hx ▸ hloads)
  exact after_host_accepts h hpair (congrArg Prod.snd (bodyMapLoad_accepts hbefore)) (congrArg Prod.fst (bodyMapLoad_accepts hloads))

/-! ### PORT_CEILING (R135) -/

section
variable {d : Dev} {c : Call}

/-- A PORT_CEILING that is legal (Table 5-14), with its `unblank` as `un`. -/
structure Dev.CeilingLegal (d : Dev) (c : Call) (un : Bool) : Prop where
  port : rd c.packet.cmd.payload 0 2 < d.rtp.map.ports
  flags : rd c.packet.cmd.payload 4 1 = b2n un
  zeros : rd c.packet.cmd.payload 5 3 = 0

/-- The ceiling that a PORT_CEILING names. -/
def Call.ceiling (c : Call) : Int := signed 16 (rd c.packet.cmd.payload 2 2)

/-- The `ceil_max` of the port that it names. -/
def Dev.ceilMaxFor (d : Dev) (c : Call) : Int := signed 16 (d.fld (F.rtpCeiling_ceilMax (rd c.packet.cmd.payload 0 2)))

/-- The VOA of the port can be commanded, and no map is loading (R135). -/
structure Dev.CanUnblank (d : Dev) (c : Call) : Prop where
  ready : d.linkReady (linkOf (d.voaOf (rd c.packet.cmd.payload 0 2))) = true
  idle : d.rtp.loading = none

/-- The order of the checks of a legal PORT_CEILING. -/
theorem bodyPortCeiling_legal {un : Bool} (h : d.CeilingLegal c un) :
    let p := rd c.packet.cmd.payload 0 2
    bodyPortCeiling d c =
      if un ∧ !d.linkReady (linkOf (d.voaOf p)) then (d, .final St.notReady [])
      else if un ∧ d.rtp.loading.isSome then rtpRefuse d St.conflict
      else if d.ceilMaxFor c < c.ceiling then rtpRefuse d St.refused
      else if un ∧ !d.portBlanked p then rtpRefuse d St.conflict
      else if un ∧ c.ceiling + (d.rtp.map.tripMargin : Int) < d.outReading p then rtpRefuse d St.refused
      else (if un then (d.nextCeiling p (rd c.packet.cmd.payload 2 2)).unblank p else d.nextCeiling p (rd c.packet.cmd.payload 2 2),
        .final St.done []) := by
  obtain ⟨hport, hflags, hz⟩ := h
  have hlegal : ¬ (d.rtp.map.ports ≤ rd c.packet.cmd.payload 0 2 ∨ 2 ≤ b2n un ∨ rd c.packet.cmd.payload 5 3 ≠ 0) := by
    have hone : b2n un < 2 := by cases un <;> decide
    omega
  have hun : bit (b2n un) 0 = un := by cases un <;> rfl
  simp only [bodyPortCeiling, hflags, if_neg hlegal, hun]
  rfl

/-- A conflict is counted (R135). -/
theorem rtpRefuse_conflict (d : Dev) : rtpRefuse d St.conflict = (d.bump R.rtpConflCount, .final St.conflict []) := rfl

theorem rtpRefuse_refused (d : Dev) : rtpRefuse d St.refused = (d, .final St.refused []) := rfl

theorem bodyPortCeiling_sets (h : d.CeilingLegal c false) (hmax : c.ceiling ≤ d.ceilMaxFor c) :
    bodyPortCeiling d c = (d.nextCeiling (rd c.packet.cmd.payload 0 2) (rd c.packet.cmd.payload 2 2), .final St.done []) := by
  simp [bodyPortCeiling_legal h, Int.not_lt.mpr hmax]

theorem bodyPortCeiling_aboveMax (h : d.CeilingLegal c false) (hmax : d.ceilMaxFor c < c.ceiling) :
    bodyPortCeiling d c = (d, .final St.refused []) := by
  simp [bodyPortCeiling_legal h, hmax, rtpRefuse_refused]

theorem bodyPortCeiling_unblanks (h : d.CeilingLegal c true) (hcan : d.CanUnblank c) (hmax : c.ceiling ≤ d.ceilMaxFor c)
    (hblank : d.portBlanked (rd c.packet.cmd.payload 0 2) = true)
    (hlow : d.outReading (rd c.packet.cmd.payload 0 2) ≤ c.ceiling + (d.rtp.map.tripMargin : Int)) :
    bodyPortCeiling d c = ((d.nextCeiling (rd c.packet.cmd.payload 0 2) (rd c.packet.cmd.payload 2 2)).unblank (rd c.packet.cmd.payload 0 2),
      .final St.done []) := by
  simp [bodyPortCeiling_legal h, hcan.ready, hcan.idle, Int.not_lt.mpr hmax, hblank, Int.not_lt.mpr hlow]

theorem bodyPortCeiling_aboveReading (h : d.CeilingLegal c true) (hcan : d.CanUnblank c) (hmax : c.ceiling ≤ d.ceilMaxFor c)
    (hblank : d.portBlanked (rd c.packet.cmd.payload 0 2) = true)
    (hhigh : c.ceiling + (d.rtp.map.tripMargin : Int) < d.outReading (rd c.packet.cmd.payload 0 2)) :
    bodyPortCeiling d c = (d, .final St.refused []) := by
  simp [bodyPortCeiling_legal h, hcan.ready, hcan.idle, Int.not_lt.mpr hmax, hblank, hhigh, rtpRefuse_refused]

theorem bodyPortCeiling_notBlanked (h : d.CeilingLegal c true) (hcan : d.CanUnblank c) (hmax : c.ceiling ≤ d.ceilMaxFor c)
    (hblank : d.portBlanked (rd c.packet.cmd.payload 0 2) = false) :
    bodyPortCeiling d c = (d.bump R.rtpConflCount, .final St.conflict []) := by
  simp [bodyPortCeiling_legal h, hcan.ready, hcan.idle, Int.not_lt.mpr hmax, hblank, rtpRefuse_conflict]

/-! ### MOVE_CANCEL (R485) -/

/-- The move that a MOVE_CANCEL names. -/
def Dev.cancelledMove (d : Dev) (c : Call) : Option Move :=
  d.rtp.moves.find? (fun m => m.owner = c.owner && m.tag = rd c.packet.cmd.payload 0 4)

theorem bodyMoveCancel_notes {m : Move} (h : d.cancelledMove c = some m) (hwaits : ∀ x ∈ m.elems, x.started = false) :
    bodyMoveCancel d c = (d.noted (.cancel m.oid), .final St.done []) := by
  rw [Dev.cancelledMove] at h
  have hany : m.elems.any (fun x => x.started) = false := List.any_eq_false.mpr fun x hx => Bool.eq_false_iff.mp (hwaits x hx)
  simp only [bodyMoveCancel, h, hany, Bool.false_eq_true, if_false]
  rfl

theorem bodyMoveCancel_started {m : Move} {x : MoveElem} (h : d.cancelledMove c = some m) (hx : x ∈ m.elems) (hstarted : x.started = true) :
    bodyMoveCancel d c = (d.bump R.rtpConflCount, .final St.conflict []) := by
  rw [Dev.cancelledMove] at h
  have hany : m.elems.any (fun x => x.started) = true := List.any_eq_true.mpr ⟨x, hx, hstarted⟩
  simp only [bodyMoveCancel, h, hany, if_true, rtpRefuse_conflict]

theorem bodyMoveCancel_none (h : d.cancelledMove c = none) : bodyMoveCancel d c = (d, .final St.badParam []) := by
  rw [Dev.cancelledMove] at h
  simp only [bodyMoveCancel, h, refuse]

end

/-- Settles O19: each row is `Dev.host` with the answer of its function. -/
theorem portCeilingAndMoveCancelTakeEffect : Obligations.PortCeilingAndMoveCancelTakeEffect := by
  refine ⟨?_, ?_⟩
  · rintro s c q _ _ h rfl rfl - hz o oid d1 max hport
    have hlegal : ∀ un, rd c.payload 4 1 = b2n un → o.CeilingLegal (s.dev.nextCall 0x0205 c q) un := fun _ hun => ⟨hport, hun, hz⟩
    refine ⟨fun hmax hun => after_host_answers h (bodyPortCeiling_sets (hlegal false hun) hmax),
      fun hmax hun => after_host_answers h (bodyPortCeiling_aboveMax (hlegal false hun) hmax), fun hun hready hidle hmax => ?_⟩
    have hcan : o.CanUnblank (s.dev.nextCall 0x0205 c q) := ⟨hready, hidle⟩
    exact ⟨fun hblank hlow => after_host_answers h (bodyPortCeiling_unblanks (hlegal true hun) hcan hmax hblank hlow),
      fun hblank hhigh => after_host_answers h (bodyPortCeiling_aboveReading (hlegal true hun) hcan hmax hblank hhigh),
      fun hblank => after_host_answers h (bodyPortCeiling_notBlanked (hlegal true hun) hcan hmax hblank)⟩
  · intro s c q h o oid found
    exact ⟨fun m hm hwaits => after_host_answers h (bodyMoveCancel_notes hm hwaits),
      fun m x hm hx hstarted => after_host_answers h (bodyMoveCancel_started hm hx hstarted),
      fun hnone => after_host_answers h (bodyMoveCancel_none hnone)⟩

/-! ### The rows of the transition engine (R144 to R146, R149 to R155, R160) -/

section
variable (s : State)

theorem exec_trnDisable : exec .trnDisable s = .next (s.after (if s.dev.flag F.trnCtrl_en then s.dev.trnOff else s.dev)) := rfl

theorem exec_trnEnable : exec .trnEnable s = .next (s.after (if s.dev.flag F.trnCtrl_en then s.dev else s.dev.trnOn)) := rfl

theorem okSluice_of_lt {k : Nat} (hk : k < 64) : okSluice k = true := decide_eq_true hk

theorem exec_sluiceStart {k : Nat} (hk : k < 64) : exec (.sluiceStart k) s = .next (s.after (s.dev.startSluice k)) :=
  commitIf_ok (okSluice_of_lt hk) _ s _

theorem exec_segmentEnd {k : Nat} (hk : k < 64) (jump : Option Nat) :
    exec (.segmentEnd ⟨k, jump⟩) s = .next (s.after (s.dev.segmentEnd k jump)) :=
  commitIf_ok (okSluice_of_lt hk) _ s _

theorem exec_segmentWrite (w : SegWrite) : exec (.segmentWrite w) s = .next (s.after (s.dev.segmentWrite w)) := rfl

theorem exec_sluiceRearmEnd {k : Nat} (hk : k < 64) :
    exec (.sluiceRearmEnd k) s = .next (s.after (if s.dev.fld (F.trnSlState_state k) = 1 then
      ((s.dev.advance (s.dev.sluice k).freeAt).showSluice k (if (s.dev.sluice k).next.isSome then 2 else 0)).updateTrnDrained else s.dev)) :=
  commitIf_ok (okSluice_of_lt hk) _ s _

/-- A sluice that is in play, or has no grant, starts nothing (R145). -/
theorem Dev.startSluice_idle {d : Dev} {k : Nat} (h : (d.sluice k).cur ≠ none ∨ (d.sluice k).next = none) : d.startSluice k = d := by
  unfold Dev.startSluice
  dsimp only
  split
  next hcur hnext =>
    rcases h with h | h
    · exact absurd hcur h
    · exact absurd (hnext.symm.trans h) (by simp)
  next => rfl

/-! Stalls (R152, R153) -/

theorem exec_stallAbandon_stalled {k t : Nat} {g : Grant} (hk : k < 64) (ht : (s.dev.sluice k).stalledAt = some t)
    (hg : (s.dev.sluice k).cur = some g) :
    exec (.stallAbandon k) s = .next (s.after (if g.oid.isSome then
      (((s.dev.advance (t + 4 * tickUs)).abandonTransition k).raise 309).recheckCalendar else s.dev)) := by
  show execStallAbandon k s = _
  rw [execStallAbandon, commitIf_ok (okSluice_of_lt hk)]
  simp only [ht, hg]

theorem exec_stallAbandon_idle {k : Nat} (hk : k < 64) (h : (s.dev.sluice k).stalledAt = none ∨ (s.dev.sluice k).cur = none) :
    exec (.stallAbandon k) s = .next (s.after s.dev) := by
  show execStallAbandon k s = _
  rw [execStallAbandon, commitIf_ok (okSluice_of_lt hk)]
  dsimp only
  split
  next ht hg =>
    rcases h with h | h
    · exact absurd (ht.symm.trans h) (by simp)
    · exact absurd (hg.symm.trans h) (by simp)
  next => rfl

/-! The end of a segment (R146, R149, R150) -/

/-- The device at the end of the pass of sluice `k`, a jump registered where one came. -/
def Dev.passReached (d : Dev) (k : Nat) (jump : Option Nat) : Dev :=
  match jump with
  | some n => (d.advance (d.passEnd k)).registerJump k (d.passEnd k - n * tickSample)
  | none => d.advance (d.passEnd k)

/-- The same with the last code of the pass noted. -/
def Dev.passEnded (d : Dev) (k : Nat) (jump : Option Nat) : Dev :=
  (d.passReached k jump).setSluice k { (d.passReached k jump).sluice k with lastCode := (d.passReached k jump).lastCode k }

theorem Dev.segmentEnd_idle {d : Dev} {k : Nat} (jump : Option Nat)
    (h : (d.sluice k).cur = none ∨ d.segDesc (d.sluice k).desc = none ∨ (d.sluice k).stalledAt ≠ none) : d.segmentEnd k jump = d := by
  unfold Dev.segmentEnd
  dsimp only
  split
  next g y hcur hdesc =>
    have hstalled : (d.sluice k).stalledAt ≠ none := by simpa [hcur, hdesc] using h
    rw [if_pos (Option.isSome_iff_ne_none.mpr hstalled)]
  next => rfl

/-- A stop ends the transition, with the code that it names or else the last one played. -/
theorem Dev.segmentEnd_playing {d : Dev} {k : Nat} {g : Grant} {y : SegDesc} (jump : Option Nat) (hcur : (d.sluice k).cur = some g)
    (hdesc : d.segDesc (d.sluice k).desc = some y) (hrun : (d.sluice k).stalledAt = none) :
    d.segmentEnd k jump = if (d.sluice k).stop then
        (d.passEnded k jump).endTransition k ((d.sluice k).stopCode.getD ((d.passReached k jump).lastCode k))
      else (d.passEnded k jump).afterSegment k g.el ((d.passReached k jump).lastCode k) y := by
  simp only [Dev.segmentEnd, hcur, hdesc, hrun, Option.isSome_none, Bool.false_eq_true, if_false]
  rfl

/-- What follows a segment without a jump. -/
theorem Dev.afterSegment_noJump {d : Dev} {k : Nat} (el code : Nat) (y : SegDesc) (h : (d.sluice k).jump = none) :
    d.afterSegment k el code y = if y.rep = 255 ∨ (d.sluice k).passes < y.rep then
        d.playFrom k (d.sluice k).desc d.now ((d.sluice k).passes + 1)
      else if y.last then d.endTransition k code else d.goTo k y.next code := by
  simp only [Dev.afterSegment, h, Bool.or_eq_true, decide_eq_true_eq]

/-! Writes to the shaping store (R142, R144, R151) -/

theorem Dev.segmentWrite_noContent {d : Dev} {w : SegWrite} (h : d.segContent w = none) :
    d.segmentWrite w = d.bumpSat F.trnWrRefused_segLen := by
  simp only [Dev.segmentWrite, h]

section
variable {d : Dev} {w : SegWrite} {tag : SegTag} {rep jump : Nat} {last : Bool} {samples : List Nat}
  (h : d.segContent w = some (tag, rep, jump, last, samples))
include h

/-- The segment put in the store; what stands before it resumes once it is complete. -/
theorem Dev.segmentWrite_placed (hst : d.segStatus w tag ((samples.length + 7) / 8) = 0) :
    let d1 := (d.putSegment w.desc { base := w.base, len := (samples.length + 7) / 8, rep := rep, next := w.next, jump := jump, last := last,
                                     complete := w.complete, tag := tag } samples).noteSweep w
    d.segmentWrite w = if w.complete then d1.resumeSluices w.desc else d1 := by
  simp [Dev.segmentWrite, h, hst]

theorem Dev.segmentWrite_active (hst : d.segStatus w tag ((samples.length + 7) / 8) = 1) :
    d.segmentWrite w = d.bumpSat F.trnWrRefused_segActive := by
  simp [Dev.segmentWrite, h, hst]

/-- Whatever else stands in the way of a write is counted as a wrong length. -/
theorem Dev.segmentWrite_badLength (h0 : d.segStatus w tag ((samples.length + 7) / 8) ≠ 0)
    (h1 : d.segStatus w tag ((samples.length + 7) / 8) ≠ 1) (h3 : d.segStatus w tag ((samples.length + 7) / 8) ≠ 3) :
    d.segmentWrite w = d.bumpSat F.trnWrRefused_segLen := by
  simp only [Dev.segmentWrite, h, h3, decide_false, Bool.false_and, Bool.false_eq_true, if_false]

end

/-! ### The row of the ports (R133, R134) -/

theorem exec_ceilingTrip_port {p : Nat} {r : MapPort} (hp : p < 512) (hr : s.dev.rtp.map.port p = some r) :
    exec (.ceilingTrip p) s = .next (s.after
      (if s.dev.linkReady (linkOf r.outTap) && decide (4 ≤ s.dev.framesOver p) && !s.dev.portBlanked p then
        (s.dev.blankPort p (s.dev.outReading p)).raiseLevel 297 else s.dev)) := by
  show execCeilingTrip p s = _
  rw [execCeilingTrip, commitIf_ok (decide_eq_true hp)]
  simp only [hr]

theorem exec_ceilingTrip_noPort {p : Nat} (hp : p < 512) (hr : s.dev.rtp.map.port p = none) :
    exec (.ceilingTrip p) s = .next (s.after s.dev) := by
  show execCeilingTrip p s = _
  rw [execCeilingTrip, commitIf_ok (decide_eq_true hp)]
  simp only [hr]

/-- The condition of CEILING_TRIP (R133). -/
theorem ceilingTrips_iff {d : Dev} {p : Nat} {r : MapPort} :
    (d.linkReady (linkOf r.outTap) && decide (4 ≤ d.framesOver p) && !d.portBlanked p) = true ↔
      d.portBlanked p = false ∧ d.linkReady (linkOf r.outTap) = true ∧ 4 ≤ d.framesOver p := by
  rw [Bool.and_eq_true, Bool.and_eq_true, Bool.not_eq_true', decide_eq_true_eq, and_comm]

end

/-- Settles O46: one equation for each row, and the branch that its condition takes. -/
theorem sluiceAndPortRowsTakeEffect : Obligations.SluiceAndPortRowsTakeEffect := by
  intro s k hk x
  refine ⟨fun hen => ?_, fun hen => ?_, fun _ => rfl, rfl, exec_sluiceStart s hk, Dev.startSluice_idle, fun jump h => ?_,
    ?_, fun w => ⟨fun h => ?_, ?_⟩, fun h => ?_,
    fun h => ?_, fun t g ht hg => ⟨fun ho => ?_, fun ho => ?_⟩, exec_stallAbandon_idle s hk,
    fun p hp => ⟨fun r hr => ⟨fun h => ?_, fun h => ?_⟩, exec_ceilingTrip_noPort s hp⟩⟩
  · simp only [exec_trnDisable, exec_trnEnable, hen, if_true, and_self]
  · simp only [exec_trnDisable, exec_trnEnable, hen, Bool.false_eq_true, if_false, and_self]
  · rw [exec_segmentEnd s hk, Dev.segmentEnd_idle jump h]
  · intro g y jump hcur hdesc hrun t d1 d2 code d3
    have hd3 : s.dev.passEnded k jump = d3 := rfl
    have hcode : (s.dev.passReached k jump).lastCode k = code := rfl
    have hend : exec (.segmentEnd ⟨k, jump⟩) s = .next (s.after (if x.stop then d3.endTransition k (x.stopCode.getD code)
        else d3.afterSegment k g.el code y)) := by
      rw [exec_segmentEnd s hk, Dev.segmentEnd_playing jump hcur hdesc hrun, hd3, hcode]
    clear_value d3
    refine ⟨fun hstop => by rw [hend, if_pos hstop], fun hstop hjump => ?_⟩
    rw [hend, if_neg (Bool.eq_false_iff.mp hstop), Dev.afterSegment_noJump _ _ _ hjump]
    refine ⟨fun hagain => by rw [if_pos hagain], fun hfinite hpassed hlast => ?_, fun hfinite hpassed hlast => ?_⟩
    · rw [if_neg (by omega), if_pos hlast]
    · rw [if_neg (by omega), if_neg (Bool.eq_false_iff.mp hlast)]
  · rw [exec_segmentWrite, Dev.segmentWrite_noContent h]
  · intro tag rep jump last samples h len st
    rw [exec_segmentWrite]
    refine ⟨fun hst => ⟨fun hcomplete => ?_, fun hcomplete => ?_⟩, fun hst => ?_, fun h0 h1 h3 => ?_⟩
    · rw [Dev.segmentWrite_placed h hst, if_pos hcomplete]
    · rw [Dev.segmentWrite_placed h hst, if_neg (Bool.eq_false_iff.mp hcomplete)]
    · rw [Dev.segmentWrite_active h hst]
    · rw [Dev.segmentWrite_badLength h h0 h1 h3]
  · rw [exec_sluiceRearmEnd s hk, if_pos h]
  · rw [exec_sluiceRearmEnd s hk, if_neg h]
  · rw [exec_stallAbandon_stalled s hk ht hg, if_pos ho]
  · rw [exec_stallAbandon_stalled s hk ht hg, ho, Option.isSome_none, if_neg Bool.false_ne_true]
  · rw [exec_ceilingTrip_port s hp hr, if_pos (ceilingTrips_iff.mpr h)]
  · rw [exec_ceilingTrip_port s hp hr, if_neg (mt ceilingTrips_iff.mp h)]

end Sys2Proof.Machine

/-! The proofs of the family 06_transitions_and_sluices: the code that a shape sample plays (O54). -/

namespace Sys2Proof

/-! ### Rounding half away from zero (R143) -/

/-- The rounding goes by the value: a factor common to numerator and denominator does not change it. -/
theorem Frac.round_mul_left (i : Int) (n : Nat) {g : Nat} (hg : 0 < g) : Frac.round ⟨g * i, g * n⟩ = Frac.round ⟨i, n⟩ := by
  have hquot : (2 * ((g : Int) * i).natAbs + g * n) / (2 * (g * n)) = (2 * i.natAbs + n) / (2 * n) :=
    calc (2 * ((g : Int) * i).natAbs + g * n) / (2 * (g * n))
        = (g * (2 * i.natAbs + n)) / (g * (2 * n)) := by rw [Int.natAbs_mul, Int.natAbs_natCast]; ring_nf
      _ = (2 * i.natAbs + n) / (2 * n) := Nat.mul_div_mul_left _ _ hg
  have hsign : (g : Int) * i < 0 ↔ i < 0 := smul_neg_iff_of_pos_left (Int.natCast_pos.mpr hg)
  simp only [Frac.round, hquot, hsign]

/-- Lowest terms have the same rounding. -/
theorem Frac.round_reduce (f : Frac) (hden : 0 < f.den) : f.reduce.round = f.round := by
  have hg : 0 < f.num.natAbs.gcd f.den := Nat.gcd_pos_of_pos_right _ hden
  rw [Frac.reduce]
  split
  · rfl
  · rw [← Frac.round_mul_left _ _ hg, Int.mul_ediv_cancel' (Int.natCast_dvd.mpr (Nat.gcd_dvd_left _ _)),
      Nat.mul_div_cancel' (Nat.gcd_dvd_right _ _)]

theorem Frac.round_mk2 (i : Int) {n : Nat} (hn : 0 < n) : (Frac.mk2 i n).round = Frac.round ⟨i, n⟩ := by
  rw [Frac.mk2, Nat.max_eq_left hn, Frac.round_reduce _ hn]

/-- Rounding is odd. -/
theorem Frac.round_neg (i : Int) (n : Nat) : Frac.round ⟨-i, n⟩ = -Frac.round ⟨i, n⟩ := by
  rcases lt_trichotomy i 0 with h | rfl | h
  · simp [Frac.round, h, h.le]
  · rcases n.eq_zero_or_pos with rfl | hn
    · rfl
    · simp [Frac.round, Nat.div_eq_of_lt (show n < 2 * n by omega)]
  · simp [Frac.round, h, h.le]

/-- From 0 on, a tie goes up. -/
theorem Frac.round_eq_of_nonneg {i m : Int} {n : Nat} (hi : 0 ≤ i) (hlo : m * (2 * n) - n ≤ 2 * i) (hhi : 2 * i < m * (2 * n) + n) :
    Frac.round ⟨i, n⟩ = m := by
  have hquot : Frac.round ⟨i, n⟩ = (2 * i + n) / (2 * n) := by
    rw [Frac.round, if_neg hi.not_gt]
    push_cast
    rw [abs_of_nonneg hi]
  rw [hquot, Int.ediv_eq_iff_of_pos (by omega)]
  constructor <;> linarith

/-- Below 0, a tie goes down. -/
theorem Frac.round_eq_of_nonpos {i m : Int} {n : Nat} (hi : i ≤ 0) (hlo : m * (2 * n) - n < 2 * i) (hhi : 2 * i ≤ m * (2 * n) + n) :
    Frac.round ⟨i, n⟩ = m := by
  have hmirror : Frac.round ⟨-i, n⟩ = -m := Frac.round_eq_of_nonneg (neg_nonneg.mpr hi) (by linarith) (by linarith)
  rw [Frac.round_neg] at hmirror
  exact neg_injective hmirror

end Sys2Proof

namespace Sys2Proof.Machine

/-! ### The code of a shape sample (R143) -/

theorem clampInt_eq_max_min {lo hi : Int} (h : lo ≤ hi) (i : Int) : clampInt lo hi i = max lo (min hi i) := by
  rw [clampInt]
  split_ifs <;> omega

/-- The code is the rounded value held to 16 bits. -/
theorem playCode_eq (c0 c1 : Nat) (q : Int) :
    (playCode c0 c1 q : Int) = max 0 (min 0xFFFF (Frac.round ⟨(c0 : Int) * 16384 + ((c1 : Int) - c0) * q, 16384⟩)) := by
  rw [playCode, Frac.round_mk2 _ (by decide), clampInt_eq_max_min (by decide), Int.toNat_of_nonneg (le_max_left _ _)]

/-- Settles O54: the two ranges of `x` are those in which the rounding is `n`, with the tie on the side away from zero. -/
theorem shapeSamplePlaysRoundedCode : Obligations.ShapeSamplePlaysRoundedCode := by
  intro c0 c1 x n q hx hpos hneg
  have hround : Frac.round ⟨x, 16384⟩ = n := by
    rcases le_or_gt 0 x with h | h
    · obtain ⟨hlo, hhi⟩ := hpos h
      exact Frac.round_eq_of_nonneg h (by omega) (by omega)
    · obtain ⟨hlo, hhi⟩ := hneg h
      exact Frac.round_eq_of_nonpos h.le (by omega) (by omega)
  rw [playCode_eq, ← hx, hround]

end Sys2Proof.Machine

/-! The proofs of the family 07_loop_engines: the commands of the loops and of placement (O20), the loading of laws and sets (O21), the trace and
its harvest (O22), and the rows of the engines and of the placement manager (O23). -/

namespace Sys2Proof.Machine

section
variable {d : Dev} {c : Call} {el slot set e first n k : Nat} {w : Word}

/-! ### LOOP_BIND and SETPOINT_SET (R190, R191) -/

/-- A LOOP_BIND of `el` to `slot` and `set` that nothing stands in the way of (Table 7-7, R214). -/
structure Dev.BindLegal (d : Dev) (c : Call) (el slot set : Nat) : Prop where
  element : rd c.packet.cmd.payload 0 2 = el
  toSlot : rd c.packet.cmd.payload 2 1 = slot
  withSet : rd c.packet.cmd.payload 4 2 = set
  zeros : rd c.packet.cmd.payload 3 1 = 0 ∧ rd c.packet.cmd.payload 6 2 = 0
  range : slot ≤ 63 ∧ set ≤ 0x0FFE
  drive : d.isDrive el = true
  loaded : d.slotEmpty slot = false
  kind : d.slotKind slot = d.rtp.map.kind el - 1
  filled : d.setFilled set = true
  ready : d.linkReady (linkOf el) = true
  free : d.inSluice el = false ∧ d.claimed el = false
  fits : 48 ≤ slot → d.bindFits el slot set = true

theorem bodyLoopBind_binds (h : d.BindLegal c el slot set) :
    bodyLoopBind d c =
      ((d.setLoop el { d.loop el with bindDue := some (slot, set) }).requestRestore el, .final St.done []) := by
  obtain ⟨rfl, rfl, rfl, ⟨hz1, hz2⟩, ⟨hslot, hset⟩, hdrive, hloaded, hkind, hfilled, hready, ⟨hsluice, hclaimed⟩, hfits⟩ := h
  have hload : (decide (48 ≤ rd c.packet.cmd.payload 2 1) && !d.bindFits (rd c.packet.cmd.payload 0 2) (rd c.packet.cmd.payload 2 1)
      (rd c.packet.cmd.payload 4 2)) = false := by
    rw [Bool.and_eq_false_imp, decide_eq_true_eq]
    exact fun h => by rw [hfits h, Bool.not_true]
  simp only [bodyLoopBind, hz1, hz2, hdrive, hloaded, hkind, hfilled, hready, hsluice, hclaimed, hload, Nat.not_lt.mpr hslot,
    Nat.not_lt.mpr hset, ne_eq, not_true_eq_false, Bool.not_true, Bool.false_eq_true, or_self, if_false]

/-- A SETPOINT_SET of the operand `w` for `el` that nothing stands in the way of (R191). -/
structure Dev.SetpointLegal (d : Dev) (c : Call) (el : Nat) (w : Word) : Prop where
  element : rd c.packet.cmd.payload 0 2 = el
  operand : BitVec.ofNat 32 (rd c.packet.cmd.payload 4 4) = w
  zeros : rd c.packet.cmd.payload 2 2 = 0
  drive : d.isDrive el = true
  bound : (d.loop el).slot ≠ 0xFF
  takes : (d.loop el).slot ≠ 1
  small : (d.loop el).slot ≠ 0 ∨ Frac.lt (Frac.mk2 1 10) (coefValue w).abs = false
  ready : d.linkReady (linkOf el) = true

theorem bodySetpointSet_sets (h : d.SetpointLegal c el w) :
    bodySetpointSet d c = ((d.setLoop el { d.loop el with operandDue := some w }).requestRestore el, .final St.done []) := by
  obtain ⟨rfl, rfl, hz, hdrive, hbound, htakes, hsmall, hready⟩ := h
  have hoperand : ¬ ((d.loop (rd c.packet.cmd.payload 0 2)).slot = 0 ∧
      Frac.lt (Frac.mk2 1 10) (coefValue (BitVec.ofNat 32 (rd c.packet.cmd.payload 4 4))).abs = true) := by
    rw [not_and_or, Bool.not_eq_true]
    exact hsmall
  simp only [bodySetpointSet, hz, hdrive, hbound, htakes, if_neg hoperand, hready, ne_eq, not_true_eq_false, Bool.not_true,
    Bool.false_eq_true, or_self, if_false]

/-! ### The placement commands (R232 to R234) -/

/-- A PLACE_PIN of `el` to engine `e`, to a block of the placement's choice, that nothing stands in the way of (R232). -/
structure Dev.PinLegal (d : Dev) (c : Call) (el e : Nat) : Prop where
  element : rd c.packet.cmd.payload 0 2 = el
  engine : rd c.packet.cmd.payload 2 1 = e
  anyBlock : rd c.packet.cmd.payload 3 1 = 0xFF
  zeros : rd c.packet.cmd.payload 4 4 = 0
  range : el ≤ 6143 ∧ e ≤ 15
  holds : 14 ≤ e → d.flag F.lpcPowerCfg_reserve = false
  mapped : d.rtp.map.kind el ≠ 0
  bound : (d.loop el).slot ≠ 0xFF
  room : d.plm.pins.length < 512
  budget : d.engCost e + d.slotCost (d.loop el).slot ≤ 1100
  running : d.fld (F.lpcEngStat_state e) = 2
  free : d.inSluice el = false
  noBlock : (d.blocks e)[0xFF]? = none

/-- The device with `el` pinned to engine `e`, in the place of any pin that it had. -/
def Dev.pinTo (d : Dev) (el e : Nat) : Dev :=
  { d with plm := { d.plm with pins := d.plm.pins.filter (fun (x : Pin) => x.el ≠ el) ++ [⟨el, e, 0xFF, false, true⟩] } }

theorem bodyPlacePin_pins (h : d.PinLegal c el e) :
    bodyPlacePin d c = ((d.pinTo el e).requestRestore el, .final St.done []) := by
  obtain ⟨hel, he, hblock, hz, ⟨hle, hle15⟩, hholds, hmapped, hbound, hroom, hbudget, hrunning, hfree, hnone⟩ := h
  have hreserve : ¬ (14 ≤ e ∧ d.flag F.lpcPowerCfg_reserve = true) := fun h => by simp [hholds h.1] at h
  simp only [bodyPlacePin, hel, he, hblock, hz, hmapped, hbound, hrunning, hfree, hnone, hreserve, Nat.not_lt.mpr hle,
    Nat.not_lt.mpr hle15, Nat.not_le.mpr hroom, Nat.not_lt.mpr hbudget, ne_eq, not_true_eq_false, Bool.false_eq_true, and_false,
    false_and, or_self, if_false]
  rfl

theorem bodyPlaceUnpin_unpins (hz : rd c.packet.cmd.payload 2 2 = 0) (hpinned : d.pinned (rd c.packet.cmd.payload 0 2) = true) :
    bodyPlaceUnpin d c =
      ({ d with plm := { d.plm with pins := d.plm.pins.filter (fun x => x.el ≠ rd c.packet.cmd.payload 0 2) } }, .final St.done []) := by
  simp only [bodyPlaceUnpin, hz, hpinned, ne_eq, not_true_eq_false, Bool.not_true, Bool.false_eq_true, if_false]

/-- A hint of kind 0 or 3 has no limit on their number, and is noted without more. -/
theorem bodyPlaceHint_notes (hfirst : rd c.packet.cmd.payload 0 2 = first) (hn : rd c.packet.cmd.payload 2 2 = n)
    (hk : rd c.packet.cmd.payload 4 1 = k) (hz : rd c.packet.cmd.payload 5 3 = 0) (h1 : 1 ≤ n) (hend : first + n ≤ 6144)
    (hkind : k = 0 ∨ k = 3) :
    bodyPlaceHint d c = (d.setHints ((List.range n).map (fun i => first + i)) k, .final St.done []) := by
  have hlegal : ¬ (n = 0 ∨ 6144 < first + n ∨ 4 < k ∨ 0 ≠ 0) := by omega
  obtain ⟨hk1, hk2, hk4⟩ : k ≠ 1 ∧ k ≠ 2 ∧ k ≠ 4 := by omega
  simp only [bodyPlaceHint, hfirst, hn, hk, hz, if_neg hlegal, hk1, hk2, hk4, false_and, or_self, if_false]

end

/-- Settles O20: each row is `Dev.host` with the answer of its function. -/
theorem loopAndPlacementCommandsTakeEffect : Obligations.LoopAndPlacementCommandsTakeEffect := by
  intro s c q
  refine ⟨?_, ?_, ?_, fun h hz hpinned => after_host_answers h (bodyPlaceUnpin_unpins hz hpinned),
    fun first n k h hfirst hn hk hz h1 hend hkind => after_host_answers h (bodyPlaceHint_notes hfirst hn hk hz h1 hend hkind)⟩
  · intro el slot set h hel hslot hz hset hz' hle hle' o hfits hdrive hloaded hkind hfilled hready hsluice hclaimed
    exact after_host_answers h (bodyLoopBind_binds ⟨hel, hslot, hset, ⟨hz, hz'⟩, ⟨hle, hle'⟩, hdrive, hloaded, hkind, hfilled, hready,
      ⟨hsluice, hclaimed⟩, hfits⟩)
  · intro el w h hel hz hw o hdrive hbound htakes hsmall hready
    exact after_host_answers h (bodySetpointSet_sets ⟨hel, hw, hz, hdrive, hbound, htakes, hsmall, hready⟩)
  · intro el e h hel he hblock hz hle hle' o hholds hmapped hbound hroom hbudget hrunning hfree hnone
    exact after_host_answers h (bodyPlacePin_pins ⟨hel, he, hblock, hz, ⟨hle, hle'⟩, hholds, hmapped, hbound, hroom, hbudget, hrunning,
      hfree, hnone⟩)

section
variable {d : Dev} {c : Call} {slot n : Nat} {img : Bytes}

/-! ### LAW_LOAD and LAW_SWITCH (R209 to R211) -/

/-- A LAW_LOAD of the image `img` into the owner slot `slot` that passes every check of Table 8-7. -/
structure Dev.LawLegal (d : Dev) (c : Call) (slot : Nat) (img : Bytes) : Prop where
  image : fitBytes (rd c.packet.cmd.payload 8 4) c.packet.cmd.image = img
  toSlot : rd c.packet.cmd.payload 12 1 = slot
  owner : 48 ≤ slot
  checked : d.lawCheck c.packet.cmd.payload img = none

/-- The checks look at nothing of the command processor's own state. -/
theorem Dev.lawLegal_withCpx (d : Dev) (x : Cpx) (c : Call) (slot : Nat) (img : Bytes) :
    ({ d with cpx := x } : Dev).LawLegal c slot img ↔ d.LawLegal c slot img :=
  ⟨fun h => ⟨h.image, h.toSlot, h.owner, h.checked⟩, fun h => ⟨h.image, h.toSlot, h.owner, h.checked⟩⟩

/-- The law of an image, in the first free owner words, as it waits for its switch (R211). -/
def Dev.loadedLaw (d : Dev) (oid slot : Nat) (img : Bytes) : LawLoad :=
  let base := (d.ownerSpace (rd img 8 2)).getD 3072
  ⟨oid, slot, (List.range (rd img 8 2)).map (fun i => storedWord base (lawWord img i)), base, rd img 6 1, rd img 10 2, rd img 16 4,
    rd img 20 4, Config.sha384 img, d.lawRecordOf slot, 0⟩

/-- The device with the law `l` in its owner words, and `record` as its slot's in the NV store. -/
def Dev.storeLaw (d : Dev) (l : LawLoad) (record : Bytes) : Dev :=
  ({ d with lpc := { d.lpc with laws := d.lpc.laws ++ [l], ucode := putWords l.words l.base d.lpc.ucode },
            hst := { d.hst with lawStore := aput d.hst.lawStore l.slot record } } : Dev).showOwner

theorem bodyLawLoad_accepts (h : d.LawLegal c slot img) :
    bodyLawLoad d c =
      (d.storeLaw (d.loadedLaw c.oid slot img) (lawRecord slot img ((c.packet.cmd.payload.drop 16).take 96)), .accepted []) := by
  obtain ⟨himage, hslot, howner, hchecked⟩ := h
  simp only [bodyLawLoad, himage, hslot, Nat.not_lt.mpr howner, hchecked, if_false]
  rfl

/-- LAW_SWITCH looks for the first waiting law of its slot. -/
theorem exec_lawSwitch_waiting (s : State) {l : LawLoad} (h48 : 48 ≤ slot) (h64 : slot < 64)
    (hl : s.dev.lpc.laws.find? (fun l => l.slot = slot) = some l) :
    exec (.lawSwitch slot) s = .next (s.after
      (if s.dev.lawWaits l then s.dev else (s.dev.advance (s.dev.lawTick l)).switchLaw l)) := by
  show execLawSwitch slot s = _
  rw [execLawSwitch, commitIf_ok (by simp [h48, h64])]
  simp only [hl]

/-! ### COEF_SWAP and its boundary (R187, R192) -/

/-- The sets that a COEF_SWAP of `n` sets names. -/
def Call.swapSets (c : Call) (n : Nat) : List Nat := (List.range n).map (fun k => rd c.packet.cmd.payload (16 + 36 * k) 2)

/-- A COEF_SWAP of `n` sets that nothing stands in the way of (Table 7-8, R192). -/
structure Dev.SwapLegal (d : Dev) (c : Call) (n : Nat) : Prop where
  count : rd c.packet.cmd.payload 0 2 = n
  range : 1 ≤ n ∧ n ≤ 27
  length : c.packet.cmd.payload.length = 16 + 36 * n
  zeros : rd c.packet.cmd.payload 2 6 = 0
  soon : rd c.packet.cmd.payload 8 8 ≤ d.frame + 400000
  known : ∀ x ∈ c.swapSets n, x ≤ 0x10FF
  distinct : (c.swapSets n).eraseDups.length = n
  valid : ∀ k < n, rd c.packet.cmd.payload (18 + 36 * k) 2 = 0 ∧ validSet (swapWords c.packet.cmd.payload k) = true
  free : ∀ x ∈ d.lpc.swaps, ∀ y ∈ x.sets, y ∉ c.swapSets n

/-- Nothing of the command processor's own state stands in the way of a swap. -/
theorem Dev.swapLegal_withCpx (d : Dev) (x : Cpx) (c : Call) (n : Nat) : ({ d with cpx := x } : Dev).SwapLegal c n ↔ d.SwapLegal c n :=
  ⟨fun h => ⟨h.count, h.range, h.length, h.zeros, h.soon, h.known, h.distinct, h.valid, h.free⟩,
    fun h => ⟨h.count, h.range, h.length, h.zeros, h.soon, h.known, h.distinct, h.valid, h.free⟩⟩

/-- The swap as it waits for its boundary: the frame that it names, or the next one where that is past. -/
def Dev.dueSwap (d : Dev) (c : Call) (n : Nat) : SwapDue :=
  ⟨c.oid, if rd c.packet.cmd.payload 8 8 ≤ d.frame then d.frame + 1 else rd c.packet.cmd.payload 8 8,
    (c.swapSets n).any (fun x => decide (0x1000 ≤ x)), c.swapSets n⟩

/-- The device with the sets of a swap in the shadow bank; the evicted loops that they serve are asked to be resident. -/
def Dev.stageSwap (d : Dev) (c : Call) (n : Nat) : Dev :=
  let shadow := (List.range n).foldl (fun t k => tput (fun _ => []) t (rd c.packet.cmd.payload (16 + 36 * k) 2) (swapWords c.packet.cmd.payload k))
    d.lpc.shadow
  ((d.lpc.loops.filter (fun (x : Nat × Loop) => x.2.evicted && (c.swapSets n).contains x.2.set)).map (fun x => x.1)).foldl Dev.requestRestore
    { d with lpc := { d.lpc with shadow := shadow, swaps := d.lpc.swaps ++ [d.dueSwap c n] } }

theorem bodyCoefSwap_accepts (h : d.SwapLegal c n) : bodyCoefSwap d c = (d.stageSwap c n, .accepted []) := by
  obtain ⟨hn, ⟨h1, h27⟩, hlength, hz, hsoon, hknown, hdistinct, hvalid, hfree⟩ := h
  have hform : ¬ (n = 0 ∨ 27 < n ∨ c.packet.cmd.payload.length ≠ 16 + 36 * n ∨ rd c.packet.cmd.payload 2 6 ≠ 0) := by omega
  have hrange : (c.swapSets n).any (fun x => decide (0x10FF < x)) = false :=
    List.any_eq_false.mpr fun x hx => by simpa using hknown x hx
  have hwords : (List.range n).any (fun k => rd c.packet.cmd.payload (18 + 36 * k) 2 ≠ 0 || !validSet (swapWords c.packet.cmd.payload k)) = false :=
    List.any_eq_false.mpr fun k hk => by simpa using hvalid k (List.mem_range.mp hk)
  have hpending : d.lpc.swaps.any (fun x => x.sets.any (c.swapSets n).contains) = false :=
    List.any_eq_false.mpr fun x hx => by simpa using hfree x hx
  rw [Call.swapSets] at hrange hdistinct hpending
  simp only [bodyCoefSwap, hn, if_neg hform, hrange, hdistinct, hwords, hpending, Nat.not_lt.mpr hsoon, ne_eq, not_true_eq_false,
    Bool.false_eq_true, or_self, if_false]
  rfl

/-- The swaps whose boundary comes first take effect together. -/
theorem exec_coefSwapBoundary_due (s : State) {a : SwapDue} {r : List SwapDue} (h : s.dev.lpc.swaps = a :: r) :
    let t := (r.map s.dev.swapTick).foldl min (s.dev.swapTick a)
    exec .coefSwapBoundary s = .next (s.after ((s.dev.lpc.swaps.filter (fun x => s.dev.swapTick x = t)).foldl Dev.applySwap (s.dev.boundary t))) := by
  show execCoefSwapBoundary s = _
  simp only [execCoefSwapBoundary, commit, h, List.map_cons]

end

/-- Settles O21: each function accepts before and after ACCEPTED has been given, and the row of each boundary has one equation. -/
theorem lawLoadAndCoefSwapWaitForTheirBoundary : Obligations.LawLoadAndCoefSwapWaitForTheirBoundary := by
  refine ⟨?_, fun s slot l h48 h64 hl => ⟨fun hwaits => ?_, fun hwaits => ?_⟩, ?_, fun s a r => exec_coefSwapBoundary_due s⟩
  · intro s c q slot hpair h o img n base words law hslot howner hchecked
    obtain ⟨x, hx⟩ := (s.dev.opened 0x0401 c q).interim_eq 0x0401 c q []
    have hlegal : o.LawLegal (s.dev.nextCall 0x0401 c q) slot img := ⟨rfl, hslot, howner, hchecked⟩
    have hbefore : (s.dev.opened 0x0401 c q).LawLegal (s.dev.nextCall 0x0401 c q) slot img :=
      (Dev.lawLegal_withCpx _ x _ _ _).mp (hx ▸ hlegal)
    exact after_host_accepts h hpair (congrArg Prod.snd (bodyLawLoad_accepts hbefore)) (congrArg Prod.fst (bodyLawLoad_accepts hlegal))
  · rw [exec_lawSwitch_waiting s h48 h64 hl, if_neg (Bool.eq_false_iff.mp hwaits)]
  · rw [exec_lawSwitch_waiting s h48 h64 hl, if_pos hwaits]
  · intro s c q n hpair h o sets hn h1 h27 hlength hz hsoon hknown hdistinct hvalid hfree shadow due named
    obtain ⟨x, hx⟩ := (s.dev.opened 0x0403 c q).interim_eq 0x0403 c q []
    have hlegal : o.SwapLegal (s.dev.nextCall 0x0403 c q) n := ⟨hn, ⟨h1, h27⟩, hlength, hz, hsoon, hknown, hdistinct, hvalid, hfree⟩
    have hbefore : (s.dev.opened 0x0403 c q).SwapLegal (s.dev.nextCall 0x0403 c q) n :=
      (Dev.swapLegal_withCpx _ x _ _).mp (hx ▸ hlegal)
    exact after_host_accepts h hpair (congrArg Prod.snd (bodyCoefSwap_accepts hbefore)) (congrArg Prod.fst (bodyCoefSwap_accepts hlegal))

/-! ### TRACE_ARM (R193, R194) -/

/-- The signals that a TRACE_ARM of `n` signals names. -/
def Call.traceSignals (c : Call) (n : Nat) : List TraceSignal :=
  (List.range n).map (fun j => (⟨rd c.packet.cmd.payload (24 + 4 * j) 2, rd c.packet.cmd.payload (26 + 4 * j) 1⟩ : TraceSignal))

/-- The trace that it describes, with nothing captured. -/
def Call.tracePlan (c : Call) (n : Nat) : Trace :=
  { signals := c.traceSignals n, trigKind := rd c.packet.cmd.payload 1 1, trigArg := rd c.packet.cmd.payload 12 8,
    depth := rd c.packet.cmd.payload 4 4, pre := rd c.packet.cmd.payload 8 4 }

/-- A TRACE_ARM of `n` signals that nothing stands in the way of (Table 7-11). -/
structure Dev.TraceLegal (d : Dev) (c : Call) (n : Nat) : Prop where
  count : rd c.packet.cmd.payload 0 1 = n
  range : 1 ≤ n ∧ n ≤ 32
  length : c.packet.cmd.payload.length = 24 + 4 * n
  kind : rd c.packet.cmd.payload 1 1 ≤ 3
  source : rd c.packet.cmd.payload 1 1 = 2 → rd c.packet.cmd.payload 12 8 ≤ 422
  zeros : rd c.packet.cmd.payload 2 2 = 0 ∧ rd c.packet.cmd.payload 20 4 = 0
  signals : ∀ x ∈ c.traceSignals n, x.quantity ≤ 8 ∧ (x.source < 6144 ∨ (0x8000 ≤ x.source ∧ x.source ≤ 0x8000 + 100))
  signalZeros : ∀ j < n, rd c.packet.cmd.payload (27 + 4 * j) 1 = 0
  depth : rd c.packet.cmd.payload 4 4 ≤ 2097152 / (8 + 4 * n)
  pre : rd c.packet.cmd.payload 8 4 ≤ rd c.packet.cmd.payload 4 4
  idle : d.flag F.lpcTraceStat_harvesting = false

/-- The device with the trace `t` armed: the last one is cleared, and its trigger looks for changes from now on. -/
def Dev.armTrace (d : Dev) (t : Trace) : Dev :=
  let d1 : Dev := { d with lpc := { d.lpc with trace := t } }
  let d2 : Dev := { d1 with lpc := { d1.lpc with trace := { t with seen := d1.traceWatch, seenBefore := d1.traceWatch } } }
  (((d2.setReg R.lpcTraceStat 0).setFld F.lpcTraceStat_tstate 1).setFld F.lpcTraceStat_nSig t.signals.length).setRegN R.lpcTraceCount 0

section
variable {d : Dev} {c : Call} {n a : Nat}

theorem Call.traceSignals_length (c : Call) (n : Nat) : (c.tracePlan n).signals.length = n := by
  rw [Call.tracePlan, Call.traceSignals, List.length_map, List.length_range]

theorem bodyTraceArm_arms (h : d.TraceLegal c n) :
    bodyTraceArm d c = ((((c.traceSignals n).filter (fun x => decide (x.source < 6144))).map (fun x => x.source)).foldl Dev.requestRestore
      (d.armTrace (c.tracePlan n)), .final St.done []) := by
  obtain ⟨hn, ⟨h1, h32⟩, hlength, hkind, hsource, ⟨hz, hz'⟩, hsignals, hsignalZeros, hdepth, hpre, hidle⟩ := h
  have hform : ¬ (n = 0 ∨ 32 < n ∨ c.packet.cmd.payload.length ≠ 24 + 4 * n ∨ 3 < rd c.packet.cmd.payload 1 1 ∨
      rd c.packet.cmd.payload 2 2 ≠ 0 ∨ rd c.packet.cmd.payload 20 4 ≠ 0) := by omega
  have hall : (c.traceSignals n).all (fun s => decide (s.quantity ≤ 8) &&
      (decide (s.source < 6144) || (decide (0x8000 ≤ s.source) && decide (s.source ≤ 0x8000 + 100)))) = true := by
    rw [List.all_eq_true]
    intro x hx
    simpa using hsignals x hx
  have hany : (List.range n).any (fun j => rd c.packet.cmd.payload (27 + 4 * j) 1 ≠ 0) = false := by
    rw [List.any_eq_false]
    intro j hj
    simpa using hsignalZeros j (List.mem_range.mp hj)
  have hwatch : ¬ (rd c.packet.cmd.payload 1 1 = 2 ∧ 422 < rd c.packet.cmd.payload 12 8) := fun h => absurd (hsource h.1) (by omega)
  have hlen := c.traceSignals_length n
  rw [Call.traceSignals] at hall
  simp only [bodyTraceArm, hn, if_neg hform, hall, hany, hwatch, hidle, Nat.not_lt.mpr hdepth, Nat.not_lt.mpr hpre, Bool.not_true, Bool.false_eq_true,
    or_self, if_false]
  rw [Dev.armTrace, hlen]
  rfl

/-! ### HARVEST (R195) -/

/-- A HARVEST of `n` bytes at `a` that nothing stands in the way of. -/
structure Dev.HarvestLegal (d : Dev) (c : Call) (a n : Nat) : Prop where
  address : rd c.packet.cmd.payload 0 8 = a
  length : rd c.packet.cmd.payload 8 4 = n
  zeros : rd c.packet.cmd.payload 12 4 = 0
  aligned : a % 64 = 0
  inside : 0x080000000 ≤ a ∧ a + n ≤ 0x280000000
  stopped : d.tracing = false
  idle : d.flag F.lpcTraceStat_harvesting = false

/-- Nothing of the command processor's own state stands in the way of a harvest. -/
theorem Dev.harvestLegal_withCpx (d : Dev) (x : Cpx) (c : Call) (a n : Nat) :
    ({ d with cpx := x } : Dev).HarvestLegal c a n ↔ d.HarvestLegal c a n :=
  ⟨fun h => ⟨h.address, h.length, h.zeros, h.aligned, h.inside, h.stopped, h.idle⟩,
    fun h => ⟨h.address, h.length, h.zeros, h.aligned, h.inside, h.stopped, h.idle⟩⟩

/-- The device with a harvest of `n` bytes at `a` under way for the command `oid`. -/
def Dev.startHarvest (d : Dev) (oid a n : Nat) : Dev :=
  let d1 := d.setFlag F.lpcTraceStat_harvesting true
  { d1 with lpc := { d1.lpc with trace := { d1.lpc.trace with harvest := some (oid, a, n) } } }

theorem bodyHarvest_accepts (h : d.HarvestLegal c a n) : bodyHarvest d c = (d.startHarvest c.oid a n, .accepted []) := by
  obtain ⟨ha, hn, hz, haligned, ⟨hlo, hhi⟩, hstopped, hidle⟩ := h
  have harea : ¬ (a % 64 ≠ 0 ∨ a < 0x080000000 ∨ 0x280000000 < a + n ∨ 0 ≠ 0) := by omega
  simp only [bodyHarvest, ha, hn, hz, if_neg harea, hstopped, hidle, Bool.false_eq_true, or_self, if_false]
  rfl

end

/-! ### The rows of the trace and of the harvest (R194, R195) -/

section
variable (s : State)

theorem exec_traceTrigger :
    exec .traceTrigger s = .next (s.after
      (if s.dev.fld F.lpcTraceStat_tstate = 1 ∧ s.dev.traceTriggers = true then s.dev.traceTrigger else s.dev)) := rfl

theorem exec_traceCaptureComplete :
    exec .traceCaptureComplete s = .next (s.after
      (if s.dev.fld F.lpcTraceStat_tstate = 2 ∧ s.dev.lpc.trace.left = 0 ∧ s.dev.lpc.trace.trigDue = false then
        (s.dev.setFld F.lpcTraceStat_tstate 3).event 0x0D02 0 (le 4 s.dev.lpc.trace.records.length) else s.dev)) := rfl

/-- The device with the bytes `b` of a harvest in DDR5 at `a`, and the harvest over. -/
def Dev.harvested (d : Dev) (b : Bytes) (a : Nat) : Dev :=
  let d1 := d.setFlag F.lpcTraceStat_harvesting false
  { d1 with lpc := { d1.lpc with trace := { d1.lpc.trace with harvest := none } },
            mem := { d1.mem with ddr := putBytes b a d1.mem.ddr } }

theorem exec_harvestComplete {oid a n : Nat} (h : s.dev.lpc.trace.harvest = some (oid, a, n)) :
    let b := harvestBytes s.dev.lpc.trace (s.dev.fld F.lpcTraceStat_missed) n
    exec .harvestComplete s = .next (s.after
      ((s.dev.harvested b.1 a).finishCut oid St.done (le 4 b.1.length ++ le 4 b.2) (decide (b.2 < s.dev.lpc.trace.records.length)))) := by
  show execHarvestComplete s = _
  simp only [execHarvestComplete, commit, h]
  rfl

end

/-- Settles O22: a command's row is `Dev.host` with the answer of its function, and DDR5 after a harvest is what `putBytes` makes of it. -/
theorem traceIsArmedTriggeredAndHarvested : Obligations.TraceIsArmedTriggeredAndHarvested := by
  refine ⟨?_, fun s hstate htrig => ?_, fun s hstate hleft hdue => ?_, fun s c q h => after_host_answers h rfl, ?_, ?_⟩
  · intro s c q n h o sigs hn h1 h32 hlength hkind hsource hz hz' hsignals hsignalZeros hdepth hpre hidle t d1 d2 d3
    have hlegal : o.TraceLegal (s.dev.nextCall 0x0D01 c q) n :=
      ⟨hn, ⟨h1, h32⟩, hlength, hkind, hsource, ⟨hz, hz'⟩, hsignals, hsignalZeros, hdepth, hpre, hidle⟩
    have hd3 : o.armTrace ((s.dev.nextCall 0x0D01 c q).tracePlan n) = d3 := by
      rw [Dev.armTrace, Call.traceSignals_length]
      rfl
    have harm := bodyTraceArm_arms hlegal
    rw [hd3] at harm
    exact after_host_answers h harm
  · rw [exec_traceTrigger, if_pos ⟨hstate, htrig⟩]
  · rw [exec_traceCaptureComplete, if_pos ⟨hstate, hleft, hdue⟩]
  · intro s c q a n h ha hn hz haligned hlo hhi o hstopped hidle d1
    obtain ⟨x, hx⟩ := (s.dev.opened 0x0D02 c q).interim_eq 0x0D02 c q []
    have hlegal : o.HarvestLegal (s.dev.nextCall 0x0D02 c q) a n := ⟨ha, hn, hz, haligned, ⟨hlo, hhi⟩, hstopped, hidle⟩
    have hbefore : (s.dev.opened 0x0D02 c q).HarvestLegal (s.dev.nextCall 0x0D02 c q) a n :=
      (Dev.harvestLegal_withCpx _ x _ _ _).mp (hx ▸ hlegal)
    exact after_host_begins h rfl rfl rfl (congrArg Prod.snd (bodyHarvest_accepts hbefore)) (congrArg Prod.fst (bodyHarvest_accepts hlegal))
  · intro s oid a n hharvest h d1 d2
    exact ⟨exec_harvestComplete s hharvest, fun x hx => putBytes_outside h.1 a s.dev.mem.ddr x hx,
      fun i hi => putBytes_inside h.1 a s.dev.mem.ddr i hi, putBytes_wf h.1 a s.dev.mem.ddr⟩

/-! ### The engines (R181, R196, R197) -/

section
variable (s : State) {e b el : Nat}

theorem okEngine_of_lt (he : e < 16) : okEngine e = true := decide_eq_true he

theorem exec_engineDisable (he : e < 16) : exec (.engineDisable e) s = .next (s.after (s.dev.engineOff e)) :=
  commitIf_ok (okEngine_of_lt he) _ _ _

theorem exec_engineEnable (he : e < 16) : exec (.engineEnable e) s = .next (s.after (s.dev.engineOn e)) :=
  commitIf_ok (okEngine_of_lt he) _ _ _

theorem exec_engineRestart (he : e < 16) (good : Bool) :
    exec (.engineRestart e good) s = .next (s.after (s.dev.restartEngine e good)) :=
  commitIf_ok (okEngine_of_lt he) _ _ _

/-- An engine stopped by a parity error, its blocks placed elsewhere (R196). -/
def Dev.stopEngine (d : Dev) (e : Nat) (lane : Bool) : Dev :=
  let d1 := ((d.setFlag (F.lpcEngErr_stopped e) true).setFlag (if lane then F.lpcEngErr_lanePar e else F.lpcEngErr_ucodePar e) true).setFld
    (F.lpcEngStat_state e) 5
  let d2 := (if 14 ≤ e ∧ d.flag (F.lpcEngErr_stopped e) = false then d1.powerStop e else d1).resetMaster 3
  (((d2.event 0x0402 e (le 1 (if lane then 2 else 1))).raiseLevel (279 + e)).breakPins e).replaceBlocks e

/-- A microcode store that does not read back at a start is told and written again (R215). -/
def Dev.rewriteStore (d : Dev) (e : Nat) : Dev :=
  ({ d with lpc := { d.lpc with rewritten := d.lpc.rewritten ++ [e] } } : Dev).event 0x0406 e (le 1 1)

/-- The store is written again where the error is in it, before `ucode`, and for the first time on this engine. -/
theorem exec_engineParityError (he : e < 16) (lane : Bool) :
    exec (.engineParityError e lane) s = .next (s.after
      (if !s.dev.flag F.cpxReady1_ucode && !lane && !s.dev.lpc.rewritten.contains e then s.dev.rewriteStore e
        else s.dev.stopEngine e lane)) := by
  have hpower : (decide (14 ≤ e) && !s.dev.flag (F.lpcEngErr_stopped e)) = true ↔
      14 ≤ e ∧ s.dev.flag (F.lpcEngErr_stopped e) = false := by simp
  show execEngineParityError e lane s = _
  rw [execEngineParityError, commitIf_ok (okEngine_of_lt he)]
  simp only [hpower]
  rfl

/-- BLOCK_EVALUATE of a block that is there: it runs where it is the next of an engine that is not stopped. -/
theorem exec_blockEvaluate {x : LpcBlock} (he : e < 16) (hb : b < 68) (hx : (s.dev.blocks e)[b]? = some x) :
    exec (.blockEvaluate e b) s = .next (s.after
      (if s.dev.fld (F.lpcEngStat_state e) ≠ 5 ∧ s.dev.nextBlock e = some b then s.dev.runBlock e b (s.dev.blockStart e x) else s.dev)) := by
  show execBlockEvaluate e b s = _
  rw [execBlockEvaluate, commitIf_ok (by simp [he, hb])]
  simp only [hx]

theorem exec_blockEvaluate_noBlock (he : e < 16) (hb : b < 68) (hx : (s.dev.blocks e)[b]? = none) :
    exec (.blockEvaluate e b) s = .next (s.after s.dev) := by
  show execBlockEvaluate e b s = _
  rw [execBlockEvaluate, commitIf_ok (by simp [he, hb])]
  simp only [hx]

/-! ### The placement manager (R221, R223, R227) -/

theorem exec_powerReserveClear :
    exec .powerReserveClear s = .next (s.after
      (if s.dev.flag F.cpxReady1_cmu then s.dev else s.dev.setFlag F.lpcPowerCfg_reserve false)) := rfl

theorem Dev.restoreRequested_iff (d : Dev) : d.plm.restores.any (fun r => r.1 = el) = true ↔ ∃ r ∈ d.plm.restores, r.1 = el := by
  simp only [List.any_eq_true, decide_eq_true_eq]

theorem exec_loopRestore (hel : el < 6144) :
    exec (.loopRestore el) s = .next (s.after
      (if s.dev.plm.restores.any (fun r => r.1 = el) then s.dev.restoreLoop el else s.dev)) :=
  commitIf_ok (decide_eq_true hel) _ _ _

end

/-- Settles O23: one equation for each row, and the branch that its condition takes. -/
theorem engineAndPlacementRowsTakeEffect : Obligations.EngineAndPlacementRowsTakeEffect := by
  intro s
  refine ⟨fun e he => ⟨exec_engineDisable s he, exec_engineEnable s he, exec_engineRestart s he⟩, fun e he lane h => ?_,
    fun e he hucode hnew => ?_, fun e b x he hb hx hrun hnext => ?_, fun e b he hb h => ?_, rfl, rfl, fun h => ?_, fun h => ?_, rfl,
    fun el hel h => ?_, fun el hel h => ?_, rfl, rfl⟩
  · have hstop : (!s.dev.flag F.cpxReady1_ucode && !lane && !s.dev.lpc.rewritten.contains e) = false := by
      rcases h with h | h | h <;> simp [h]
    rw [exec_engineParityError s he, hstop, if_neg Bool.false_ne_true]
    rfl
  · rw [exec_engineParityError s he, if_pos (by simp [hucode, hnew])]
    rfl
  · rw [exec_blockEvaluate s he hb hx, if_pos ⟨hrun, hnext⟩]
  · rcases hx : (s.dev.blocks e)[b]? with _ | x
    · exact exec_blockEvaluate_noBlock s he hb hx
    · rw [exec_blockEvaluate s he hb hx, if_neg (not_and'.mpr fun hnext => not_not_intro (h.resolve_left (not_not_intro hnext)))]
  · rw [exec_powerReserveClear, if_neg (Bool.eq_false_iff.mp h)]
  · rw [exec_powerReserveClear, if_pos h]
  · rw [exec_loopRestore s hel, if_pos (s.dev.restoreRequested_iff.mpr h)]
  · rw [exec_loopRestore s hel, if_neg (mt s.dev.restoreRequested_iff.mp fun ⟨r, hr, heq⟩ => h r hr heq)]

end Sys2Proof.Machine

/-! The proofs of the family 07_loop_engines: the value of coefficient and extended words (O53). -/

namespace Sys2Proof.Machine

/-! ### Runs of bytes, least significant first (R7), and two's complement (R6) -/

theorem le_take {n k : Nat} (v : Nat) (h : k ≤ n) : (le n v).take k = le k v := by
  induction k generalizing n v with
  | zero => rfl
  | succ k ih =>
    obtain ⟨n, rfl⟩ := Nat.exists_eq_add_of_le' (Nat.one_le_of_lt h)
    rw [le, le, List.take_succ_cons, ih _ (by omega)]

theorem le_drop {n k : Nat} (v : Nat) (h : k ≤ n) : (le n v).drop k = le (n - k) (v / 256 ^ k) := by
  induction k generalizing n v with
  | zero => simp
  | succ k ih =>
    obtain ⟨n, rfl⟩ := Nat.exists_eq_add_of_le' (Nat.one_le_of_lt h)
    rw [le, List.drop_succ_cons, ih _ (by omega), Nat.add_sub_add_right, Nat.div_div_eq_div_mul, ← pow_succ']

theorem unle_le (n v : Nat) : unle (le n v) = v % 256 ^ n := by
  induction n generalizing v with
  | zero => rw [le, unle, pow_zero, Nat.mod_one]
  | succ n ih =>
    rw [le, unle, ih, BitVec.toNat_ofNat, pow_succ' 256 n, Nat.mod_mul]
    exact congrArg (· + _) (Nat.mod_mod v 256)

/-- The number in bytes `o` to `o + k − 1` of a number written in `n` bytes. -/
theorem rd_le {n o k : Nat} (v : Nat) (h : o + k ≤ n) : rd (le n v) o k = v / 256 ^ o % 256 ^ k := by
  rw [rd, le_drop v (by omega), le_take _ (by omega), unle_le]

theorem le_length (n v : Nat) : (le n v).length = n := by
  induction n generalizing v with
  | zero => rfl
  | succ n ih => rw [le, List.length_cons, ih]

theorem rd_append_left {a b : Bytes} {o k : Nat} (h : o + k ≤ a.length) : rd (a ++ b) o k = rd a o k := by
  rw [rd, rd, List.drop_append_of_le_length (by omega), List.take_append_of_le_length (by rw [List.length_drop]; omega)]

theorem rd_append_right (a b : Bytes) (o k : Nat) : rd (a ++ b) (a.length + o) k = rd b o k := by
  rw [rd, rd, List.drop_length_add_append]

theorem pattern_lt (bits : Nat) (i : Int) : pattern bits i < 2 ^ bits := by
  have hpos : (0 : Int) < (2 ^ bits : Nat) := by positivity
  rw [pattern, Int.toNat_lt (Int.emod_nonneg _ hpos.ne')]
  exact Int.emod_lt_of_pos _ hpos

/-- The pattern of an integer that `bits + 1` bits hold reads back as the integer. -/
theorem signed_pattern {bits : Nat} {i : Int} (hlo : -(2 ^ bits : Nat) ≤ i) (hhi : i < (2 ^ bits : Nat)) :
    signed (bits + 1) (pattern (bits + 1) i) = i := by
  rw [signed, pattern, Nat.add_sub_cancel, pow_succ]
  generalize 2 ^ bits = p at *
  rcases lt_or_ge i 0 with h | h
  · rw [← Int.add_emod_right, Int.emod_eq_of_lt (by omega) (by omega), if_neg (by omega)]
    omega
  · rw [Int.emod_eq_of_lt h (by omega), if_pos (by omega)]
    omega

end Sys2Proof.Machine

namespace Sys2Proof

open Machine

/-! ### Words as fractions (R171) -/

/-- Lowest terms have the same value. -/
theorem Frac.reduce_value {f : Frac} (hden : 0 < f.den) : 0 < f.reduce.den ∧ f.reduce.num * f.den = f.num * f.reduce.den := by
  have hdvd : (f.num.natAbs.gcd f.den : Int) ∣ f.num := Int.natCast_dvd.mpr (Nat.gcd_dvd_left _ _)
  have hdvd' : f.num.natAbs.gcd f.den ∣ f.den := Nat.gcd_dvd_right _ _
  rw [Frac.reduce]
  split
  · exact ⟨hden, rfl⟩
  · refine ⟨Nat.div_pos (Nat.le_of_dvd hden hdvd') (by omega), ?_⟩
    rw [← Int.mul_ediv_assoc' _ hdvd, Int.mul_ediv_assoc _ (Int.natCast_dvd_natCast.mpr hdvd'), Int.natCast_div]

/-- The value of a whole number times a power of two. -/
theorem Frac.scale_ofInt_value (m e : Int) :
    0 < (Frac.scale (Frac.ofInt m) e).den ∧
      (Frac.scale (Frac.ofInt m) e).num * (2 ^ (-e).toNat : Nat) = m * (2 ^ e.toNat : Nat) * (Frac.scale (Frac.ofInt m) e).den := by
  simp only [Frac.scale, Frac.ofInt, one_mul]
  split
  case isTrue h =>
    rw [show (-e).toNat = 0 by omega, pow_zero]
    exact Frac.reduce_value Nat.one_pos
  case isFalse h =>
    rw [show e.toNat = 0 by omega, pow_zero, Nat.cast_one, mul_one]
    exact Frac.reduce_value (Nat.two_pow_pos _)

/-- The two fields of an extended word read back from its bytes. -/
theorem extBytes_fields {x : Ext} (hmant : -(2 ^ 31 : Int) ≤ x.mant ∧ x.mant < 2 ^ 31) (hexp : -128 ≤ x.exp ∧ x.exp ≤ 127) :
    signed 32 (rd (extBytes x) 0 4) = x.mant ∧ signed 8 (rd (extBytes x) 4 1) = x.exp ∧ rd (extBytes x) 5 3 = 0 := by
  have hm : pattern 32 x.mant < 256 ^ 4 := pattern_lt 32 x.mant
  have he : pattern 8 x.exp < 256 := pattern_lt 8 x.exp
  have hlow : rd (extBytes x) 0 4 = pattern 32 x.mant := by
    rw [extBytes, rd_append_left (by rw [le_length]), rd_le _ (by decide), pow_zero, Nat.div_one, Nat.mod_eq_of_lt hm]
  have hhigh : ∀ o k, o + k ≤ 4 → rd (extBytes x) (4 + o) k = pattern 8 x.exp / 256 ^ o % 256 ^ k := fun o k h => by
    rw [extBytes, ← rd_le _ h]
    exact rd_append_right (le 4 _) _ o k
  refine ⟨?_, ?_, ?_⟩
  · rw [hlow]
    exact signed_pattern hmant.1 hmant.2
  · rw [hhigh 0 1 (by decide), pow_zero, Nat.div_one, pow_one, Nat.mod_eq_of_lt he]
    exact signed_pattern hexp.1 (by omega)
  · rw [hhigh 1 3 (by decide), pow_one, Nat.div_eq_of_lt he, Nat.zero_mod]

/-- Settles O53: a word is its mantissa times a power of two, brought to lowest terms. -/
theorem coefficientWordsHaveTheirValue : Obligations.CoefficientWordsHaveTheirValue := by
  refine ⟨fun w => ?_, fun x hlo hhi helo hehi => ?_⟩
  · intro m e
    obtain ⟨hpos, hval⟩ := Frac.scale_ofInt_value m (e - 23)
    rw [neg_sub] at hval
    exact ⟨hpos, hval⟩
  · obtain ⟨hpos, hval⟩ := Frac.scale_ofInt_value x.mant (x.exp - 31)
    rw [neg_sub] at hval
    exact ⟨hpos, hval, extBytes_fields ⟨hlo, hhi⟩ ⟨helo, hehi⟩⟩

end Sys2Proof

/-! The proofs of the family 09_placement: what the rows of calibration do (O45). -/

namespace Sys2Proof.Machine

/-! ### The banks of the NV store (R373, R375) -/

section
variable (s : State)

/-- BANK_SWITCH of a written bank: at the first strobe from the one that its writing named. -/
theorem exec_bankSwitch_written {oid : Option Nat} {n : Nat} (h : s.dev.cal.written = some (oid, n)) :
    exec .bankSwitch s = .next (s.after
      ((s.dev.advance (s.dev.strobeFrom (max s.dev.now (s.dev.frameTick n)))).switchBank oid)) := by
  show execBankSwitch s = _
  rw [execBankSwitch, h, commit]

theorem exec_bankSwitch_idle (h : s.dev.cal.written = none) : exec .bankSwitch s = .next (s.after s.dev) := by
  show execBankSwitch s = _
  rw [execBankSwitch, h, commit]

/-- The hourly check of the inactive bank, which `good` says is sound: a bad one becomes invalid, but not while it is being written. -/
def Dev.checkInactive (d : Dev) (good : Bool) : Dev :=
  let second := d.flag F.calStat_active
  let other := if second then d.cal.bankA else d.cal.bankB
  if good = false ∧ other.valid = true ∧ d.cal.written = none then d.voidInactive.event 0x0A04 (b2n (!second)) (le 1 1) else d

/-- A bad active bank is told and written anew into the other place, but not while a bank waits for its strobe. -/
def Dev.rewriteActive (d : Dev) (second : Bool) : Dev :=
  let d1 := d.event 0x0A04 (b2n second) (le 1 2)
  if d1.cal.written = none then d1.writeBank d1.bank none else d1

/-- NV_HOURLY_CHECK: the inactive bank first, then the active one. -/
theorem exec_nvHourlyCheck (okA okB : Bool) :
    let second := s.dev.flag F.calStat_active
    let d1 := s.dev.checkInactive (if second then okA else okB)
    exec (.nvHourlyCheck okA okB) s = .next (s.after
      (if (if second then okB else okA) = false ∧ s.dev.bank.valid = true then d1.rewriteActive second else d1)) := by
  show execNvHourlyCheck okA okB s = _
  rcases h : s.dev.flag F.calStat_active <;>
    simp [execNvHourlyCheck, commit, Dev.checkInactive, Dev.rewriteActive, h, and_assoc]

/-! ### The end of a job (R377) -/

theorem Dev.not_unmeasured {d : Dev} {j : CalJob} (hm : j.kind = 4 ∨ j.kind = 5 → d.jobMeasured j = true) :
    ¬ ((j.kind = 4 ∨ j.kind = 5) ∧ d.jobMeasured j = false) :=
  fun ⟨hkind, hnot⟩ => Bool.false_ne_true (hnot.symm.trans (hm hkind))

theorem exec_calJobComplete_noJob (good stored : Bool) (recs : List NvRec) (h : s.dev.cal.job = none) :
    exec (.calJobComplete good stored recs) s = .next (s.after s.dev) := by
  show execCalJobComplete good stored recs s = _
  simp only [execCalJobComplete, commit, h]

section
variable {j : CalJob} (hj : s.dev.cal.job = some j)
include hj

/-- A job ends only once the bank that is written has been switched to. -/
theorem exec_calJobComplete_writing (good stored : Bool) (recs : List NvRec) (hw : s.dev.cal.written ≠ none) :
    exec (.calJobComplete good stored recs) s = .next (s.after s.dev) := by
  show execCalJobComplete good stored recs s = _
  simp only [execCalJobComplete, commit, hj, Option.isSome_iff_ne_none.mpr hw, if_true]

variable (hw : s.dev.cal.written = none)
include hw

/-- An implausible correction fails a job of any kind. -/
theorem exec_calJobComplete_implausible (stored : Bool) (recs : List NvRec) :
    exec (.calJobComplete false stored recs) s = .next (s.after (s.dev.failJob j)) := by
  show execCalJobComplete false stored recs s = _
  simp [execCalJobComplete, commit, hj, hw]

/-- A job of kind 7 writes the image of the active bank to the host. -/
theorem exec_calJobComplete_export (stored : Bool) (recs : List NvRec) (hkind : j.kind = 7) :
    let img := (bankImage s.dev.bank).take j.length
    exec (.calJobComplete true stored recs) s = .next (s.after
      (((s.dev.send (.hostWrite j.addr img)).clearJob j true).reportJob j true (le 4 s.dev.bank.ident ++ le 4 img.length))) := by
  show execCalJobComplete true stored recs s = _
  simp [execCalJobComplete, commit, hj, hw, hkind]

/-- A rake or live job with an element not yet measured waits for it, up to 60 s. -/
theorem exec_calJobComplete_unmeasured (stored : Bool) (recs : List NvRec) (hkind : j.kind = 4 ∨ j.kind = 5)
    (hm : s.dev.jobMeasured j = false) :
    exec (.calJobComplete true stored recs) s = .next (s.after
      (if j.began + 60 * tickS ≤ s.dev.now then s.dev.failJob j else s.dev)) := by
  have hnoExport : j.kind ≠ 7 := by omega
  show execCalJobComplete true stored recs s = _
  simp [execCalJobComplete, commit, hj, hw, hnoExport, hkind, hm]

section
variable {recs : List NvRec} (hkind : j.kind ≠ 7) (hm : j.kind = 4 ∨ j.kind = 5 → s.dev.jobMeasured j = true)
include hkind hm

/-- A measured job whose bank cannot be built fails. -/
theorem exec_calJobComplete_noBank (stored : Bool) (hb : s.dev.jobBank j recs = none) :
    exec (.calJobComplete true stored recs) s = .next (s.after (s.dev.failJob j)) := by
  show execCalJobComplete true stored recs s = _
  simp [execCalJobComplete, commit, hj, hw, hkind, Dev.not_unmeasured hm, hb]

section
variable {b : Bank} (hb : s.dev.jobBank j recs = some b)
include hb

/-- A job whose bank is not stored fails, and the place that it was to fill is left invalid. -/
theorem exec_calJobComplete_notStored :
    exec (.calJobComplete true false recs) s = .next (s.after ((s.dev.voidInactive.raise 301).failJob j)) := by
  show execCalJobComplete true false recs s = _
  simp [execCalJobComplete, commit, hj, hw, hkind, Dev.not_unmeasured hm, hb]

/-- A job writes the bank that it builds. An import leaves the gathered results. -/
theorem exec_calJobComplete_stored :
    let d1 := s.dev.writeBank b (some j.oid)
    exec (.calJobComplete true true recs) s = .next (s.after
      (if j.kind = 6 then d1 else { d1 with cal := { d1.cal with gathered := [], firstResult := none } })) := by
  show execCalJobComplete true true recs s = _
  simp [execCalJobComplete, commit, hj, hw, hkind, Dev.not_unmeasured hm, hb]

end

end

end

/-! ### The commit of gathered results (R382) -/

theorem exec_calCommit_nothing (stored : Bool) (h : s.dev.cal.firstResult = none) :
    exec (.calCommit stored) s = .next (s.after s.dev) := by
  show execCalCommit stored s = _
  rw [execCalCommit, h, commit]

/-- The instant of a commit: at once with 64 elements, otherwise 60 s after the first result, which came at tick `t`. -/
def Dev.atCommit (d : Dev) (t : Nat) : Dev := if d.cal.gathered.length < 64 then d.advance (t + 60 * tickS) else d

/-- No job runs, no bank waits for its strobe, and CAL is enabled. -/
def Dev.mayCommit (d : Dev) : Prop := d.cal.job = none ∧ d.cal.written = none ∧ d.flag F.calCtrl_en = true

theorem Dev.mayCommit_iff (d : Dev) : d.mayCommit ↔ (d.cal.job.isSome || d.cal.written.isSome || !d.flag F.calCtrl_en) = false := by
  simp [Dev.mayCommit, and_assoc]

section
variable {t : Nat} (ht : s.dev.cal.firstResult = some t)
include ht

/-- Where the commit is not stored, the place that it was to fill is left invalid. -/
theorem exec_calCommit_notStored (hmay : (s.dev.atCommit t).mayCommit) :
    exec (.calCommit false) s = .next (s.after ((s.dev.atCommit t).voidInactive.raise 301)) := by
  have hfree := (Dev.mayCommit_iff _).mp hmay
  rw [Dev.atCommit] at hfree
  show execCalCommit false s = _
  simp only [execCalCommit, commit, ht, hfree, Bool.false_eq_true, if_false, Bool.not_false, if_true]
  rfl

/-- The gathered results join the active bank, which is written. -/
theorem exec_calCommit_stored (hmay : (s.dev.atCommit t).mayCommit) :
    let d := s.dev.atCommit t
    let d1 := d.writeBank (d.cal.gathered.foldl d.joinResult d.bank) none
    exec (.calCommit true) s = .next (s.after { d1 with cal := { d1.cal with gathered := [], firstResult := none } }) := by
  have hfree := (Dev.mayCommit_iff _).mp hmay
  rw [Dev.atCommit] at hfree
  show execCalCommit true s = _
  simp only [execCalCommit, commit, ht, hfree, Bool.false_eq_true, if_false, Bool.not_true]
  rfl

theorem exec_calCommit_waits (stored : Bool) (hmay : ¬ (s.dev.atCommit t).mayCommit) :
    exec (.calCommit stored) s = .next (s.after s.dev) := by
  have hbusy := eq_true_of_ne_false (mt (Dev.mayCommit_iff _).mpr hmay)
  rw [Dev.atCommit] at hbusy
  show execCalCommit stored s = _
  simp only [execCalCommit, commit, ht, hbusy, if_true]

end

/-! ### Rakes and live steps (R379, R380) -/

/-- An end whose result has come is no longer awaited. -/
def Dev.takeEnd (d : Dev) (x : CalEnd) : Dev := { d with cal := { d.cal with ended := d.cal.ended.erase x } }

/-- The device with a jump registered on the rake of another sluice, where one came (R149). -/
def Dev.rakeJumped (d : Dev) (jump : Option Nat) : Dev :=
  match jump with
  | some j => d.registerJump j d.now
  | none => d

/-- One more rake completed. -/
def Dev.countRake (d : Dev) : Dev := d.setFld F.calRakeCount_completed (d.fld F.calRakeCount_completed + 1)

/-- A rake with an implausible result fails the job that asked for it, and otherwise leaves the queue. -/
def Dev.rejectRake (d : Dev) (el : Nat) : Dev :=
  let unqueued : Dev := { d with cal := { d.cal with items := d.cal.items.filter (fun i => i.el ≠ el) } }
  match d.cal.job with
  | some j => if d.cal.items.any (fun i => i.el = el && i.job) then d.failJob j else unqueued
  | none => unqueued

/-- The judgement of what the rake `x` measured, with `x` no longer awaited. -/
def Dev.judgeRake (d : Dev) (x : CalEnd) (r : RakeResult) : Dev :=
  if !d.cal.items.any (fun i => i.el = x.el) then d
  else if x.invalid || !r.valid || decide (r.element ≠ x.el) then d.rakeInvalid x.el
  else if d.countRake.plausible r then d.countRake.gather r false
  else d.countRake.rejectRake x.el

/-- The rake that sluice `k` has played is judged, where one is awaited there. -/
def Dev.completeRake (d : Dev) (k : Nat) (r : RakeResult) : Dev :=
  match d.cal.ended.find? (fun y => y.sluice = k && !y.live) with
  | none => d
  | some x => (d.takeEnd x).judgeRake x r

theorem exec_rakeComplete {e : SluiceEnd} (hsluice : e.sluice < 64) (hjump : ∀ j, e.jump = some j → j < 64) (r : RakeResult) :
    exec (.rakeComplete e r) s = .next (s.after ((s.dev.rakeJumped e.jump).completeRake e.sluice r)) := by
  obtain ⟨k, _ | j⟩ := e
  · exact commitIf_ok (Bool.and_eq_true_iff.mpr ⟨okSluice_of_lt hsluice, rfl⟩) _ _ _
  · exact commitIf_ok (Bool.and_eq_true_iff.mpr ⟨okSluice_of_lt hsluice, okSluice_of_lt (hjump j rfl)⟩) _ _ _

/-- The live steps of an element with the one that ends at tick `now`: those of the last hour. -/
def CalItem.stepsOfHour (i : CalItem) (now : Nat) : List Nat := i.steps.filter (fun t => decide (now ≤ t + 3600 * tickS)) ++ [now]

/-- An element keeps its live steps while they make no result. -/
def Dev.keepSteps (d : Dev) (el : Nat) (steps : List Nat) : Dev :=
  { d with cal := { d.cal with items := d.cal.items.map (fun y => if y.el = el then { y with steps := steps } else y) } }

/-- The judgement of what the live step `x` of the queued element `i` measured, the step counted. -/
def Dev.judgeLiveStep (d : Dev) (x : CalEnd) (i : CalItem) (r : RakeResult) : Dev :=
  if x.invalid || !r.valid then d
  else
    let steps := i.stepsOfHour d.now
    if 4 ≤ steps.length ∧ d.plausible r then d.gather r true
    else if 4 ≤ steps.length ∧ i.job ∧ d.cal.job.isSome then (d.cal.job.map d.failJob).getD d
    else d.keepSteps x.el steps

/-- One more live step done. -/
def Dev.countLiveStep (d : Dev) : Dev := d.setFld F.calGapStat_steps (d.fld F.calGapStat_steps + 1)

/-- The live step of the result's element is judged, where one is awaited and the element is still queued. -/
def Dev.completeLiveStep (d : Dev) (r : RakeResult) : Dev :=
  match d.cal.ended.find? (fun y => y.el = r.element && y.live) with
  | none => d
  | some x =>
    match (d.takeEnd x).cal.items.find? (fun i => i.el = x.el) with
    | none => d.takeEnd x
    | some i => (d.takeEnd x).countLiveStep.judgeLiveStep x i r

theorem exec_liveStepComplete (r : RakeResult) : exec (.liveStepComplete r) s = .next (s.after (s.dev.completeLiveStep r)) := rfl

end

section
variable {d : Dev} {x : CalEnd} {r : RakeResult}

theorem Dev.completeRake_idle {k : Nat} (h : d.cal.ended.find? (fun y => y.sluice = k && !y.live) = none) : d.completeRake k r = d := by
  rw [Dev.completeRake, h]

theorem Dev.completeRake_ended {k : Nat} (h : d.cal.ended.find? (fun y => y.sluice = k && !y.live) = some x) :
    d.completeRake k r = (d.takeEnd x).judgeRake x r := by
  rw [Dev.completeRake, h]

theorem Dev.rejectRake_ofJob {el : Nat} {j : CalJob} (hj : d.cal.job = some j)
    (hany : d.cal.items.any (fun i => i.el = el && i.job) = true) : d.rejectRake el = d.failJob j := by
  simp only [Dev.rejectRake, hj, hany, if_true]

theorem Dev.rejectRake_noJob {el : Nat} (h : d.cal.job = none ∨ d.cal.items.any (fun i => i.el = el && i.job) = false) :
    d.rejectRake el = { d with cal := { d.cal with items := d.cal.items.filter (fun i => i.el ≠ el) } } := by
  rw [Dev.rejectRake]
  rcases h with h | h
  · simp only [h]
  · rcases d.cal.job with _ | j
    · rfl
    · simp only [h, Bool.false_eq_true, if_false]

theorem Dev.judgeRake_notQueued (h : d.cal.items.any (fun i => i.el = x.el) = false) : d.judgeRake x r = d := by
  simp only [Dev.judgeRake, h, Bool.not_false, if_true]

section
variable (hqueued : d.cal.items.any (fun i => i.el = x.el) = true)
include hqueued

theorem Dev.judgeRake_invalid (h : x.invalid = true ∨ r.valid = false ∨ r.element ≠ x.el) : d.judgeRake x r = d.rakeInvalid x.el := by
  have hbad : (x.invalid || !r.valid || decide (r.element ≠ x.el)) = true := by simpa [or_assoc] using h
  simp only [Dev.judgeRake, hqueued, hbad, Bool.not_true, Bool.false_eq_true, if_false, if_true]

/-- A rake is sound that nothing has spoiled, and whose result is good and of its own element. -/
theorem Dev.judgeRake_sound (hplayed : x.invalid = false) (hvalid : r.valid = true) (hel : r.element = x.el) :
    d.judgeRake x r = if d.countRake.plausible r then d.countRake.gather r false else d.countRake.rejectRake x.el := by
  simp [Dev.judgeRake, hqueued, hplayed, hvalid, hel]

end

section
variable {i : CalItem}

theorem Dev.completeLiveStep_idle (h : d.cal.ended.find? (fun y => y.el = r.element && y.live) = none) : d.completeLiveStep r = d := by
  rw [Dev.completeLiveStep, h]

theorem Dev.completeLiveStep_notQueued (h : d.cal.ended.find? (fun y => y.el = r.element && y.live) = some x)
    (hi : (d.takeEnd x).cal.items.find? (fun i => i.el = x.el) = none) : d.completeLiveStep r = d.takeEnd x := by
  simp only [Dev.completeLiveStep, h, hi]

theorem Dev.completeLiveStep_queued (h : d.cal.ended.find? (fun y => y.el = r.element && y.live) = some x)
    (hi : (d.takeEnd x).cal.items.find? (fun i => i.el = x.el) = some i) :
    d.completeLiveStep r = (d.takeEnd x).countLiveStep.judgeLiveStep x i r := by
  simp only [Dev.completeLiveStep, h, hi]

theorem Dev.judgeLiveStep_invalid (h : x.invalid = true ∨ r.valid = false) : d.judgeLiveStep x i r = d := by
  have hbad : (x.invalid || !r.valid) = true := by simpa using h
  rw [Dev.judgeLiveStep, if_pos hbad]

variable (hplayed : x.invalid = false) (hvalid : r.valid = true)
include hplayed hvalid

/-- With four steps in an hour the element has its result. -/
theorem Dev.judgeLiveStep_fourth (h4 : 4 ≤ (i.stepsOfHour d.now).length) (hplausible : d.plausible r = true) :
    d.judgeLiveStep x i r = d.gather r true := by
  simp only [Dev.judgeLiveStep, hplayed, hvalid, Bool.not_true, Bool.or_self, Bool.false_eq_true, if_false]
  rw [if_pos ⟨h4, hplausible⟩]

theorem Dev.judgeLiveStep_implausible {j : CalJob} (h4 : 4 ≤ (i.stepsOfHour d.now).length) (hplausible : d.plausible r = false)
    (hi : i.job = true) (hj : d.cal.job = some j) : d.judgeLiveStep x i r = d.failJob j := by
  simp only [Dev.judgeLiveStep, hplayed, hvalid, Bool.not_true, Bool.or_self, Bool.false_eq_true, if_false, hplausible, and_false]
  rw [if_pos ⟨h4, hi, Option.isSome_iff_exists.mpr ⟨j, hj⟩⟩, hj]
  rfl

/-- Before the fourth step, and after an implausible result that no job asked for, the steps are kept. -/
theorem Dev.judgeLiveStep_kept
    (h : (i.stepsOfHour d.now).length < 4 ∨ d.plausible r = false ∧ (i.job = false ∨ d.cal.job = none)) :
    d.judgeLiveStep x i r = d.keepSteps x.el (i.stepsOfHour d.now) := by
  simp only [Dev.judgeLiveStep, hplayed, hvalid, Bool.not_true, Bool.or_self, Bool.false_eq_true, if_false]
  rcases h with h | ⟨hplausible, hnoJob⟩
  · rw [if_neg fun hc => h.not_ge hc.1, if_neg fun hc => h.not_ge hc.1]
  · rw [if_neg (by simp [hplausible]), if_neg (by rcases hnoJob with h | h <;> simp [h])]

end

end

/-! ### Gaps (R231, R381) -/

section
variable (s : State)

section
variable {i : Nat} {g : Gap} (hg : s.dev.cal.gaps[i]? = some g)
include hg

/-- A declared gap opens at its start. -/
theorem exec_gapOpen_declared :
    let d := s.dev.advance g.opens
    exec (.gapOpen i) s = .next (s.after
      (if g.isOpen then s.dev else { d with cal := { d.cal with gaps := d.cal.gaps.set i { g with isOpen := true } } })) := by
  show execGapOpen i s = _
  simp only [execGapOpen, commit, hg]

/-- A live step in play on the links of a gap that has ended, with no other gap of its element under way, is stopped. -/
def Dev.stopLiveStep (g : Gap) (d : Dev) (k : Nat) : Dev :=
  match (d.sluice k).cur with
  | some x => if x.oid.isNone && x.klass = 2 && !x.rake && (g.link = 0xFF || g.link = x.link) && (d.openGaps x.el).isEmpty then
      d.stopSluice k none else d
  | none => d

/-- A gap ends, and with it the live steps that it let play. -/
theorem exec_declaredGapClose_declared :
    let d := s.dev.advance g.closes
    exec (.declaredGapClose i) s = .next (s.after
      (sluiceNumbers.foldl (Dev.stopLiveStep g) { d with cal := { d.cal with gaps := d.cal.gaps.eraseIdx i } })) := by
  show execDeclaredGapClose i s = _
  simp only [execDeclaredGapClose, commit, hg]
  rfl

end

theorem exec_gapOpen_noGap {i : Nat} (hg : s.dev.cal.gaps[i]? = none) : exec (.gapOpen i) s = .next (s.after s.dev) := by
  show execGapOpen i s = _
  simp only [execGapOpen, commit, hg]

theorem exec_declaredGapClose_noGap {i : Nat} (hg : s.dev.cal.gaps[i]? = none) :
    exec (.declaredGapClose i) s = .next (s.after s.dev) := by
  show execDeclaredGapClose i s = _
  simp only [execDeclaredGapClose, commit, hg]

section
variable {n : Nat} (hn : n < 1024)
include hn

/-- A live circuit that has been dark for 400 frames has a gap, noted once for each darkness. -/
theorem exec_detectedGapOpen_dark {x : Circuit} (hx : s.dev.circuit n = some x) (hlive : x.state = 2) (hdark : x.dark = true) :
    let d := s.dev.advance (x.darkAt + 400 * tickFrame)
    exec (.detectedGapOpen n) s = .next (s.after
      (if d.cal.detected.any (fun y => y.1 = n && decide (x.darkAt ≤ y.2)) then d
       else { d with cal := { d.cal with detected := d.cal.detected.filter (fun y => y.1 ≠ n) ++ [(n, d.now)] } })) := by
  show execDetectedGapOpen n s = _
  rw [execDetectedGapOpen, commitIf_ok (decide_eq_true hn)]
  simp only [hx, hlive, hdark, and_self, if_true]

theorem exec_detectedGapOpen_lit (h : ∀ x, s.dev.circuit n = some x → x.state ≠ 2 ∨ x.dark = false) :
    exec (.detectedGapOpen n) s = .next (s.after s.dev) := by
  show execDetectedGapOpen n s = _
  rw [execDetectedGapOpen, commitIf_ok (decide_eq_true hn)]
  rcases hx : s.dev.circuit n with _ | x
  · rfl
  · have hlit : ¬ (x.state = 2 ∧ x.dark = true) := fun ⟨hlive, hdark⟩ =>
      (h x hx).elim (· hlive) fun hnot => Bool.false_ne_true (hnot.symm.trans hdark)
    simp only [if_neg hlit]

end

/-- A gap of circuit `n` that is noted for the darkness which began at tick `t`. -/
theorem Dev.detectedGap_iff (d : Dev) (n t : Nat) :
    d.cal.detected.any (fun y => y.1 = n && decide (t ≤ y.2)) = true ↔ ∃ y ∈ d.cal.detected, y.1 = n ∧ t ≤ y.2 := by
  simp only [List.any_eq_true, Bool.and_eq_true, decide_eq_true_eq]

/-! ### Enable (R383) -/

theorem exec_calDisable : exec .calDisable s = .next (s.after (if s.dev.flag F.calCtrl_en then s.dev.calOff else s.dev)) := rfl

theorem exec_calEnable : exec .calEnable s = .next (s.after (if s.dev.flag F.calCtrl_en then s.dev else s.dev.calOn)) := rfl

end

/-- Settles O45: one equation for each row, and the branch that its condition takes. -/
theorem calibrationRowsTakeEffect : Obligations.CalibrationRowsTakeEffect := by
  intro s
  refine ⟨fun oid n => exec_bankSwitch_written s, exec_bankSwitch_idle s, ?_, ?_, exec_calJobComplete_noJob s,
    fun t ht => ⟨exec_calCommit_notStored s ht, exec_calCommit_stored s ht, exec_calCommit_waits s ht⟩, exec_calCommit_nothing s,
    ?_, ?_, ?_, fun i hg => ⟨exec_gapOpen_noGap s hg, exec_declaredGapClose_noGap s hg⟩, ?_, ?_, ?_⟩
  · intro okA okB second other good goodOther d1
    have hrow : exec (.nvHourlyCheck okA okB) s = .next (s.after
        (if good = false ∧ s.dev.bank.valid = true then d1.rewriteActive second else d1)) :=
      exec_nvHourlyCheck s okA okB
    clear_value d1
    refine ⟨fun h => ?_, fun hbad hvalid => ⟨fun hw => ?_, fun hw => ?_⟩⟩
    · rw [hrow, if_neg (by rcases h with h | h <;> simp [h])]
    · rw [hrow, if_pos ⟨hbad, hvalid⟩, Dev.rewriteActive, if_pos hw]
    · rw [hrow, if_pos ⟨hbad, hvalid⟩, Dev.rewriteActive, if_neg hw]
  · intro j recs hj
    refine ⟨fun good stored hw => exec_calJobComplete_writing s hj good stored recs hw, fun hw =>
      ⟨fun stored => exec_calJobComplete_implausible s hj hw stored recs, fun stored hkind => exec_calJobComplete_export s hj hw stored recs hkind,
        fun stored hkind hm => ?_, fun hkind hm => ⟨exec_calJobComplete_noBank s hj hw hkind hm, fun b hb =>
          ⟨exec_calJobComplete_notStored s hj hw hkind hm hb, exec_calJobComplete_stored s hj hw hkind hm hb⟩⟩⟩⟩
    rw [exec_calJobComplete_unmeasured s hj hw stored recs hkind hm]
    exact ⟨fun hlate => by rw [if_pos hlate], fun hearly => by rw [if_neg hearly.not_ge]⟩
  · intro e r hsluice hjump d found
    have hrow : exec (.rakeComplete e r) s = .next (s.after (d.completeRake e.sluice r)) := exec_rakeComplete s hsluice hjump r
    clear_value d
    refine ⟨fun hnone => ?_, fun x hx => ?_⟩
    · rw [hrow, Dev.completeRake_idle hnone]
    · intro d1
      have hjudged : d.completeRake e.sluice r = d1.judgeRake x r := Dev.completeRake_ended hx
      rw [hrow, hjudged]
      clear_value d1
      refine ⟨fun h => ?_, fun hq h => ?_, fun hq hplayed hvalid hel => ?_⟩
      · rw [Dev.judgeRake_notQueued h]
      · rw [Dev.judgeRake_invalid hq h]
      · intro d2
        have hsound : d1.judgeRake x r = if d2.plausible r then d2.gather r false else d2.rejectRake x.el :=
          Dev.judgeRake_sound hq hplayed hvalid hel
        rw [hsound]
        refine ⟨fun hp => ?_, fun j hp hj hany => ?_, fun hp h => ?_⟩
        · rw [if_pos hp]
        · rw [if_neg (Bool.eq_false_iff.mp hp), Dev.rejectRake_ofJob hj hany]
        · rw [if_neg (Bool.eq_false_iff.mp hp), Dev.rejectRake_noJob h]
  · intro r found
    have hrow := exec_liveStepComplete s r
    refine ⟨fun hnone => ?_, fun x hx => ⟨fun hnone => ?_, fun i hi => ?_⟩⟩
    · rw [hrow, Dev.completeLiveStep_idle hnone]
    · rw [hrow, Dev.completeLiveStep_notQueued hx hnone]
      rfl
    · intro d2 steps kept
      have hjudged : s.dev.completeLiveStep r = d2.judgeLiveStep x i r := Dev.completeLiveStep_queued hx hi
      rw [hrow, hjudged]
      refine ⟨fun h => ?_, fun hplayed hvalid h4 hp => ?_, fun j hplayed hvalid h4 hp hjob hj => ?_, fun hplayed hvalid h => ?_⟩
      · rw [Dev.judgeLiveStep_invalid h]
      · rw [Dev.judgeLiveStep_fourth hplayed hvalid h4 hp]
      · rw [Dev.judgeLiveStep_implausible hplayed hvalid h4 hp hjob hj]
      · rw [Dev.judgeLiveStep_kept hplayed hvalid h]
        rfl
  · intro i g hg
    refine ⟨fun hclosed => ?_, fun hopen => ?_, exec_declaredGapClose_declared s hg⟩
    · rw [exec_gapOpen_declared s hg, if_neg (Bool.eq_false_iff.mp hclosed)]
    · rw [exec_gapOpen_declared s hg, if_pos hopen]
  · intro n hn
    refine ⟨fun x hx hlive hdark => ?_, exec_detectedGapOpen_lit s hn⟩
    rw [exec_detectedGapOpen_dark s hn hx hlive hdark]
    refine ⟨fun h => ?_, fun h => ?_⟩
    · rw [if_pos ((Dev.detectedGap_iff _ _ _).mpr h)]
    · rw [if_neg (mt (Dev.detectedGap_iff _ _ _).mp fun ⟨y, hy, heq, hle⟩ => (h y hy heq).not_ge hle)]
  · intro hen
    simp only [exec_calDisable, exec_calEnable, hen, if_true, and_self]
  · intro hen
    simp only [exec_calDisable, exec_calEnable, hen, Bool.false_eq_true, if_false, and_self]

end Sys2Proof.Machine

/-! The proofs of the family 10_element_link: what the rows of the element links do (O47). -/

namespace Sys2Proof.Machine

theorem okLink_of_lt {l : Nat} (hl : l < 32) : okLink l = true := decide_eq_true hl

/-! ### Enable and drain (R256, R259) -/

section
variable {d : Dev} {l : Nat}

theorem Dev.linkOn_enabled (h : d.bitAt R.elkLinkEn l = true) : d.linkOn l = d := if_pos h

theorem Dev.linkOn_disabled (h : d.bitAt R.elkLinkEn l = false) :
    d.linkOn l = ((d.setBitAt R.elkLinkEn l true).setBitAt R.elkDrained l false).enterState l 1 :=
  if_neg (Bool.eq_false_iff.mp h)

theorem Dev.linkOff_disabled (h : d.bitAt R.elkLinkEn l = false) : d.linkOff l = d := by
  rw [Dev.linkOff, h, Bool.not_false, if_pos rfl]

/-- A link that is up drains, any other stops at once. -/
theorem Dev.linkOff_enabled (h : d.bitAt R.elkLinkEn l = true) :
    let d1 := d.setBitAt R.elkLinkEn l false
    d.linkOff l = if d.linkState l = 6 then
        (((d1.setBitAt R.cpxReady0 l false).setFld (F.elkLinkStat_state l) 7).drainMoves l).checkLinkDrained l
      else (d1.enterState l 0).setBitAt R.elkDrained l true := by
  rw [Dev.linkOff, h, Bool.not_true, if_neg Bool.false_ne_true]

end

/-! ### Training (R77, R256) -/

section
variable {d : Dev} {l : Nat}

/-- A link that is disabled, or that waits to be tried again, does not train. -/
theorem Dev.trainLink_waits (h : d.bitAt R.elkLinkEn l = false ∨ (d.elink l).retryAt.isSome = true) : d.trainLink l = d := by
  have hwaits : (!d.bitAt R.elkLinkEn l || (d.elink l).retryAt.isSome) = true := by simpa using h
  rw [Dev.trainLink, if_pos hwaits]

section
variable (hen : d.bitAt R.elkLinkEn l = true) (hretry : (d.elink l).retryAt = none)
include hen hretry

theorem Dev.trainLink_from0 (h : d.linkState l = 0) : d.trainLink l = d.enterState l 1 := by
  simp [Dev.trainLink, hen, hretry, h]

theorem Dev.trainLink_from1 (h : d.linkState l = 1) : d.trainLink l = d.enterState l 2 := by
  simp [Dev.trainLink, hen, hretry, h]

/-- State 2 ends with the answer of IDENT. -/
theorem Dev.trainLink_from2 (h : d.linkState l = 2) (hserial : (d.elink l).serial.isSome = true) (hctrls : (d.elink l).ctrls = []) :
    d.trainLink l = d.enterState l 3 := by
  simp [Dev.trainLink, hen, hretry, h, hserial, hctrls]

/-- State 3 ends with 16 echoes, whose median delay decides whether the link is too far. -/
theorem Dev.trainLink_from3 (h : d.linkState l = 3) (hechoes : 16 ≤ (d.elink l).echoes.length) :
    let m := echoMedian (d.elink l).echoes
    let d1 := d.setFld (F.elkLinkDelay_delay l) m
    d.trainLink l = if 25000 < m * 80 then d1.refuseLink l 3 else d1.enterState l 4 := by
  simp [Dev.trainLink, hen, hretry, h, hechoes.not_gt]

/-- State 4 ends with 16 good frames. -/
theorem Dev.trainLink_from4 (h : d.linkState l = 4) (hgood : 16 ≤ (d.elink l).good) : d.trainLink l = d.enterState l 5 := by
  simp [Dev.trainLink, hen, hretry, h, hgood]

/-- State 5 ends once every code has been read and `trn` is set. -/
theorem Dev.trainLink_from5 (h : d.linkState l = 5) :
    d.trainLink l = if (d.elink l).read < (d.elink l).channels then pumpReads l 8 d
      else if d.flag F.cpxReady1_trn then d.linkUp l else d := by
  simp [Dev.trainLink, hen, hretry, h]

end

end

/-! ### One equation for each row -/

/-- The device with the samples of a FASTUP record kept: the last 8 of its channel, newest first (Table 10-8). -/
def Dev.keepFast (d : Dev) (l : Nat) (b : Bytes) : Dev :=
  let new := (List.range (rd b 2 2 / 4096 % 4 + 1)).map (fun k => (rd b (8 + 4 * k) 2, rd b (10 + 4 * k) 2))
  let el := 192 * l + rd b 1 1
  { d with trn := { d.trn with fast := aput d.trn.fast el ((new.reverse ++ (aget d.trn.fast el).getD []).take 8) } }

/-- The fast-mode stream of channel `ch` closed, which the link's readiness may have waited for (R251). -/
def Dev.closeFastStream (d : Dev) (l ch : Nat) : Dev :=
  (d.setElink l { d.elink l with fastOpen := (d.elink l).fastOpen.filter (fun f => f.1 ≠ ch) }).checkParts l

/-- Of the CTRL records without a RESP, `c` and then `rest`, the one sent first (R255). -/
def oldestCtrl (c : CtrlOut) (rest : List CtrlOut) : CtrlOut := rest.foldl (fun a b => if b.sent < a.sent then b else a) c

/-- CTRL `c` sent once more (R255). -/
def Dev.resendCtrl (d : Dev) (l : Nat) (c : CtrlOut) : Dev :=
  (d.setElink l { d.elink l with ctrls := (d.elink l).ctrls.map (fun y =>
    if y.rseq = c.rseq then { y with sent := d.now, retries := y.retries + 1 } else y) }).send (.element l 5 [c.op, c.rseq, c.first, c.count])

@[simp] theorem Dev.advance_elink (d : Dev) (t l : Nat) : (d.advance t).elink l = d.elink l := rfl

section
variable (s : State) {l : Nat} (hl : l < 32)
include hl

theorem exec_linkEnable : exec (.linkEnable l) s = .next (s.after (s.dev.linkOn l)) := commitIf_ok (okLink_of_lt hl) _ _ _

theorem exec_linkDisable : exec (.linkDisable l) s = .next (s.after (s.dev.linkOff l)) := commitIf_ok (okLink_of_lt hl) _ _ _

theorem exec_linkTrainStep : exec (.linkTrainStep l) s = .next (s.after (s.dev.trainLink l)) := commitIf_ok (okLink_of_lt hl) _ _ _

/-- A link that failed in training starts again at its instant, if it is still enabled. -/
theorem exec_linkRetryTimer_due {t : Nat} (ht : (s.dev.elink l).retryAt = some t) :
    exec (.linkRetryTimer l) s = .next (s.after
      (if s.dev.bitAt R.elkLinkEn l then (s.dev.advance t).enterState l 1 else s.dev)) := by
  show execLinkRetryTimer l s = _
  simp only [execLinkRetryTimer, commitIf_ok (okLink_of_lt hl), ht]

theorem exec_linkRetryTimer_undue (h : (s.dev.elink l).retryAt = none ∨ s.dev.bitAt R.elkLinkEn l = false) :
    exec (.linkRetryTimer l) s = .next (s.after s.dev) := by
  rcases ht : (s.dev.elink l).retryAt with _ | t
  · show execLinkRetryTimer l s = _
    simp only [execLinkRetryTimer, commitIf_ok (okLink_of_lt hl), ht]
  · have hen : s.dev.bitAt R.elkLinkEn l = false := h.resolve_left (by simp [ht])
    rw [exec_linkRetryTimer_due s hl ht, if_neg (Bool.eq_false_iff.mp hen)]

/-- A link is lost from state 2 on, by the loss of block lock or after 400 frames of silence. -/
theorem exec_linkLost (why : Nat) :
    exec (.linkLost l why) s = .next (s.after
      (if decide (2 ≤ s.dev.linkState l) && (why = 1 || (why = 2 && decide (400 ≤ (s.dev.elink l).silent))) then
        s.dev.loseLink l why else s.dev)) :=
  commitIf_ok (okLink_of_lt hl) _ _ _

theorem exec_linkLate :
    exec (.linkLate l) s = .next (s.after
      (if s.dev.linkReady l && decide (s.dev.fld F.elkCfg_lateMax ≤ (s.dev.elink l).masked) then
        (((s.dev.setElink l { s.dev.elink l with masked := 0 }).setFlag (F.elkLinkErr_late l) true).event 0x0211 l
          (le 4 (s.dev.frame % 2 ^ 32))).raise (32 + l)
      else s.dev)) :=
  commitIf_ok (okLink_of_lt hl) _ _ _

section
variable (r : WireRec)

/-- The four questions that a SAMPLES record is asked: whether the link listens, its CRC, its unit, and its frame and part. -/
theorem exec_samplesReceived :
    let d := s.dev
    let b := r.bytes
    exec (.samplesReceived l r) s = .next (s.after
      (if d.linkState l < 2 ∨ (d.elink l).retryAt.isSome then d
      else if !recOk b 224 0x4B then (d.discardRec l).losePart l
      else if b2n (bit (rd b 1 1) 2) ≠ d.unit then
        (((d.setFlag (F.elkLinkStat_port l) (bit (rd b 1 1) 2)).setBitAt R.cpxReady0 l false).refuseLink l 2).freeLinkSluices l
      else if d.linkState l < 4 ∨ rd b 2 2 ≠ d.frame % 65536 ∨ bit (d.elink l).gotParts (rd b 1 1 % 4) then d
      else d.takePart l b)) :=
  commitIf_ok (okLink_of_lt hl) _ _ _

theorem exec_fastupReceived_bad (h : recOk r.bytes 24 0x55 = false ∨ 191 < rd r.bytes 1 1) :
    exec (.fastupReceived l r) s = .next (s.after (s.dev.discardRec l)) := by
  have hbad : (!recOk r.bytes 24 0x55 || decide (191 < rd r.bytes 1 1)) = true := by simpa using h
  show execFastupReceived l r s = _
  simp only [execFastupReceived, commitIf_ok (okLink_of_lt hl), hbad, if_true]

/-- The samples are kept, and `last` closes the channel's stream. -/
theorem exec_fastupReceived_sound (hok : recOk r.bytes 24 0x55 = true) (hch : rd r.bytes 1 1 ≤ 191) :
    let d1 := s.dev.keepFast l r.bytes
    exec (.fastupReceived l r) s = .next (s.after
      (if bit (rd r.bytes 2 2) 15 then d1.closeFastStream l (rd r.bytes 1 1) else d1)) := by
  have hsound : (!recOk r.bytes 24 0x55 || decide (191 < rd r.bytes 1 1)) = false := by simp [hok, hch]
  show execFastupReceived l r s = _
  simp only [execFastupReceived, commitIf_ok (okLink_of_lt hl), hsound, Bool.false_eq_true, if_false]
  rfl

theorem exec_respReceived_bad (rt : Nat) (h : recOk r.bytes 32 0xC3 = false) :
    exec (.respReceived l r rt) s = .next (s.after (s.dev.discardRec l)) := by
  show execRespReceived l r rt s = _
  simp only [execRespReceived, commitIf_ok (okLink_of_lt hl), h, Bool.not_false, if_true]

section
variable (rt : Nat) (h : recOk r.bytes 32 0xC3 = true)
include h

/-- A RESP ends the CTRL of its number and operation. -/
theorem exec_respReceived_answers {y : CtrlOut}
    (hy : (s.dev.elink l).ctrls.find? (fun y => y.rseq = rd r.bytes 2 2 && y.op = rd r.bytes 1 1) = some y) :
    exec (.respReceived l r rt) s = .next (s.after (s.dev.takeResp l y r.bytes rt)) := by
  show execRespReceived l r rt s = _
  simp only [execRespReceived, commitIf_ok (okLink_of_lt hl), h, Bool.not_true, Bool.false_eq_true, if_false, hy]

theorem exec_respReceived_stray
    (hnone : (s.dev.elink l).ctrls.find? (fun y => y.rseq = rd r.bytes 2 2 && y.op = rd r.bytes 1 1) = none) :
    exec (.respReceived l r rt) s = .next (s.after s.dev) := by
  show execRespReceived l r rt s = _
  simp only [execRespReceived, commitIf_ok (okLink_of_lt hl), h, Bool.not_true, Bool.false_eq_true, if_false, hnone]

end

end

theorem exec_ctrlTimeout_idle (h : (s.dev.elink l).ctrls = []) : exec (.ctrlTimeout l) s = .next (s.after s.dev) := by
  show execCtrlTimeout l s = _
  simp only [execCtrlTimeout, commitIf_ok (okLink_of_lt hl), h]

/-- At the time-out of the oldest CTRL it is sent again, or its retries are used up and the link is lost (R255). -/
theorem exec_ctrlTimeout_waiting {c : CtrlOut} {rest : List CtrlOut} (h : (s.dev.elink l).ctrls = c :: rest) :
    let old := oldestCtrl c rest
    let d1 := s.dev.advance (old.sent + s.dev.fld F.elkCfg_ctrlTmo * tickUs)
    exec (.ctrlTimeout l) s = .next (s.after
      (if old.retries < s.dev.fld F.elkCfg_ctrlRetry then d1.resendCtrl l old
      else (d1.setFlag (F.elkLinkErr_ctrlTmo l) true).loseLink l 3)) := by
  show execCtrlTimeout l s = _
  simp only [execCtrlTimeout, commitIf_ok (okLink_of_lt hl), Dev.resendCtrl, Dev.advance_elink, h]
  rfl

end

/-- Settles O47: one equation for each row, and the branch that its condition takes. -/
theorem elementLinkRowsTakeEffect : Obligations.ElementLinkRowsTakeEffect := by
  intro s l r hl b x
  refine ⟨fun hen => ⟨?_, fun h6 => ?_, fun hnot6 => ?_⟩, fun hen => ⟨?_, ?_⟩, fun h => ?_, fun hen hretry => ?_,
    fun t ht hen => ?_, exec_linkRetryTimer_undue s hl, fun h2 => ⟨?_, fun hsilent => ?_, fun hheard => ?_⟩, fun h2 why => ?_,
    fun hready hmasked => ?_, fun h => ?_, fun hdeaf => ?_, fun h2 hretry => ?_, fun hok hch => ?_, exec_fastupReceived_bad s hl r,
    exec_respReceived_bad s hl r, fun rt y hok hy => exec_respReceived_answers s hl r rt hok hy,
    fun rt hok hnone => exec_respReceived_stray s hl r rt hok hnone, exec_ctrlTimeout_idle s hl, fun c rest hctrls => ?_⟩
  · rw [exec_linkEnable s hl, Dev.linkOn_enabled hen]
  · rw [exec_linkDisable s hl, Dev.linkOff_enabled hen, if_pos h6]
  · rw [exec_linkDisable s hl, Dev.linkOff_enabled hen, if_neg hnot6]
  · rw [exec_linkDisable s hl, Dev.linkOff_disabled hen]
  · rw [exec_linkEnable s hl, Dev.linkOn_disabled hen]
  · rw [exec_linkTrainStep s hl, Dev.trainLink_waits h]
  · rw [exec_linkTrainStep s hl]
    refine ⟨fun h => ?_, fun h => ?_, fun h hserial hctrls => ?_, fun h hechoes => ⟨fun hnear => ?_, fun hfar => ?_⟩, fun h hgood => ?_,
      fun h => ⟨fun hleft => ?_, fun hread htrn => ?_, fun hread htrn => ?_⟩⟩
    · rw [Dev.trainLink_from0 hen hretry h]
    · rw [Dev.trainLink_from1 hen hretry h]
    · rw [Dev.trainLink_from2 hen hretry h hserial hctrls]
    · rw [Dev.trainLink_from3 hen hretry h hechoes, if_neg hnear.not_gt]
    · rw [Dev.trainLink_from3 hen hretry h hechoes, if_pos hfar]
    · rw [Dev.trainLink_from4 hen hretry h hgood]
    · rw [Dev.trainLink_from5 hen hretry h, if_pos hleft]
    · rw [Dev.trainLink_from5 hen hretry h, if_neg hread.not_gt, if_pos htrn]
    · rw [Dev.trainLink_from5 hen hretry h, if_neg hread.not_gt, if_neg (Bool.eq_false_iff.mp htrn)]
  · rw [exec_linkRetryTimer_due s hl ht, if_pos hen]
  · rw [exec_linkLost s hl, if_pos (by simp [h2])]
  · rw [exec_linkLost s hl, if_pos (by simpa [h2] using hsilent)]
  · rw [exec_linkLost s hl, if_neg (by simpa [h2] using hheard)]
  · rw [exec_linkLost s hl, if_neg (by simp [h2.not_ge])]
  · rw [exec_linkLate s hl, if_pos (by simpa [hready] using hmasked)]
  · rw [exec_linkLate s hl, if_neg (by rcases h with h | h <;> simp [h, x])]
  · rw [exec_samplesReceived s hl, if_pos hdeaf]
  · have hlistens : ¬ (s.dev.linkState l < 2 ∨ (s.dev.elink l).retryAt.isSome = true) :=
      not_or.mpr ⟨h2.not_gt, mt Option.isSome_iff_ne_none.mp (not_not.mpr hretry)⟩
    rw [exec_samplesReceived s hl, if_neg hlistens]
    refine ⟨fun hbad => ?_, fun hok hunit => ?_, fun hok hunit h4 hframe hnew => ?_, fun hok hunit h => ?_⟩
    · rw [if_pos (by simpa using hbad)]
    · rw [if_neg (by simpa using hok), if_pos hunit]
    · have htaken : ¬ (s.dev.linkState l < 4 ∨ rd b 2 2 ≠ s.dev.frame % 65536 ∨ bit x.gotParts (rd b 1 1 % 4) = true) :=
        not_or.mpr ⟨h4.not_gt, not_or.mpr ⟨not_not.mpr hframe, Bool.eq_false_iff.mp hnew⟩⟩
      rw [if_neg (by simpa using hok), if_neg (not_not.mpr hunit), if_neg htaken]
    · rw [if_neg (by simpa using hok), if_neg (not_not.mpr hunit), if_pos h]
  · intro new el d1
    have hrow : exec (.fastupReceived l r) s = .next (s.after (if bit (rd b 2 2) 15 then d1.closeFastStream l (rd b 1 1) else d1)) :=
      exec_fastupReceived_sound s hl r hok hch
    clear_value d1
    rw [hrow]
    refine ⟨fun hmore => ?_, fun hlast => ?_⟩
    · rw [if_neg (Bool.eq_false_iff.mp hmore)]
    · rw [if_pos hlast, Dev.closeFastStream]
  · intro old d1
    have hrow : exec (.ctrlTimeout l) s = .next (s.after (if old.retries < s.dev.fld F.elkCfg_ctrlRetry then d1.resendCtrl l old
        else (d1.setFlag (F.elkLinkErr_ctrlTmo l) true).loseLink l 3)) :=
      exec_ctrlTimeout_waiting s hl hctrls
    rw [hrow]
    refine ⟨fun hretries => ?_, fun hretries => ?_⟩
    · rw [if_pos hretries, Dev.resendCtrl, Dev.advance_elink]
    · rw [if_neg hretries.not_gt]

end Sys2Proof.Machine

/-! The proofs of the family 11_cell_link: what the rows of the cell chains do (O39), and what the records of the cells do (O40). -/

namespace Sys2Proof.Machine

theorem okChain_of_lt {ch : Nat} (hch : ch < 8) : okChain ch = true := decide_eq_true hch

theorem okChainPort_of_lt {ch port : Nat} (hch : ch < 8) (hport : port < 8) : (okChain ch && decide (port < 8)) = true := by
  rw [okChain_of_lt hch, decide_eq_true hport, Bool.and_self]

/-! ### Enable and drain (R265, R281, R283) -/

section
variable {d : Dev} {ch : Nat}

theorem Dev.chainOn_refused (h : d.bitAt R.clnChainEn ch = true ∨ d.chainConflicts ch = true) : d.chainOn ch = d :=
  if_pos (by simpa using h)

/-- A chain that is enabled starts from sync where its wiring is permitted. -/
theorem Dev.chainOn_accepted (hen : d.bitAt R.clnChainEn ch = false) (hfree : d.chainConflicts ch = false) :
    let d1 := (d.setBitAt R.clnChainEn ch true).setBitAt R.clnDrained ch false
    d.chainOn ch = if d1.wiringOk ch then d1.setChainState ch 1 else d1 :=
  if_neg (by simp [hen, hfree])

theorem Dev.chainOff_refused (h : d.bitAt R.clnChainEn ch = false ∨ d.chainBusy ch = true) : d.chainOff ch = d :=
  if_pos (by simpa using h)

theorem Dev.chainOff_accepted (hen : d.bitAt R.clnChainEn ch = true) (hidle : d.chainBusy ch = false) :
    d.chainOff ch =
      ((((d.setBitAt R.clnChainEn ch false).setChainReady ch false).setChainState ch 5).clearLevel (208 + ch)).clearLevel (216 + ch) :=
  if_neg (by simp [hen, hidle])

end

section
variable (s : State) {ch : Nat} (hch : ch < 8)
include hch

theorem exec_chainEnable : exec (.chainEnable ch) s = .next (s.after (s.dev.chainOn ch)) := commitIf_ok (okChain_of_lt hch) _ _ _

theorem exec_chainDisable : exec (.chainDisable ch) s = .next (s.after (s.dev.chainOff ch)) := commitIf_ok (okChain_of_lt hch) _ _ _

end

/-! ### CMD records without an ACK (R278) -/

/-- CMD `q` taken from those of cell `n` that wait for an ACK. -/
def Dev.dropCmd (d : Dev) (n : Nat) (q : CellCmd) : Dev :=
  d.setCellNode n { d.cellNode n with cmds := (d.cellNode n).cmds.filter (fun y => y.cseq ≠ q.cseq) }

/-- CMD `q` sent once more, in a command window, to cell `n` at position `pos` of chain `c`. -/
def Dev.resendCmd (d : Dev) (n : Nat) (q : CellCmd) (c pos : Nat) : Dev :=
  ((d.advance (d.windowFrom d.now)).setCellNode n { d.cellNode n with cmds := (d.cellNode n).cmds.map (fun y =>
    if y.cseq = q.cseq then { y with sent := d.cmu.k, retries := q.retries + 1 } else y) }).sendCell (d.chainPort c pos).1 0x13
      [(d.chainPort c pos).2, q.cseq, q.op, q.tAct]

section
variable (s : State) {n : Nat} (hn : n < 48)
include hn

theorem exec_cmdTimeout_idle (h : s.dev.cmdDue n = none) : exec (.cmdTimeout n) s = .next (s.after s.dev) := by
  show execCmdTimeout n s = _
  simp only [execCmdTimeout, commitIf_ok (decide_eq_true hn), h]

section
variable {q : CellCmd} (hq : s.dev.cmdDue n = some q)
include hq

/-- A cell on an enabled chain is asked again until the retries of the CMD are used up. -/
theorem exec_cmdTimeout_placed {c pos : Nat} (hplace : s.dev.cellPlace n = some (c, pos)) :
    exec (.cmdTimeout n) s = .next (s.after
      (if q.retries < s.dev.fld F.clnCfg_cmdRetry then s.dev.resendCmd n q c pos else (s.dev.dropCmd n q).giveUpCmd n q)) := by
  show execCmdTimeout n s = _
  simp only [execCmdTimeout, commitIf_ok (decide_eq_true hn), hq, hplace]
  rfl

theorem exec_cmdTimeout_unplaced (hplace : s.dev.cellPlace n = none) :
    exec (.cmdTimeout n) s = .next (s.after ((s.dev.dropCmd n q).giveUpCmd n q)) := by
  show execCmdTimeout n s = _
  simp only [execCmdTimeout, commitIf_ok (decide_eq_true hn), hq, hplace]
  rfl

end

end

/-! ### Loss of sync, loss of a chain, and its retry (R266, R281, R282) -/

/-- Chain `ch` lost: it starts from sync after its wait, with the cause in the event 0x0710. -/
def Dev.loseChain (d : Dev) (ch cause : Nat) : Dev :=
  let d2 := (((d.setChainReady ch false).setFlag (F.clnChainErr_lost ch) true).setChainState ch 1).failChain ch
  ((d2.setChain ch { d2.chain ch with silent := 0 }).event 0x0710 ch (le 1 cause)).raiseLevel (208 + ch)

section
variable (s : State) {ch : Nat} (hch : ch < 8)
include hch

theorem exec_cellLinkSyncLoss {port : Nat} (hport : port < 8) :
    exec (.cellLinkSyncLoss ch port) s = .next (s.after
      (if (s.dev.chainPorts ch).contains port then
        (s.dev.setFlag (F.clnChainErr_sync ch) true).setChain ch
          { s.dev.chain ch with lostPorts := setBit (s.dev.chain ch).lostPorts port true }
      else s.dev)) :=
  commitIf_ok (okChainPort_of_lt hch hport) _ _ _

/-- A chain in states 2 to 4 is lost without sync on every port, or after 3 silent periods. -/
theorem exec_chainLost :
    let sync := (s.dev.chainPorts ch).all (fun p => bit (s.dev.chain ch).lostPorts p)
    exec (.chainLost ch) s = .next (s.after
      (if !(decide (2 ≤ s.dev.chainState ch) && decide (s.dev.chainState ch ≤ 4)) || !(sync || decide (3 ≤ (s.dev.chain ch).silent)) then s.dev
      else s.dev.loseChain ch (if sync then 1 else 2))) :=
  commitIf_ok (okChain_of_lt hch) _ _ _

theorem exec_chainRetryTimer_due {t : Nat} (ht : (s.dev.chain ch).retryAt = some t) :
    exec (.chainRetryTimer ch) s = .next (s.after
      (if s.dev.bitAt R.clnChainEn ch then (s.dev.advance t).setChainState ch 1 else s.dev)) := by
  show execChainRetryTimer ch s = _
  simp only [execChainRetryTimer, commitIf_ok (okChain_of_lt hch), ht]

theorem exec_chainRetryTimer_undue (h : (s.dev.chain ch).retryAt = none ∨ s.dev.bitAt R.clnChainEn ch = false) :
    exec (.chainRetryTimer ch) s = .next (s.after s.dev) := by
  rcases ht : (s.dev.chain ch).retryAt with _ | t
  · show execChainRetryTimer ch s = _
    simp only [execChainRetryTimer, commitIf_ok (okChain_of_lt hch), ht]
  · have hen : s.dev.bitAt R.clnChainEn ch = false := h.resolve_left (by simp [ht])
    rw [exec_chainRetryTimer_due s hch ht, if_neg (Bool.eq_false_iff.mp hen)]

end

/-! ### Training (R274, R281, Table 11-4) -/

section
variable (s : State) {ch : Nat} (hch : ch < 8)
include hch

theorem exec_chainTrainStep :
    exec (.chainTrainStep ch) s = .next (s.after
      (if s.dev.chainState ch = 5 then s.dev.chainDrained ch
      else if !s.dev.bitAt R.clnChainEn ch || (s.dev.chain ch).retryAt.isSome then s.dev else s.dev.trainChain ch)) :=
  commitIf_ok (okChain_of_lt hch) _ _ _

/-- A chain that is disabled, or that waits to be tried again, does not train. -/
theorem exec_chainTrainStep_waits (h5 : s.dev.chainState ch ≠ 5)
    (h : s.dev.bitAt R.clnChainEn ch = false ∨ (s.dev.chain ch).retryAt.isSome = true) :
    exec (.chainTrainStep ch) s = .next (s.after s.dev) := by
  have hwaits : (!s.dev.bitAt R.clnChainEn ch || (s.dev.chain ch).retryAt.isSome) = true := by simpa using h
  rw [exec_chainTrainStep s hch, if_neg h5, if_pos hwaits]

theorem exec_chainTrainStep_trains (hen : s.dev.bitAt R.clnChainEn ch = true) (hretry : (s.dev.chain ch).retryAt = none)
    (h5 : s.dev.chainState ch ≠ 5) : exec (.chainTrainStep ch) s = .next (s.after (s.dev.trainChain ch)) := by
  have hgoes : ¬ (!s.dev.bitAt R.clnChainEn ch || (s.dev.chain ch).retryAt.isSome) = true := by simp [hen, hretry]
  rw [exec_chainTrainStep s hch, if_neg h5, if_neg hgoes]

end

section
variable {d : Dev} {ch : Nat}

theorem Dev.trainChain_from0 (h : d.chainState ch = 0) (hwiring : d.wiringOk ch = true) : d.trainChain ch = d.setChainState ch 1 := by
  rw [Dev.trainChain, h]
  exact if_pos hwiring

theorem Dev.trainChain_from1 (h : d.chainState ch = 1) : d.trainChain ch = d.beginDiscovery ch := by
  simp only [Dev.trainChain, h]

theorem Dev.trainChain_from2 (h : d.chainState ch = 2) (hheard : d.discovered ch = true) : d.trainChain ch = d.beginDelays ch := by
  rw [Dev.trainChain, h]
  exact if_pos hheard

/-- A delay over 2 µs, which is 5000 bit times, fails the chain. -/
theorem Dev.trainChain_from3_tooFar (h : d.chainState ch = 3) (hfar : ∃ x ∈ d.chainDelays ch, 5000 < x) :
    d.trainChain ch = (d.setFlag (F.clnChainErr_tooFar ch) true).failChain ch := by
  rw [Dev.trainChain, h]
  exact if_pos (by simpa using hfar)

/-- The chain runs once every delay is known and none is too long. -/
theorem Dev.trainChain_from3_near (h : d.chainState ch = 3) (hnear : ∀ x ∈ d.chainDelays ch, x ≠ 0 ∧ x ≤ 5000) :
    d.trainChain ch = d.chainRuns ch := by
  have hnone : ¬ (d.chainDelays ch).any (fun x => decide (5000 < x)) = true := by
    simpa using fun x hx => (hnear x hx).2
  have hall : (d.chainDelays ch).all (fun x => decide (x ≠ 0)) = true := by
    simpa using fun x hx => (hnear x hx).1
  rw [Dev.trainChain, h]
  exact (if_neg hnone).trans (if_pos hall)

end

/-- Settles O39: one equation for each row, and the branch that its condition takes; the four rows that only send have no condition. -/
theorem chainRowsTakeEffect : Obligations.ChainRowsTakeEffect := by
  intro s ch hch
  refine ⟨fun hen hfree => ⟨fun hwiring => ?_, fun hwiring => ?_⟩, fun h => ?_, fun hen hidle => ?_, fun h => ?_, rfl, rfl, rfl, rfl,
    fun n hn => ⟨exec_cmdTimeout_idle s hn, fun q hq => ⟨fun c pos hplace hleft => ?_, fun c pos hplace hspent => ?_,
      exec_cmdTimeout_unplaced s hn hq⟩⟩,
    fun port hport => ⟨fun hmine => ?_, fun hother => ?_⟩, ⟨fun h2 h4 hlost => ?_, fun hkept => ?_⟩, fun h5 => ?_,
    exec_chainTrainStep_waits s hch, fun hen hretry => ?_, fun t ht hen => ?_, exec_chainRetryTimer_undue s hch⟩
  · rw [exec_chainEnable s hch, Dev.chainOn_accepted hen hfree, if_pos hwiring]
  · rw [exec_chainEnable s hch, Dev.chainOn_accepted hen hfree, if_neg (Bool.eq_false_iff.mp hwiring)]
  · rw [exec_chainEnable s hch, Dev.chainOn_refused h]
  · rw [exec_chainDisable s hch, Dev.chainOff_accepted hen hidle]
  · rw [exec_chainDisable s hch, Dev.chainOff_refused h]
  · rw [exec_cmdTimeout_placed s hn hq hplace, if_pos hleft, Dev.resendCmd]
  · rw [exec_cmdTimeout_placed s hn hq hplace, if_neg hspent.not_gt, Dev.dropCmd]
  · rw [exec_cellLinkSyncLoss s hch hport, if_pos hmine]
  · rw [exec_cellLinkSyncLoss s hch hport, if_neg (Bool.eq_false_iff.mp hother)]
  · have hgone : ((s.dev.chainPorts ch).all (fun p => bit (s.dev.chain ch).lostPorts p) || decide (3 ≤ (s.dev.chain ch).silent)) = true :=
      (Bool.or_eq_true _ _).mpr (hlost.imp_right decide_eq_true)
    rw [exec_chainLost s hch, if_neg (by simp only [hgone, h2, h4]; decide), Dev.loseChain]
  · rw [exec_chainLost s hch, if_pos (by simpa [or_assoc] using hkept)]
  · rw [exec_chainTrainStep s hch, if_pos h5, Dev.chainDrained]
  · have htrains := exec_chainTrainStep_trains s hch hen hretry
    refine ⟨fun h hwiring => ?_, fun h => ?_, fun h hheard => ?_, fun h hfar => ?_, fun h hnear => ?_⟩
    · rw [htrains (by omega), Dev.trainChain_from0 h hwiring]
    · rw [htrains (by omega), Dev.trainChain_from1 h, Dev.beginDiscovery]
    · rw [htrains (by omega), Dev.trainChain_from2 h hheard, Dev.beginDelays]
    · rw [htrains (by omega), Dev.trainChain_from3_tooFar h hfar]
    · rw [htrains (by omega), Dev.trainChain_from3_near h hnear, Dev.chainRuns]
  · rw [exec_chainRetryTimer_due s hch ht, if_pos hen]

/-! ### The questions that every record of a cell is asked (R267, R273, Table 11-4) -/

/-- The device after a record of the type `type` and the length `len`: whether its port listens (from state `least` on), its CRC and form,
whether it is `stale`, and its position decide whether it has the effect `taken`. -/
def Dev.judgeRecord (d : Dev) (ch port : Nat) (r : WireRec) (least type len : Nat) (stale : Prop) [Decidable stale] (taken : Dev) : Dev :=
  if !d.listens ch least port then d
  else if !cellRecordOk r type len then d.discardCell ch
  else if stale then d
  else if !d.posAgrees ch port r.bytes then d.bumpSat (F.clnCrcCount_posErr ch)
  else taken

theorem Dev.listens_iff (d : Dev) (ch least port : Nat) :
    d.listens ch least port = true ↔
      (d.chainState ch ≤ 4 ∧ (d.chainPorts ch).contains port = true) ∧ least ≤ d.chainState ch := by
  simp only [Dev.listens, Bool.and_eq_true, decide_eq_true_eq]
  tauto

section
variable {d : Dev} {ch port : Nat} {r : WireRec} {least type len : Nat} {stale : Prop} [Decidable stale] {taken : Dev}

theorem Dev.judgeRecord_deaf
    (h : ¬ (d.chainState ch ≤ 4 ∧ (d.chainPorts ch).contains port = true) ∨ d.chainState ch < least) :
    d.judgeRecord ch port r least type len stale taken = d := by
  have hdeaf : ¬ d.listens ch least port = true := by
    rw [Dev.listens_iff, not_and_or, not_le]
    exact h
  exact if_pos (by simpa using hdeaf)

section
variable (heard : d.chainState ch ≤ 4 ∧ (d.chainPorts ch).contains port = true) (hleast : least ≤ d.chainState ch)
include heard hleast

theorem Dev.judgeRecord_bad (hok : cellRecordOk r type len = false) :
    d.judgeRecord ch port r least type len stale taken = d.discardCell ch := by
  simp [Dev.judgeRecord, (d.listens_iff ch least port).mpr ⟨heard, hleast⟩, hok]

theorem Dev.judgeRecord_stale (hok : cellRecordOk r type len = true) (hstale : stale) :
    d.judgeRecord ch port r least type len stale taken = d := by
  simp [Dev.judgeRecord, (d.listens_iff ch least port).mpr ⟨heard, hleast⟩, hok, hstale]

section
variable (hok : cellRecordOk r type len = true) (hfresh : ¬ stale)
include hok hfresh

theorem Dev.judgeRecord_misplaced (hpos : d.posAgrees ch port r.bytes = false) :
    d.judgeRecord ch port r least type len stale taken = d.bumpSat (F.clnCrcCount_posErr ch) := by
  simp [Dev.judgeRecord, (d.listens_iff ch least port).mpr ⟨heard, hleast⟩, hok, hfresh, hpos]

theorem Dev.judgeRecord_taken (hpos : d.posAgrees ch port r.bytes = true) :
    d.judgeRecord ch port r least type len stale taken = taken := by
  simp [Dev.judgeRecord, (d.listens_iff ch least port).mpr ⟨heard, hleast⟩, hok, hfresh, hpos]

end

end

end

/-! ### MEAS (R272, R273, R280) -/

theorem Dev.recordCell_heardOn (d : Dev) (ch port : Nat) (b : Bytes) : (d.heardOn ch port).recordCell ch b = d.recordCell ch b := by
  rw [Dev.heardOn]
  split <;> rfl

/-- The measurement of cell `n` as the first MEAS of the period fills it, with the side of the port that it came by. -/
def Dev.showMeas (d : Dev) (ch n : Nat) (b : Bytes) : Dev :=
  let d1 := if (d.cellNode n).got then d else d.takeMeas ch n b
  d1.setCellNode n { d1.cellNode n with sideA := (d1.cellNode n).sideA || !bit (rd b 2 1) 1,
                                        sideB := (d1.cellNode n).sideB || bit (rd b 2 1) 1 }

/-- A unit that claims withdraws where a MEAS shows a claim of a higher rank (R280). -/
def Dev.obeyClaim (d : Dev) (ch : Nat) (b : Bytes) : Dev :=
  if d.claims && outranks (rd b 4 2) (rd b 2 1 % 2) d.term d.unit then d.chainRejected ch (rd b 4 2) (rd b 2 1 % 2) else d

/-! ### PONG (R274) -/

/-- The 16th PONG of a round gives a one-way delay and ends the round, any other is kept. -/
def Dev.takePong (d : Dev) (ch port : Nat) (b : Bytes) (rt : Nat) : Dev :=
  let n := d.recordCell ch b
  let x := d.cellNode n
  let far := d.fromB ch port
  let l := (if far then x.pingsB else x.pingsA) ++ [rt - rd b 12 4]
  let full := decide (16 ≤ l.length)
  let keep := if full then [] else l
  let d1 := d.setCellNode n (if far then { x with pingsB := keep } else { x with pingsA := keep })
  if full then d1.newDelay ch port n (rd b 3 1) (medianOf l) else d1

section
variable {d : Dev} {ch port : Nat} {b : Bytes} (rt : Nat)

theorem Dev.takePong_fromA (hnear : d.fromB ch port = false) :
    let n := d.recordCell ch b
    let x := d.cellNode n
    d.takePong ch port b rt =
      if 15 ≤ x.pingsA.length then
        (d.setCellNode n { x with pingsA := [] }).newDelay ch port n (rd b 3 1) (medianOf (x.pingsA ++ [rt - rd b 12 4]))
      else d.setCellNode n { x with pingsA := x.pingsA ++ [rt - rd b 12 4] } := by
  intro n x
  by_cases hfull : 15 ≤ x.pingsA.length <;> simp [Dev.takePong, hnear, hfull, n, x]

theorem Dev.takePong_fromB (hfar : d.fromB ch port = true) :
    let n := d.recordCell ch b
    let x := d.cellNode n
    d.takePong ch port b rt =
      if 15 ≤ x.pingsB.length then
        (d.setCellNode n { x with pingsB := [] }).newDelay ch port n (rd b 3 1) (medianOf (x.pingsB ++ [rt - rd b 12 4]))
      else d.setCellNode n { x with pingsB := x.pingsB ++ [rt - rd b 12 4] } := by
  intro n x
  by_cases hfull : 15 ≤ x.pingsB.length <;> simp [Dev.takePong, hfar, hfull, n, x]

end

/-! ### ACK (R278, R306) -/

/-- What an ACK with the status `st` gives the command that CMD `q` served: done with 0 or 3, refused with any other. -/
def Dev.endServed (d : Dev) (n : Nat) (q : CellCmd) (st : Nat) : Dev :=
  match q.oid with
  | none => d
  | some o => if st = 0 ∨ st = 3 then d.finish o (d.doneStatus o) (le 1 d.setInForce) else d.bypassFails n o

/-- An ACK ends the CMD of its number. -/
def Dev.takeAck (d : Dev) (ch : Nat) (b : Bytes) : Dev :=
  let n := d.recordCell ch b
  match (d.cellNode n).cmds.find? (fun q => q.cseq = rd b 8 4) with
  | none => d
  | some q => (d.dropCmd n q).endServed n q (rd b 12 1)

section
variable {d : Dev} {ch : Nat} {b : Bytes}

theorem Dev.takeAck_stray (h : (d.cellNode (d.recordCell ch b)).cmds.find? (fun q => q.cseq = rd b 8 4) = none) :
    d.takeAck ch b = d := by
  rw [Dev.takeAck, h]

theorem Dev.takeAck_answers {q : CellCmd} (h : (d.cellNode (d.recordCell ch b)).cmds.find? (fun q => q.cseq = rd b 8 4) = some q) :
    d.takeAck ch b = (d.dropCmd (d.recordCell ch b) q).endServed (d.recordCell ch b) q (rd b 12 1) := by
  rw [Dev.takeAck, h]

variable {n : Nat} {q : CellCmd} {st : Nat}

theorem Dev.endServed_none (h : q.oid = none) : d.endServed n q st = d := by
  rw [Dev.endServed, h]

theorem Dev.endServed_some {o : Nat} (h : q.oid = some o) :
    d.endServed n q st = if st = 0 ∨ st = 3 then d.finish o (d.doneStatus o) (le 1 d.setInForce) else d.bypassFails n o := by
  rw [Dev.endServed, h]

end

/-! ### One equation for each record -/

section
variable (s : State) {ch port : Nat} (hch : ch < 8) (hport : port < 8) (r : WireRec)
include hch hport

theorem exec_measReceived :
    exec (.measReceived ch port r) s = .next (s.after
      (s.dev.judgeRecord ch port r 2 0x20 32 (rd r.bytes 8 4 ≠ s.dev.cmu.k % 2 ^ 32)
        (((s.dev.heardOn ch port).showMeas ch (s.dev.recordCell ch r.bytes) r.bytes).obeyClaim ch r.bytes))) := by
  rw [← Dev.recordCell_heardOn s.dev ch port]
  exact commitIf_ok (okChainPort_of_lt hch hport) _ _ _

theorem exec_pongReceived (rt : Nat) :
    exec (.pongReceived ch port r rt) s = .next (s.after
      (s.dev.judgeRecord ch port r 3 0x21 24 False (s.dev.takePong ch port r.bytes rt))) :=
  commitIf_ok (okChainPort_of_lt hch hport) _ _ _

theorem exec_ackReceived :
    exec (.ackReceived ch port r) s = .next (s.after (s.dev.judgeRecord ch port r 3 0x22 20 False (s.dev.takeAck ch r.bytes))) :=
  commitIf_ok (okChainPort_of_lt hch hport) _ _ _

end

/-! ### The loss of a cell (R282, R307) -/

/-- Cell `n` of chain `c` marked as lost, with the event 0x0712. -/
def Dev.markCellLost (d : Dev) (c n : Nat) : Dev :=
  ((d.setFlag (F.clnCellStat_lost n) true).setFlag (F.clnChainErr_cellLost c) true).event 0x0712 n (le 1 (d.fld (F.clnCellStat_missed n)))

/-- A lost cell that was in service is bypassed and leaves it (R307). -/
def Dev.retireCell (d : Dev) (n : Nat) : Dev :=
  (if d.fld (F.cmuCellSvc_svc n) = 0 then (d.queueCellCmd n 0x03 0 none).cellOut n 4 3 else d).checkStopped

/-- Cell `n` of chain `c` is judged by what it misses: its chain is up, or it serves while the SST is up. -/
def Dev.cellOpen (d : Dev) (c n : Nat) : Prop :=
  d.chainState c = 4 ∨ (d.sstUp = true ∧ d.fld (F.cmuCellSvc_svc n) = 0)

/-- What keeps cell `n` of chain `c` from being lost now. -/
def Dev.cellSpared (d : Dev) (c n : Nat) : Bool :=
  (d.chainState c ≠ 4 && !(d.sstUp && decide (d.fld (F.cmuCellSvc_svc n) = 0))) || d.flag (F.clnCellStat_lost n) ||
    d.flag (F.clnCellStat_absent n) || decide ((d.cellNode n).missed < d.fld F.clnCfg_cellMiss)

theorem Dev.cellSpared_iff (d : Dev) (c n : Nat) :
    d.cellSpared c n = true ↔ ¬ d.cellOpen c n ∨ d.flag (F.clnCellStat_lost n) = true ∨ d.flag (F.clnCellStat_absent n) = true ∨
      (d.cellNode n).missed < d.fld F.clnCfg_cellMiss := by
  simp [Dev.cellSpared, Dev.cellOpen, or_assoc, not_and_or, -not_and]

section
variable (s : State) {n : Nat} (hn : n < 48)
include hn

theorem exec_cellLost_unplaced (hplace : s.dev.cellPlace n = none) : exec (.cellLost n) s = .next (s.after s.dev) := by
  show execCellLost n s = _
  simp only [execCellLost, commitIf_ok (decide_eq_true hn), hplace]

theorem exec_cellLost_placed {c pos : Nat} (hplace : s.dev.cellPlace n = some (c, pos)) :
    exec (.cellLost n) s = .next (s.after (if s.dev.cellSpared c n then s.dev else (s.dev.markCellLost c n).retireCell n)) := by
  show execCellLost n s = _
  simp only [execCellLost, commitIf_ok (decide_eq_true hn), hplace]
  rfl

end

/-- Settles O40: every record is asked the same questions, and one that is taken has the effect of its type. -/
theorem cellRecordsTakeEffect : Obligations.CellRecordsTakeEffect := by
  refine ⟨fun s ch port rt r hch hport => ?_, fun s n hn => ⟨fun ch pos hplace => ?_, exec_cellLost_unplaced s hn⟩⟩
  · intro b n x heard
    have hmeas := exec_measReceived s hch hport r
    have hpong := exec_pongReceived s hch hport r rt
    have hack := exec_ackReceived s hch hport r
    refine ⟨fun hheard h2 => ⟨fun hbad => ?_, fun hok hstale => ?_, fun hok hnow hpos => ?_, fun hok hnow hpos => ?_⟩,
      fun hheard h3 => ⟨fun hbad => ?_, fun hok hpos => ?_, fun hok hpos hnear => ?_, fun hok hpos hfar => ?_,
        fun hbad => ?_, fun hok hpos => ?_, fun hok hpos hnone => ?_, fun y hok hpos hy => ?_⟩,
      fun hdeaf => ?_, fun hdeaf => ⟨?_, ?_⟩⟩
    · rw [hmeas, Dev.judgeRecord_bad hheard h2 hbad]
    · rw [hmeas, Dev.judgeRecord_stale hheard h2 hok hstale]
    · rw [hmeas, Dev.judgeRecord_misplaced hheard h2 hok (not_not.mpr hnow) hpos]
    · rw [hmeas, Dev.judgeRecord_taken hheard h2 hok (not_not.mpr hnow) hpos]
      refine ⟨fun hlow => ?_, fun hhigh => ?_⟩
      · exact congrArg (fun d => Host.Outcome.next (s.after d)) (if_neg (Bool.eq_false_iff.mp hlow))
      · exact congrArg (fun d => Host.Outcome.next (s.after d)) (if_pos hhigh)
    · rw [hpong, Dev.judgeRecord_bad hheard h3 hbad]
    · rw [hpong, Dev.judgeRecord_misplaced hheard h3 hok not_false hpos]
    · rw [hpong, Dev.judgeRecord_taken hheard h3 hok not_false hpos, Dev.takePong_fromA rt hnear]
      exact ⟨fun hfew => by rw [if_neg hfew.not_ge], fun hfull => by rw [if_pos hfull]⟩
    · rw [hpong, Dev.judgeRecord_taken hheard h3 hok not_false hpos, Dev.takePong_fromB rt hfar]
      exact ⟨fun hfew => by rw [if_neg hfew.not_ge], fun hfull => by rw [if_pos hfull]⟩
    · rw [hack, Dev.judgeRecord_bad hheard h3 hbad]
    · rw [hack, Dev.judgeRecord_misplaced hheard h3 hok not_false hpos]
    · rw [hack, Dev.judgeRecord_taken hheard h3 hok not_false hpos, Dev.takeAck_stray hnone]
    · rw [hack, Dev.judgeRecord_taken hheard h3 hok not_false hpos, Dev.takeAck_answers hy]
      refine ⟨fun hserves => ?_, fun o hserves hdone => ?_, fun o hserves h0 h3' => ?_⟩
      · rw [Dev.endServed_none hserves, Dev.dropCmd]
      · rw [Dev.endServed_some hserves, if_pos hdone, Dev.dropCmd]
      · rw [Dev.endServed_some hserves, if_neg (not_or.mpr ⟨h0, h3'⟩), Dev.dropCmd, Dev.bypassFails]
    · rw [hmeas, Dev.judgeRecord_deaf hdeaf]
    · rw [hpong, Dev.judgeRecord_deaf hdeaf]
    · rw [hack, Dev.judgeRecord_deaf hdeaf]
  · refine ⟨fun hopen hheld hthere hmiss => ?_, fun h => ?_⟩
    · have hlost : ¬ s.dev.cellSpared ch n = true := by
        rw [Dev.cellSpared_iff]
        simp only [hheld, hthere, Bool.false_eq_true, false_or, not_or, not_not, not_lt]
        exact ⟨hopen, hmiss⟩
      rw [exec_cellLost_placed s hn hplace, if_neg hlost]
      refine ⟨fun hserves => ?_, fun hout => ?_⟩
      · rw [Dev.retireCell, Dev.markCellLost, if_pos hserves]
      · rw [Dev.retireCell, Dev.markCellLost, if_neg hout]
    · rw [exec_cellLost_placed s hn hplace, if_pos ((s.dev.cellSpared_iff ch n).mpr h)]

end Sys2Proof.Machine

/-! The proofs of the families 16_faults and 19_memory_and_matrix: the rows of the memory and of JTAG (O24), the commands of the fault manager (O15),
and its rows (O48). -/

namespace Sys2Proof.Machine

/-- Rows that leave the same device end alike. -/
theorem next_after_congr (s : State) {d d' : Dev} (h : d = d') : (.next (s.after d) : Host.Outcome State Fault Refusal) = .next (s.after d') := by
  rw [h]

/-! ### Memory errors and JTAG (R446, R447, R451, R452, R471) -/

section
variable (s : State)

theorem exec_sramUncorrectable {reader : Nat} (h : reader < 6) (arg addr : Nat) : exec (.sramUncorrectable reader arg addr) s =
    .next (s.after ((((s.dev.bumpTop R.memSramUe).errorAt 2 addr).readerFails reader arg).raise 418)) :=
  commitIf_ok (decide_eq_true h) _ _ _

theorem exec_ddrUncorrectable {ch reader : Nat} (hch : ch < 2) (h : reader < 6) (arg addr : Nat) : exec (.ddrUncorrectable ch reader arg addr) s =
    .next (s.after ((((s.dev.bumpTop (R.memDdrUe ch)).errorAt ch addr).readerFails reader arg).raise (416 + ch))) :=
  commitIf_ok (by simp [hch, h]) _ _ _

theorem exec_eccCorrectedError {ch : Nat} (hch : ch < 3) (addr : Nat) : exec (.eccCorrectedError ch addr) s =
    .next (s.after ((s.dev.bump (if ch = 2 then R.memSramCe else R.memDdrCe ch)).errorAt ch addr)) :=
  commitIf_ok (decide_eq_true hch) _ _ _

theorem exec_ddrTrainingFailed {ch : Nat} (hch : ch < 2) : exec (.ddrTrainingFailed ch) s = .next (s.after
    (((s.dev.setDstate ch 4).setFlag (F.memDdrStat_spdBad ch) true).setFlag (if ch = 0 then F.cpxReady1_ddr0 else F.cpxReady1_ddr1) false)) :=
  commitIf_ok (decide_eq_true hch) _ _ _

/-- EXTEST and SAMPLE/PRELOAD select their register while PORST_N is low, IDCODE always; any other instruction is BYPASS (R471). -/
theorem exec_jtagInstruction (ir : Nat) : exec (.jtagInstruction ir) s = .next (s.after { s.dev with mem := { s.dev.mem with jtagIr :=
    if ir = 1 then 1 else if s.dev.mem.porst = false ∧ (ir = 2 ∨ ir = 3) then ir else 0 } }) := by
  have hlow : ((!s.dev.mem.porst) && (decide (ir = 2) || decide (ir = 3))) = true ↔ s.dev.mem.porst = false ∧ (ir = 2 ∨ ir = 3) := by simp
  simp only [← hlow]
  rfl

end

/-- Settles O24: one equation for each row. -/
theorem memoryAndJtagRowsTakeEffect : Obligations.MemoryAndJtagRowsTakeEffect := by
  intro s arg addr
  refine ⟨fun reader h => exec_sramUncorrectable s h arg addr, fun ch hch reader h => exec_ddrUncorrectable s hch h arg addr, fun ch hch => ?_,
    exec_eccCorrectedError s (by decide) addr, fun ch hch => exec_ddrTrainingFailed s hch, exec_jtagInstruction s⟩
  rw [exec_eccCorrectedError s (by omega), if_neg (by omega)]

/-! ### Assertions of a source (R385 to R388) -/

section
variable {d : Dev} {n : Nat}

theorem Dev.assertSource_reserved (h : 311 ≤ n ∧ n ≤ 319) : d.assertSource n = d :=
  if_pos (by simpa [reservedSource] using h)

/-- A source outside the reserved numbers: the latch of a protection of the SST, the condition of a level source, or one assertion. -/
theorem Dev.assertSource_named (h : n < 311 ∨ 319 < n) : d.assertSource n =
    if 248 ≤ n ∧ n ≤ 252 then d.protCondition (n - 248) true
    else if n = 253 ∨ n = 254 then d.protLatch (n - 248) true
    else if d.fld (F.fltClass_kind n) = 0 then d.raiseLevel n else d.raise n := by
  refine if_neg ?_
  simp only [reservedSource, Bool.and_eq_true, decide_eq_true_eq]
  omega

theorem Dev.assertSource_condition (h : 248 ≤ n ∧ n ≤ 252) : d.assertSource n = d.protCondition (n - 248) true := by
  rw [Dev.assertSource_named (by omega), if_pos h]

theorem Dev.assertSource_latch (h : n = 253 ∨ n = 254) : d.assertSource n = d.protLatch (n - 248) true := by
  rw [Dev.assertSource_named (by omega), if_neg (by omega), if_pos h]

theorem Dev.assertSource_unlatched (hprot : n < 248 ∨ 254 < n) (hnamed : n < 311 ∨ 319 < n) :
    d.assertSource n = if d.fld (F.fltClass_kind n) = 0 then d.raiseLevel n else d.raise n := by
  rw [Dev.assertSource_named hnamed, if_neg (by omega), if_neg (by omega)]

/-- The first assertion of a source of class 4: counted, sticky, told in event 0x0B01, and then control is given up (R387, R388). -/
theorem Dev.raiseCore_class4 (hsticky : (d.bump R.fltCount).sticky n = false) (hclass : (d.bump R.fltCount).sourceClass n = 4) :
    d.raiseCore n = ((((d.bump R.fltCount).setSticky n true).event 0x0B01 n
      (le 1 4 ++ le 1 (((d.bump R.fltCount).setSticky n true).fld (F.fltClass_kind n))))).relinquish := by
  simp only [Dev.raiseCore, hsticky, hclass, Bool.false_eq_true, if_false]
  rfl

theorem Dev.relinquish_yields (hclaims : d.claims = true) (hpeer : d.flag F.twnStat_peerEligible = true) : d.relinquish = d.yield := by
  rw [Dev.relinquish, hclaims, hpeer, Bool.and_self, if_pos rfl]

theorem Dev.relinquish_blocked (h : d.claims = false ∨ d.flag F.twnStat_peerEligible = false) :
    d.relinquish = d.setFlag F.fltState_relinqBlocked true := by
  refine if_neg ?_
  rcases h with h | h <;> simp [h]

end

section
variable (s : State)

theorem exec_faultSourceAssert {n : Nat} (h : n < 423) : exec (.faultSourceAssert n) s = .next (s.after (s.dev.assertSource n)) :=
  commitIf_ok (decide_eq_true h) _ _ _

theorem exec_faultOHoldExpiry : exec .faultOHoldExpiry s = .next (s.after
    (if s.dev.flt.release = [] then s.dev else (s.dev.advance s.dev.flt.holdUntil).dropFaultO)) := rfl

theorem exec_fltSelfCheckFail {k : Nat} (h : k < 3) :
    exec (.fltSelfCheckFail k) s = .next (s.after ((s.dev.setBitAt R.fltSelf k true).deviceSafe 0xFFFF)) :=
  commitIf_ok (decide_eq_true h) _ _ _

end

/-- Settles O48: one equation for each row, and the branch of `Dev.assertSource` that the number of the source takes. -/
theorem faultRowsTakeEffect : Obligations.FaultRowsTakeEffect := by
  refine ⟨fun s => ⟨fun n hn => ?_, fun a r hr => ?_, fun hnone => ?_, fun k hk => exec_fltSelfCheckFail s hk⟩, fun d n _ => ?_⟩
  · rw [exec_faultSourceAssert s hn]
    refine ⟨fun h1 h2 => ?_, fun h1 h2 => ?_, fun h => ?_, fun hprot hnamed => ?_⟩
    · rw [Dev.assertSource_reserved ⟨h1, h2⟩]
    · rw [Dev.assertSource_condition ⟨h1, h2⟩]
    · rw [Dev.assertSource_latch h]
    · rw [Dev.assertSource_unlatched hprot hnamed]
      exact ⟨fun hlevel => by rw [if_pos hlevel], fun hevent => by rw [if_neg hevent]⟩
  · rw [exec_faultOHoldExpiry, if_neg (by simp [hr])]
  · rw [exec_faultOHoldExpiry, if_pos hnone]
  · intro d1 hsticky hclass d3
    rw [Dev.raiseCore_class4 hsticky hclass]
    exact ⟨Dev.relinquish_yields, Dev.relinquish_blocked⟩

/-! ### FAULT_MAP, FAULT_CLEAR and FAULT_O_RELEASE (R394, R397, R398) -/

section
variable {d : Dev} {c : Call}

/-- A FAULT_MAP whose fields are legal (Table 16-3). -/
structure Call.FaultMapLegal (c : Call) : Prop where
  source : rd c.packet.cmd.payload 0 2 ≤ 422
  named : reservedSource (rd c.packet.cmd.payload 0 2) = false
  cls : rd c.packet.cmd.payload 2 1 ≤ 5
  zero : rd c.packet.cmd.payload 3 1 = 0

theorem Call.FaultMapLegal.not_refused (h : c.FaultMapLegal) :
    ¬ (422 < rd c.packet.cmd.payload 0 2 ∨ reservedSource (rd c.packet.cmd.payload 0 2) = true ∨ 5 < rd c.packet.cmd.payload 2 1 ∨
      rd c.packet.cmd.payload 3 1 ≠ 0) := by
  obtain ⟨hs, hn, hk, hz⟩ := h
  simp [hn, hz, hs, hk]

/-- A class below the floor of the source is refused. -/
theorem bodyFaultMap_belowFloor (h : c.FaultMapLegal)
    (hfloor : rd c.packet.cmd.payload 2 1 < d.fld (F.fltClass_floor (rd c.packet.cmd.payload 0 2))) :
    bodyFaultMap d c = (d, .final St.refused []) :=
  (if_neg h.not_refused).trans (if_pos hfloor)

/-- What the change of source `n` to the class `k` causes of a device in which the class stands already: the reaction of a sticky source. -/
def Dev.reactTo (d : Dev) (n k old : Nat) : Dev :=
  if !d.sticky n ∨ k = old then d else if k = 5 then d.deviceSafe n else if k = 4 then d.relinquish else d

/-- A class at or above the floor is set, and the reactions follow. -/
theorem bodyFaultMap_sets (h : c.FaultMapLegal)
    (hfloor : d.fld (F.fltClass_floor (rd c.packet.cmd.payload 0 2)) ≤ rd c.packet.cmd.payload 2 1) :
    let n := rd c.packet.cmd.payload 0 2
    let k := rd c.packet.cmd.payload 2 1
    bodyFaultMap d c = (((((d.setFld (F.fltClass_class n) k).reactTo n k (d.sourceClass n)).updateStates).updateRelinq).refreshElig,
      .final St.done (le 1 (d.sourceClass n))) :=
  (if_neg h.not_refused).trans (if_neg (Nat.not_lt.mpr hfloor))

variable {n k old : Nat}

theorem Dev.reactTo_idle (h : d.sticky n = false ∨ k = old ∨ (k ≠ 4 ∧ k ≠ 5)) : d.reactTo n k old = d := by
  unfold Dev.reactTo
  rcases h with h | h | ⟨h4, h5⟩
  · rw [if_pos (.inl (by simp [h]))]
  · rw [if_pos (.inr h)]
  · rw [if_neg h5, if_neg h4, ite_self]

theorem Dev.reactTo_class5 (hsticky : d.sticky n = true) (hnew : 5 ≠ old) : d.reactTo n 5 old = d.deviceSafe n := by
  simp [Dev.reactTo, hsticky, hnew]

theorem Dev.reactTo_class4 (hsticky : d.sticky n = true) (hnew : 4 ≠ old) : d.reactTo n 4 old = d.relinquish := by
  simp [Dev.reactTo, hsticky, hnew]

/-- The class of a source lies in another register than its sticky bit. -/
theorem Dev.sticky_setClass (hn : n ≤ 422) (m v : Nat) : (d.setFld (F.fltClass_class m) v).sticky n = d.sticky n := by
  have hother : R.fltSticky (n / 32) ≠ (F.fltClass_class m).off := by
    simp only [R.fltSticky, F.fltClass_class, R.fltClass]
    omega
  rw [Dev.sticky, Dev.bitAt, Dev.regN, Dev.reg_setFld_other _ _ _ hother]
  rfl

/-- FAULT_CLEAR of register `i` clears what of `mask` is sticky and not present. -/
theorem bodyFaultClear_clears {i : Nat} (hi : rd c.packet.cmd.payload 0 1 = i) (h13 : i ≤ 13) (hz : rd c.packet.cmd.payload 1 3 = 0) :
    let sticky := d.regN (R.fltSticky i)
    let present := Nat.land (Nat.land (rd c.packet.cmd.payload 4 4) sticky) (d.regN (R.fltPresent i))
    let cleared := andNot (Nat.land (rd c.packet.cmd.payload 4 4) sticky) present
    let d1 := d.setRegN (R.fltSticky i) (andNot sticky cleared)
    let d2 := if i = 7 then (d1.clearProt cleared).leaveTrip else d1
    bodyFaultClear d c = ((((d2.updateStates).updateAlive).updateRelinq).refreshElig, .final St.done (le 4 cleared ++ le 4 present)) := by
  subst hi
  exact if_neg (by omega)

/-- FAULT_O_RELEASE outside optical safe and device safe is noted, and acts where the 100 µs are over. -/
theorem bodyFaultORelease_accepts (ho : d.flag F.fltState_osafe = false) (hd : d.flag F.fltState_dsafe = false) :
    let d1 : Dev := { d with flt := { d.flt with release := d.flt.release ++ [c.oid] } }
    bodyFaultORelease d c = (if d.flt.holdUntil ≤ d.now then d1.dropFaultO else d1, .accepted []) :=
  if_neg (by simp [ho, hd])

end

/-- Settles O15: each row is `Dev.host` with what its function answers. -/
theorem faultCommandsTakeEffect : Obligations.FaultCommandsTakeEffect := by
  refine ⟨?_, fun s c q => ⟨?_, ?_⟩⟩
  · rintro s c q n k h rfl rfl hz hn hnamed hk o oid d1
    have hlegal : (s.dev.nextCall 0x0B01 c q).FaultMapLegal := ⟨hn, hnamed, hk, hz⟩
    have hsticky : d1.sticky (rd c.payload 0 2) = o.sticky (rd c.payload 0 2) := Dev.sticky_setClass hn _ _
    have hrow : o.fld (F.fltClass_floor (rd c.payload 0 2)) ≤ rd c.payload 2 1 → exec (.faultMap c) s = .next (s.after
        ((((d1.reactTo (rd c.payload 0 2) (rd c.payload 2 1) (o.sourceClass (rd c.payload 0 2))).updateStates).updateRelinq).refreshElig.replied
          0x0B01 c q oid St.done (le 1 (o.sourceClass (rd c.payload 0 2))))) :=
      fun hfloor => after_host_answers h (bodyFaultMap_sets hlegal hfloor)
    refine ⟨fun hfloor hidle => ?_, fun hfloor hset hnew h5 => ?_, fun hfloor hset hnew h4 => ?_, fun hfloor => ?_⟩
    · rw [hrow hfloor, Dev.reactTo_idle (hsticky ▸ hidle)]
    · rw [hrow hfloor, h5, Dev.reactTo_class5 (hsticky.trans hset) (h5 ▸ hnew)]
    · rw [hrow hfloor, h4, Dev.reactTo_class4 (hsticky.trans hset) (h4 ▸ hnew)]
    · exact after_host_answers h (bodyFaultMap_belowFloor hlegal hfloor)
  · rintro i _ h hi h13 hz rfl
    exact after_host_answers h (bodyFaultClear_clears hi h13 hz)
  · intro h o d1 ho hd
    obtain ⟨-, -, -, -, -, hflag⟩ := (s.dev.opened 0x0B03 c q).interim_stands 0x0B03 c q []
    have hrow : exec (.faultORelease c) s = .next (s.after ((if o.flt.holdUntil ≤ o.now then d1.dropFaultO else d1).goesOn q)) :=
      after_host_begins h rfl rfl rfl
        (congrArg Prod.snd (bodyFaultORelease_accepts ((hflag _).symm.trans ho) ((hflag _).symm.trans hd)))
        (congrArg Prod.fst (bodyFaultORelease_accepts ho hd))
    exact ⟨fun hover => by rw [hrow, if_pos hover], fun hwait => by rw [hrow, if_neg (Nat.not_le.mpr hwait)]⟩

end Sys2Proof.Machine

/-! The proofs of the family 17_twin_operation: the records of the peer (O49), the timers and pins of the twin manager (O50), and the reply of a
mirrored command (O51). -/

namespace Sys2Proof.Machine

/-! ### Records of the peer whose form and role decide (R407, R408, R423, R431) -/

section
variable {s : State} {r : WireRec}

theorem exec_heartbeatReceived (s : State) (r : WireRec) : exec (.heartbeatReceived r) s =
    .next (s.after (if recOk r.bytes 40 0x71 && s.dev.twinMode then s.dev.heartbeat r.bytes else s.dev)) := rfl

theorem exec_digestReceived (s : State) (r : WireRec) : exec (.digestReceived r) s =
    .next (s.after (if recOk r.bytes 128 0x72 && s.dev.twinMode then s.dev.digest r.bytes else s.dev)) := rfl

/-- What a MIRROR record satisfies that is judged by its number: its form and CRC, its length, and the role (R408). -/
def Dev.takesMirror (d : Dev) (b : Bytes) : Prop :=
  recOk b b.length 0x73 = true ∧ 16 ≤ b.length ∧ b.length ≤ 1024 ∧ b.length % 8 = 0 ∧ d.standby = true

theorem exec_mirrorReceived_judged (h : s.dev.takesMirror r.bytes) : exec (.mirrorReceived r) s = .next (s.after (s.dev.mirrorRecord r.bytes)) := by
  obtain ⟨hok, hmin, hmax, hlen, hrole⟩ := h
  exact next_after_congr _ (if_pos (by simp [hok, hmin, hmax, hlen, hrole]))

theorem exec_mirrorReceived_ignored (h : ¬ s.dev.takesMirror r.bytes) : exec (.mirrorReceived r) s = .next (s.after s.dev) :=
  next_after_congr _ (if_neg (by simpa [Dev.takesMirror, and_assoc] using h))

/-- What a FORWARD record satisfies that is judged by its number (R408). -/
def Dev.takesForward (d : Dev) (b : Bytes) : Prop :=
  recOk b b.length 0x75 = true ∧ 32 ≤ b.length ∧ b.length ≤ 1040 ∧ b.length % 8 = 0 ∧ d.standby = true

/-- A FORWARD record in its place: the next number is taken, one further on told as a gap, one answered already answered again (R408, R421). -/
def Dev.forwardRecord (d : Dev) (b : Bytes) : Dev :=
  let n := rd b 8 4
  if n = (d.twn.fapplied + 1) % 2 ^ 32 then d.takeForward n (rd b 12 2) (rd b 16 8) (b.drop 32)
  else if seqAbove n d.twn.fapplied then d.sendMack true
  else if d.twn.fwdOpen.any (fun x => x.2 = n) || d.twn.forwarded.any (fun f => f.number = n) then d
  else d.sendFresult n d.twn.fstatus

theorem exec_forwardReceived_judged (h : s.dev.takesForward r.bytes) :
    exec (.forwardReceived r) s = .next (s.after (s.dev.forwardRecord r.bytes)) := by
  obtain ⟨hok, hmin, hmax, hlen, hrole⟩ := h
  exact next_after_congr _ (if_neg (by simp [hok, hmin, hmax, hlen, hrole]))

theorem exec_forwardReceived_ignored (h : ¬ s.dev.takesForward r.bytes) : exec (.forwardReceived r) s = .next (s.after s.dev) := by
  refine next_after_congr _ (if_pos ?_)
  by_contra hall
  refine h ?_
  simpa [Dev.takesForward, and_assoc] using hall

theorem exec_mackReceived (s : State) (r : WireRec) : exec (.mackReceived r) s = .next (s.after
    (if !recOk r.bytes 16 0x74 || !s.dev.active then s.dev
     else if bit (rd r.bytes 12 1) 0 then (s.dev.releaseMack (rd r.bytes 8 4)).resend
     else if (s.dev.releaseMack (rd r.bytes 8 4)).twn.mirrorSent = [] then (s.dev.releaseMack (rd r.bytes 8 4)).elig 5 false
     else s.dev.releaseMack (rd r.bytes 8 4))) := rfl

theorem exec_yieldReceived (s : State) (r : WireRec) : exec (.yieldReceived r) s = .next (s.after
    (if !recOk r.bytes 16 0x77 || !s.dev.twinMode then s.dev
     else if s.dev.active then (if s.dev.flag F.twnStat_peerEligible then s.dev.yield.afterRole else s.dev)
     else ({ s.dev with twn := { s.dev.twn with peerYield := true } } : Dev).claimOnYield)) := rfl

theorem exec_fresultReceived_bad (h : recOk r.bytes 16 0x76 = false) : exec (.fresultReceived r) s = .next (s.after s.dev) :=
  next_after_congr _ (if_pos (by simp [h]))

theorem exec_fresultReceived_ok (h : recOk r.bytes 16 0x76 = true) :
    let n := rd r.bytes 8 4
    exec (.fresultReceived r) s = .next (s.after
      ((s.dev.twn.waitForward.filter (fun w => w.number = n)).foldl (fun d w => d.reply (patchPeer (changing (rd r.bytes 12 1)) w.reply))
        { s.dev with twn := { s.dev.twn with
          fwdSent := s.dev.twn.fwdSent.map (fun e => if e.number = n then { e with status := some (rd r.bytes 12 1) } else e),
          waitForward := s.dev.twn.waitForward.filter (fun w => w.number ≠ n) } })) :=
  next_after_congr _ (if_neg (by simp [h]))

end

/-! ### Numbers of MIRROR and FORWARD records (R408) -/

section
variable {d : Dev} {b : Bytes}

theorem Dev.mirrorRecord_next (h : rd b 8 4 = (d.twn.mapplied + 1) % 2 ^ 32) :
    let d1 := (d.putItem (rd b 12 1) (Config.mirrorItem (rd b 12 1) (b.drop 16) d.mirrored)).setRegN R.twnMseq (rd b 8 4)
    let d2 : Dev := { d1 with twn := { d1.twn with mapplied := rd b 8 4, gapFrom := none } }
    d.mirrorRecord b = (if d2.twn.resync = 0 ∨ d2.twn.resync = 5 then d2.elig 5 false else d2).sendMack false :=
  if_pos h

theorem Dev.mirrorRecord_gap (h : rd b 8 4 ≠ (d.twn.mapplied + 1) % 2 ^ 32) (habove : seqAbove (rd b 8 4) d.twn.mapplied = true) :
    d.mirrorRecord b = ({ d with twn := { d.twn with gapFrom := some (d.twn.gapFrom.getD d.now) } } : Dev).send
      (.twin twinMack [d.twn.mapplied, 1]) :=
  (if_neg h).trans (if_pos habove)

theorem Dev.mirrorRecord_again (h : rd b 8 4 ≠ (d.twn.mapplied + 1) % 2 ^ 32) (hbelow : seqAbove (rd b 8 4) d.twn.mapplied = false) :
    d.mirrorRecord b = d.send (.twin twinMack [d.twn.mapplied, 0]) :=
  (if_neg h).trans (if_neg (Bool.eq_false_iff.mp hbelow))

theorem Dev.forwardRecord_next (h : rd b 8 4 = (d.twn.fapplied + 1) % 2 ^ 32) :
    d.forwardRecord b = d.takeForward (rd b 8 4) (rd b 12 2) (rd b 16 8) (b.drop 32) :=
  if_pos h

theorem Dev.forwardRecord_gap (h : rd b 8 4 ≠ (d.twn.fapplied + 1) % 2 ^ 32) (habove : seqAbove (rd b 8 4) d.twn.fapplied = true) :
    d.forwardRecord b = d.send (.twin twinMack [d.twn.mapplied, 1]) :=
  (if_neg h).trans (if_pos habove)

/-- A FORWARD record below the next number: one that is still at work here is left alone, any other answered again. -/
theorem Dev.forwardRecord_again (h : rd b 8 4 ≠ (d.twn.fapplied + 1) % 2 ^ 32) (hbelow : seqAbove (rd b 8 4) d.twn.fapplied = false) :
    d.forwardRecord b =
      if (d.twn.fwdOpen.any (fun x => x.2 = rd b 8 4) || d.twn.forwarded.any (fun f => f.number = rd b 8 4)) = true then d
      else d.send (.twin twinFresult [rd b 8 4, d.twn.fstatus]) :=
  (if_neg h).trans (if_neg (Bool.eq_false_iff.mp hbelow))

end

/-- Settles O49: the form of a record and the role decide whether it is judged, and then its number or its flags which branch it takes. -/
theorem twinRecordsTakeEffect : Obligations.TwinRecordsTakeEffect := by
  intro s r b
  refine ⟨fun hok hmode => ?_, fun hbad => ?_, fun hok hmode => ?_, fun hbad => ?_, ?_, fun hok hrole => ?_, fun hbad => ?_, ?_,
    exec_fresultReceived_ok, exec_fresultReceived_bad, fun hok hmode => ?_, fun hbad => ?_⟩
  · rw [exec_heartbeatReceived, hok, hmode, Bool.and_self, if_pos rfl]
  · rw [exec_heartbeatReceived, Bool.and_eq_false_iff.mpr hbad, if_neg Bool.false_ne_true]
  · rw [exec_digestReceived, hok, hmode, Bool.and_self, if_pos rfl]
  · rw [exec_digestReceived, Bool.and_eq_false_iff.mpr hbad, if_neg Bool.false_ne_true]
  · refine ⟨fun hok hnext => ?_, fun hok hother habove => ?_, fun hok hother hbelow => ?_, exec_mirrorReceived_ignored⟩
    · exact (exec_mirrorReceived_judged hok).trans (by rw [Dev.mirrorRecord_next hnext])
    · exact (exec_mirrorReceived_judged hok).trans (by rw [Dev.mirrorRecord_gap hother habove])
    · exact (exec_mirrorReceived_judged hok).trans (by rw [Dev.mirrorRecord_again hother hbelow])
  · intro d
    rw [exec_mackReceived, hok, hrole, Bool.not_true, Bool.or_self, if_neg Bool.false_ne_true]
    refine ⟨fun hgap => ?_, fun hgap hall => ?_, fun hgap hsome => ?_⟩
    · rw [if_pos hgap]
    · rw [if_neg (Bool.eq_false_iff.mp hgap), if_pos hall]
    · rw [if_neg (Bool.eq_false_iff.mp hgap), if_neg hsome]
  · rw [exec_mackReceived, ← Bool.not_and, Bool.and_eq_false_iff.mpr hbad, Bool.not_false, if_pos rfl]
  · refine ⟨fun hok hnext => ?_, fun hok hother habove => ?_, fun hok hother hbelow => ?_, exec_forwardReceived_ignored⟩
    · exact (exec_forwardReceived_judged hok).trans (by rw [Dev.forwardRecord_next hnext])
    · exact (exec_forwardReceived_judged hok).trans (by rw [Dev.forwardRecord_gap hother habove])
    · have hrow := exec_forwardReceived_judged hok
      rw [Dev.forwardRecord_again hother hbelow] at hrow
      exact ⟨fun hopen => by rw [hrow, if_pos hopen], fun hclosed => by rw [hrow, if_neg (Bool.eq_false_iff.mp hclosed)]⟩
  · rw [exec_yieldReceived, hok, hmode, Bool.not_true, Bool.or_self, if_neg Bool.false_ne_true]
    refine ⟨fun hrole hpeer => ?_, fun hrole hpeer => ?_, fun hrole => ?_⟩
    · rw [if_pos hrole, if_pos hpeer]
    · rw [if_pos hrole, if_neg (Bool.eq_false_iff.mp hpeer)]
    · rw [if_neg (Bool.eq_false_iff.mp hrole)]
  · rw [exec_yieldReceived, ← Bool.not_and, Bool.and_eq_false_iff.mpr hbad, Bool.not_false, if_pos rfl]

/-! ### Times that are over (R409, R412, R418, R420, R421) -/

section
variable {s : State}

theorem exec_heartbeatMissed_due {t : Nat} (h : s.dev.twn.hbDue = some t) :
    let d := s.dev.advance (t + tickUs)
    let n := d.twn.streak + 1
    let d1 := ({ d with twn := { d.twn with hbDue := some (t + 10 * tickUs), streak := n } } : Dev).bumpSat F.twnHbMiss_missed
    exec .heartbeatMissed s = .next (s.after (if n = 3 then (d1.loseTwin.raiseLevel 421).tryClaim 3 else d1)) := by
  show execHeartbeatMissed s = _
  simp only [execHeartbeatMissed, commit, h]

theorem exec_heartbeatMissed_none (h : s.dev.twn.hbDue = none) : exec .heartbeatMissed s = .next (s.after s.dev) := by
  show execHeartbeatMissed s = _
  simp only [execHeartbeatMissed, commit, h]

theorem exec_twinLinkLost (s : State) {lane : Nat} (h : lane < 4) : exec (.twinLinkLost lane) s = .next (s.after s.dev.loseTwin) :=
  commitIf_ok (decide_eq_true h) _ _ _

theorem exec_mirrorTimeout_waits {w : TwinWait} {r : List TwinWait} (h : s.dev.twn.waitMack = w :: r) :
    exec .mirrorTimeout s = .next (s.after
      ((((({ s.dev.advance w.due with twn := { (s.dev.advance w.due).twn with waitMack := r } } : Dev).reply w.reply).setFlag
        F.twnStat_peerEligible false)).elig 5 true)) := by
  show execMirrorTimeout s = _
  simp only [execMirrorTimeout, commit, h]

theorem exec_mirrorTimeout_none (h : s.dev.twn.waitMack = []) : exec .mirrorTimeout s = .next (s.after s.dev) := by
  show execMirrorTimeout s = _
  simp only [execMirrorTimeout, commit, h]

theorem exec_mirrorGapTimeout_open {t : Nat} (h : s.dev.twn.gapFrom = some t) :
    exec .mirrorGapTimeout s = .next (s.after ((s.dev.advance (t + 100 * tickUs)).elig 5 true)) := by
  show execMirrorGapTimeout s = _
  simp only [execMirrorGapTimeout, commit, h]

theorem exec_mirrorGapTimeout_none (h : s.dev.twn.gapFrom = none) : exec .mirrorGapTimeout s = .next (s.after s.dev) := by
  show execMirrorGapTimeout s = _
  simp only [execMirrorGapTimeout, commit, h]

theorem exec_forwardTimeout_waits {w : TwinWait} {r : List TwinWait} (h : s.dev.twn.waitForward = w :: r) :
    exec .forwardTimeout s = .next (s.after
      (({ s.dev.advance w.due with twn := { (s.dev.advance w.due).twn with waitForward := r } } : Dev).reply (patchPeer false w.reply))) := by
  show execForwardTimeout s = _
  simp only [execForwardTimeout, commit, h]

theorem exec_forwardTimeout_none (h : s.dev.twn.waitForward = []) : exec .forwardTimeout s = .next (s.after s.dev) := by
  show execForwardTimeout s = _
  simp only [execForwardTimeout, commit, h]

theorem exec_pairOffsetCheck (s : State) (drift : Int) : exec (.pairOffsetCheck drift) s = .next (s.after
    (if s.dev.standby && s.dev.flag F.twnStat_paired then
      (if 2 < drift.natAbs then (s.dev.elig 8 true).beginResync else s.dev.elig 8 false) else s.dev)) := rfl

/-! ### Claims, and the steps of a resynchronisation (R415, R416, R418, R429) -/

/-- This unit ranks below its peer (R260), or is unit 1 and has heard nothing of it. -/
def Dev.ranksBelow (d : Dev) : Prop :=
  (d.twn.heard.isSome = true ∧ outranks (d.fld F.twnPeer_term) (1 - d.unit) d.term d.unit = true) ∨ (d.twn.heard = none ∧ d.unit = 1)

/-- Both units claim, as this one sees it. -/
def Dev.bothClaim (d : Dev) : Prop := d.twinMode = true ∧ d.claims = true ∧ d.peerHigh = true

/-- The condition of PEER_CLAIM_CONFLICT, as the model computes it. -/
theorem Dev.claimConflict_iff (d : Dev) :
    (d.twinMode && d.claims && d.peerHigh && (match d.twn.heard with
      | some _ => outranks (d.fld F.twnPeer_term) (1 - d.unit) d.term d.unit | none => d.unit = 1)) = true ↔ d.bothClaim ∧ d.ranksBelow := by
  cases hheard : d.twn.heard <;> simp [Dev.bothClaim, Dev.ranksBelow, hheard, and_assoc]

theorem exec_peerClaimConflict_below (hboth : s.dev.bothClaim) (hbelow : s.dev.ranksBelow) : exec .peerClaimConflict s = .next (s.after
    (((s.dev.advance (s.dev.twn.peerHighFrom + 100 * tickUs)).withdraw (s.dev.fld F.twnPeer_term)).afterRole)) :=
  next_after_congr _ (if_pos (s.dev.claimConflict_iff.mpr ⟨hboth, hbelow⟩))

theorem exec_peerClaimConflict_none (h : ¬ (s.dev.bothClaim ∧ s.dev.ranksBelow)) : exec .peerClaimConflict s = .next (s.after s.dev) :=
  next_after_congr _ (if_neg (mt s.dev.claimConflict_iff.mp h))

/-- A unit with no role yet waits alone: no twin link, and no claim of the peer (R415). -/
def Dev.waitsAlone (d : Dev) : Prop :=
  d.twinMode = true ∧ d.fld F.twnStat_role = 0 ∧ d.flag F.cpxReady1_frame = true ∧ d.flag F.twnStat_linkUp = false ∧ d.peerHigh = false

theorem Dev.waitsAlone_iff (d : Dev) : (d.twinMode && decide (d.fld F.twnStat_role = 0) && d.flag F.cpxReady1_frame &&
    !d.flag F.twnStat_linkUp && !d.peerHigh) = true ↔ d.waitsAlone := by
  simp [Dev.waitsAlone, and_assoc]

theorem exec_soloWaitExpiry_alone (h : s.dev.waitsAlone) : exec .soloWaitExpiry s = .next (s.after
    (((s.dev.advance (s.dev.twn.peerLowFrom + (s.dev.fld F.twnCtrl_soloWait * 10 * tickMs + s.dev.unit * 500 * tickMs))).claim 1).afterRole)) :=
  next_after_congr _ (if_pos (s.dev.waitsAlone_iff.mpr h))

theorem exec_soloWaitExpiry_none (h : ¬ s.dev.waitsAlone) : exec .soloWaitExpiry s = .next (s.after s.dev) :=
  next_after_congr _ (if_neg (mt s.dev.waitsAlone_iff.mp h))

theorem exec_resyncStep (s : State) :
    exec .resyncStep s = .next (s.after (if s.dev.twinMode && !s.dev.active then s.dev.resyncStep else s.dev)) := rfl

/-! ### PEER_CLAIM_IN (R415, R416) -/

/-- PEER_CLAIM_IN has risen: source 422 where this unit claims, and a unit without a role becomes the standby. -/
def Dev.peerRises (d : Dev) : Dev :=
  let d1 := ({ d with twn := { d.twn with peerHighFrom := d.now } } : Dev).level 422 (d.twinMode && d.claims)
  if d1.twinMode && decide (d1.fld F.twnStat_role = 0) && d1.flag F.cpxReady1_frame then (d1.setRole 2 1).beginResync.afterRole else d1

/-- PEER_CLAIM_IN has fallen: a standby claims after a yield of its peer, or after three heartbeats missed in a row. -/
def Dev.peerFalls (d : Dev) : Dev :=
  let d2 := (({ d with twn := { d.twn with peerLowFrom := d.now } } : Dev).clearLevel 422).claimOnYield
  if 3 ≤ d2.twn.streak then d2.tryClaim 3 else d2

theorem exec_peerClaimInChange_same {level : Bool} (h : s.dev.peerHigh = level) :
    exec (.peerClaimInChange level) s = .next (s.after (s.dev.setFlag F.twnStat_peerClaimIn level)) :=
  next_after_congr _ (if_pos h)

theorem exec_peerClaimInChange_rises (h : s.dev.peerHigh = false) :
    exec (.peerClaimInChange true) s = .next (s.after (s.dev.setFlag F.twnStat_peerClaimIn true).peerRises) :=
  next_after_congr _ (if_neg (by simp [h]))

theorem exec_peerClaimInChange_falls (h : s.dev.peerHigh = true) :
    exec (.peerClaimInChange false) s = .next (s.after (s.dev.setFlag F.twnStat_peerClaimIn false).peerFalls) :=
  next_after_congr _ (if_neg (by simp [h]))

end

/-- Settles O50: one equation for each row and case. -/
theorem twinTimersAndPinsTakeEffect : Obligations.TwinTimersAndPinsTakeEffect := by
  intro s
  refine ⟨fun t ht => ?_, exec_heartbeatMissed_none, fun lane => exec_twinLinkLost s, fun w r => exec_mirrorTimeout_waits, exec_mirrorTimeout_none,
    fun t => exec_mirrorGapTimeout_open, exec_mirrorGapTimeout_none, fun w r => exec_forwardTimeout_waits, exec_forwardTimeout_none,
    fun drift hrole hpaired => ?_, fun drift hno => ?_, ⟨exec_peerClaimConflict_below, exec_peerClaimConflict_none⟩,
    ⟨exec_soloWaitExpiry_alone, exec_soloWaitExpiry_none⟩, fun hmode hrole => ?_, fun hno => ?_, fun level => exec_peerClaimInChange_same,
    fun hlow => ?_, fun hhigh => ?_⟩
  · intro d n d1
    have hrow : exec .heartbeatMissed s = .next (s.after (if n = 3 then (d1.loseTwin.raiseLevel 421).tryClaim 3 else d1)) :=
      exec_heartbeatMissed_due ht
    exact ⟨fun hthird => by rw [hrow, if_pos hthird], fun hother => by rw [hrow, if_neg hother]⟩
  · rw [exec_pairOffsetCheck, hrole, hpaired, Bool.and_self, if_pos rfl]
    exact ⟨fun hfar => by rw [if_pos hfar], fun hnear => by rw [if_neg (Nat.not_lt.mpr hnear)]⟩
  · rw [exec_pairOffsetCheck, Bool.and_eq_false_iff.mpr hno, if_neg Bool.false_ne_true]
  · rw [exec_resyncStep, hmode, hrole, Bool.not_false, Bool.and_self, if_pos rfl]
  · rw [exec_resyncStep, if_neg (by rcases hno with h | h <;> simp [h])]
  · intro d d1 yields
    have hrow : exec (.peerClaimInChange true) s = .next (s.after
        (if d1.twinMode && decide (d1.fld F.twnStat_role = 0) && d1.flag F.cpxReady1_frame then (d1.setRole 2 1).beginResync.afterRole else d1)) :=
      exec_peerClaimInChange_rises hlow
    have hiff : (d1.twinMode && decide (d1.fld F.twnStat_role = 0) && d1.flag F.cpxReady1_frame) = true ↔ yields := by
      simp [yields, and_assoc]
    exact ⟨fun h => by rw [hrow, if_pos (hiff.mpr h)], fun h => by rw [hrow, if_neg (mt hiff.mp h)]⟩
  · intro d d2
    have hrow : exec (.peerClaimInChange false) s = .next (s.after (if 3 ≤ d2.twn.streak then d2.tryClaim 3 else d2)) :=
      exec_peerClaimInChange_falls hhigh
    exact ⟨fun hthree => by rw [hrow, if_pos hthree], fun hfew => by rw [hrow, if_neg (Nat.not_le.mpr hfew)]⟩

/-! ### Replies that wait for MACK (R419, R420) -/

/-- A number does not lie above itself. -/
theorem seqAbove_self (n : Nat) : seqAbove n n = false := by
  have hzero : (n + 2 ^ 32 - n % 2 ^ 32) % 2 ^ 32 = 0 := by omega
  rw [seqAbove, hzero]
  rfl

section
variable {d : Dev} {r : Reply}

/-- The reply of a mirrored command as it waits for MACK: a MIRROR record has taken the next number. -/
def Dev.mirrorReply (d : Dev) (r : Reply) : Dev :=
  let m := d.sendMirror [r.opcode, r.requester, r.tag, r.status]
  { m.2 with twn := { m.2.twn with waitMack := m.2.twn.waitMack ++ [⟨m.1, d.now + 20 * tickUs, d.decided r⟩] } }

/-- No mirrored command is a CAL_RUN. -/
theorem ne_calRun_of_mirrored {op : Nat} (h : mirroredOpcode op = true) : op ≠ 0x0A01 := by
  rintro rfl
  exact absurd h (by decide)

/-- On the active unit of a pair, a mirrored command that has changed something, and that waits for no FRESULT, waits for MACK. -/
theorem Dev.answer_mirrored (hpair : d.pairedActive = true) (hst : changing r.status = true) (hop : mirroredOpcode r.opcode = true)
    (hfwd : d.twn.fwdSent.find? (fun e => e.owner = r.owner && e.tag = r.tag) = none) : d.answer r = d.mirrorReply r := by
  have hnoForward : (if (d.decided r).final then d.twn.fwdSent.find? (fun e => e.owner = (d.decided r).owner && e.tag = (d.decided r).tag)
      else none) = none := by
    rw [show d.twn.fwdSent.find? (fun e => e.owner = (d.decided r).owner && e.tag = (d.decided r).tag) = none from hfwd, ite_self]
  have hnoCal : decide ((d.decided r).opcode = 0x0A01) = false := decide_eq_false (ne_calRun_of_mirrored hop)
  have hwaits : (d.pairedActive && changing (d.decided r).status && mirroredOpcode (d.decided r).opcode) = true := by
    rw [hpair, show changing (d.decided r).status = true from hst, show mirroredOpcode (d.decided r).opcode = true from hop]
    rfl
  simp only [Dev.answer, hnoForward, hnoCal, Bool.and_false, Bool.false_and, Bool.false_eq_true, if_false, hwaits, if_true]
  rfl

/-- The MACK of a number releases the reply that waits for it alone. -/
theorem Dev.releaseMack_only {n due : Nat} {x : Reply} (h : d.twn.waitMack = [⟨n, due, x⟩]) :
    (d.releaseMack n).cpx.emissions = (d.reply x).cpx.emissions ∧ (d.releaseMack n).twn.waitMack = [] := by
  simp only [Dev.releaseMack, h, List.filter_cons, seqAbove_self, Bool.not_false, if_true, List.filter_nil, List.foldl_cons, List.foldl_nil,
    Bool.false_eq_true, if_false]
  exact ⟨rfl, rfl⟩

end

/-- Settles O51: the reply is put behind those that wait, and the MACK of its number lets it go. -/
theorem mirroredReplyWaitsForMack : Obligations.MirroredReplyWaitsForMack := by
  intro d r hpair hst hop hfwd n a x
  have ha : a = d.mirrorReply r := Dev.answer_mirrored hpair hst hop hfwd
  rw [ha]
  refine ⟨rfl, rfl, rfl, fun hnone => ?_⟩
  have hwait : (d.mirrorReply r).twn.waitMack = [⟨n, d.now + 20 * tickUs, x⟩] := by
    show d.twn.waitMack ++ _ = _
    rw [hnone]
    rfl
  exact Dev.releaseMack_only (x := x) hwait

end Sys2Proof.Machine

/-! The proofs of the family 12_cell_control: the commands of the SST (O36). -/

namespace Sys2Proof.Machine

/-! ### SST_START, SST_STOP, PERIOD_SET, CELL_BYPASS and NEUTRAL_SECTION (R301 to R309) -/

/-- ACCEPTED changes nothing that is read apart from the command processor's own state. -/
theorem Dev.interim_congr {α : Type} (f : Dev → α) (hf : ∀ (d : Dev) (x : Cpx), f { d with cpx := x } = f d) (d : Dev) (op : BitVec 16)
    (c : Cmd) (q : Nat) (res : Bytes) : f (d.interim op c q res) = f d := by
  obtain ⟨x, hx⟩ := d.interim_eq op c q res
  rw [hx, hf]

section
variable {d : Dev} {c : Call}

/-- The device with the cells in service found anew, as a start finds them (R301). -/
def Dev.findService (d : Dev) : Dev := (d.configuredCells.foldl (fun d n => d.setFld (F.cmuCellSvc_svc n) (d.startSvc n)) d).countService

/-- The cells in service are not found in the command processor's state. -/
theorem Dev.findService_withCpx (d : Dev) (x : Cpx) : ({ d with cpx := x } : Dev).findService = { d.findService with cpx := x } :=
  congrArg Dev.countService
    (List.foldl_hom (fun d : Dev => ({ d with cpx := x } : Dev)) (g₂ := fun d n => d.setFld (F.cmuCellSvc_svc n) (d.startSvc n)) fun _ _ => rfl)

/-- What stands against a start with the payload of `c`; 0 where nothing does (R301). -/
def Dev.startBar (d : Dev) (c : Call) : Nat := d.startRefusal c.packet.cmd.payload d.findService.inService.length

theorem Dev.startBar_withCpx (d : Dev) (x : Cpx) (c : Call) : ({ d with cpx := x } : Dev).startBar c = d.startBar c := by
  rw [Dev.startBar, Dev.findService_withCpx]
  rfl

/-- The parameters of an SST_START (Table 12-4). -/
def Call.startParams (c : Call) : StartParams :=
  let p := c.packet.cmd.payload
  ⟨rd p 0 2, rd p 2 2, rd p 4 2, rd p 6 2, rd p 8 1, rd p 9 1, rd p 10 2, rd p 12 2⟩

theorem bodySstStart_accepts {d2 : Dev} (h : d.startBar c = 0) (hsets : (List.range 8).foldl (fun d k => d.writeSet k) d.findService = d2) :
    bodySstStart d c = ({ d2 with cmu := { d2.cmu with
      startCmd := some (c.oid, c.startParams), startAt := d.now, params := c.startParams, rHold := false, rRamp := none, coasts := [],
      nextSet := none, levels := [] } }, .accepted []) := by
  unfold bodySstStart
  extract_lets p d1 r written
  have hfree : r = 0 := h
  have hwritten : written = d2 := hsets
  clear_value written
  subst hwritten
  exact if_neg (not_not.mpr hfree)

/-- A SST_STOP whose fields are legal. -/
structure Call.StopLegal (c : Call) : Prop where
  ramp : rd c.packet.cmd.payload 0 2 ≤ 5000
  zeros : rd c.packet.cmd.payload 2 2 = 0

theorem Call.StopLegal.not_refused (h : c.StopLegal) : ¬ (5000 < rd c.packet.cmd.payload 0 2 ∨ rd c.packet.cmd.payload 2 2 ≠ 0) := by
  obtain ⟨hr, hz⟩ := h
  omega

/-- SST_STOP in stages 1 to 5 fails the start (R304). -/
theorem bodySstStop_failsStart (h : c.StopLegal) (h1 : 1 ≤ d.stage) (h5 : d.stage ≤ 5) :
    bodySstStop d c = ((d.failStart 4).finish c.oid St.done [], .accepted []) := by
  refine (if_neg h.not_refused).trans ((if_neg ?_).trans (if_pos h5))
  omega

/-- The device that a stop leaves in stage 9: from stage 6 on it ramps down where a ramp is asked for, and holds otherwise (R304, R317). -/
def Dev.stopFrom (d : Dev) (oid ms : Nat) : Dev :=
  let d1 := d.setStage 9
  let hold := decide (d.stage ≠ 6 ∨ ms = 0)
  let ramp := if hold then none else some (⟨d.cmu.outNow.psel, Frac.zero, d.rampSteps ms, 0⟩ : Ramp)
  ({ d1 with cmu := { d1.cmu with stopOid := some oid, rRamp := ramp, rHold := hold, coasts := [], coastFrom := none } } : Dev).showRamping

theorem bodySstStop_stops (h : c.StopLegal) (h6 : 6 ≤ d.stage) (h8 : d.stage ≤ 8) :
    bodySstStop d c = (d.stopFrom c.oid (rd c.packet.cmd.payload 0 2), .accepted []) := by
  rw [Dev.stopFrom, Bool.decide_or]
  refine (if_neg h.not_refused).trans ((if_neg ?_).trans (if_neg ?_)) <;> omega

theorem bodyPeriodSet_accepts {f : Nat} (hf : rd c.packet.cmd.payload 0 1 = f) (h10 : 10 ≤ f) (h80 : f ≤ 80)
    (hz : rd c.packet.cmd.payload 1 3 = 0) (hstage : d.stage = 0 ∨ d.stage = 6) (hfree : d.cmu.nextPeriod = none) :
    bodyPeriodSet d c = ({ d with cmu := { d.cmu with nextPeriod := some (c.oid, f,
      if d.now ≤ d.periodInstant 40 then d.cmu.k + 1 else d.cmu.k + 2) } }, .accepted []) := by
  subst hf
  refine (if_neg (by omega)).trans (if_neg ?_)
  rw [hfree, Option.isSome_none]
  rcases hstage with h | h <;> simp [h]

/-- A command whose key is of kind 0 runs at once (R41). -/
theorem Dev.keyed_now {k : Key} (h : k.kind = 0) (fire : Dev → Dev) (res : Bytes) : d.keyed c k fire res = (fire d, .accepted res) := by
  rw [Dev.keyed, Dev.keyState, if_pos h]

theorem bodyCellBypass_now (hn : rd c.packet.cmd.payload 0 1 ≤ 47) (hz : rd c.packet.cmd.payload 1 7 = 0)
    (hkey : (keyAt c.packet.cmd.payload 8).kind = 0) :
    bodyCellBypass d c = (d.fireBypass c.oid (rd c.packet.cmd.payload 0 1), .accepted []) :=
  (if_neg (by omega)).trans (Dev.keyed_now hkey _ _)

theorem bodyNeutralSection_now (hkey : (keyAt c.packet.cmd.payload 8).kind = 0) (h0 : rd c.packet.cmd.payload 0 1 = 0)
    (hz : rd c.packet.cmd.payload 1 1 = 0) (h1 : 1 ≤ rd c.packet.cmd.payload 2 2) (hmax : rd c.packet.cmd.payload 2 2 ≤ 1000) :
    bodyNeutralSection d c = (d.fireNeutral c.oid (keyAt c.packet.cmd.payload 8) (rd c.packet.cmd.payload 2 2) (rd c.packet.cmd.payload 4 4),
      .accepted []) := by
  refine (if_neg ?_).trans (Dev.keyed_now hkey _ _)
  rw [hkey, if_neg (by decide)]
  omega

end

/-- Settles O36: each function accepts before and after ACCEPTED has been given, which changes nothing that it looks at. -/
theorem sstCommandsBegin : Obligations.SstCommandsBegin := by
  refine fun s c q hpair => ⟨?_, ?_, ?_, ?_, ?_⟩
  · intro h o oid d1 p x d2 hstarts
    have hbar : o.startBar (s.dev.nextCall 0x0701 c q) = 0 := hstarts
    have hbefore : (s.dev.opened 0x0701 c q).startBar (s.dev.nextCall 0x0701 c q) = 0 :=
      (Dev.interim_congr (fun d => d.startBar (s.dev.nextCall 0x0701 c q)) (fun d x => d.startBar_withCpx x _) _ _ _ _ _).symm.trans hbar
    have hsets : (List.range 8).foldl (fun d k => d.writeSet k) o.findService = d2 := rfl
    clear_value d2
    exact after_host_accepts h hpair (congrArg Prod.snd (bodySstStart_accepts hbefore rfl)) (congrArg Prod.fst (bodySstStart_accepts hbar hsets))
  · intro h hramp hz o oid
    have hlegal : (s.dev.nextCall 0x0702 c q).StopLegal := ⟨hramp, hz⟩
    have hstage : o.stage = (s.dev.opened 0x0702 c q).stage := Dev.interim_congr Dev.stage (fun _ _ => rfl) _ _ _ _ _
    refine ⟨fun h1 h5 => ?_, fun h6 h8 => ?_⟩
    · exact after_host_accepts h hpair (congrArg Prod.snd (bodySstStop_failsStart hlegal (hstage ▸ h1) (hstage ▸ h5)))
        (congrArg Prod.fst (bodySstStop_failsStart hlegal h1 h5))
    · exact after_host_accepts h hpair (congrArg Prod.snd (bodySstStop_stops hlegal (hstage ▸ h6) (hstage ▸ h8)))
        (congrArg Prod.fst (bodySstStop_stops hlegal h6 h8))
  · intro f h hf h10 h80 hz o hstage hfree
    let call := s.dev.nextCall 0x0703 c q
    have hstage' : o.stage = (s.dev.opened 0x0703 c q).stage := Dev.interim_congr Dev.stage (fun _ _ => rfl) _ _ _ _ _
    have hcmu : o.cmu = (s.dev.opened 0x0703 c q).cmu := Dev.interim_congr Dev.cmu (fun _ _ => rfl) _ _ _ _ _
    exact after_host_accepts h hpair
      (congrArg Prod.snd (bodyPeriodSet_accepts (c := call) hf h10 h80 hz (hstage' ▸ hstage) (hcmu ▸ hfree)))
      (congrArg Prod.fst (bodyPeriodSet_accepts (c := call) hf h10 h80 hz hstage hfree))
  · intro h hn hz hkey
    let call := s.dev.nextCall 0x0704 c q
    exact after_host_accepts h hpair (congrArg Prod.snd (bodyCellBypass_now (c := call) hn hz hkey))
      (congrArg Prod.fst (bodyCellBypass_now (c := call) hn hz hkey))
  · rintro _ _ h rfl hkey h0 hz rfl h1 hmax
    let call := s.dev.nextCall 0x0705 c q
    exact after_host_accepts h hpair (congrArg Prod.snd (bodyNeutralSection_now (c := call) hkey h0 hz h1 hmax))
      (congrArg Prod.fst (bodyNeutralSection_now (c := call) hkey h0 hz h1 hmax))

end Sys2Proof.Machine

/-! The proofs of the family 13_lv_stage: the commands of the LV legs (O37), and their rows with those of the gate protection (O41). -/

namespace Sys2Proof.Machine

/-! ### LEG_CONFIG, LEG_ENABLE and LV_REFERENCE (R331, R342, R343, R345) -/

section
variable {d : Dev} {c : Call}

/-- Bit 7 of the flags of a legal LEG_CONFIG is 0. -/
theorem legFlags_lt_of_legConfigOk {p : Bytes} (h : legConfigOk p = true) : rd p 1 1 < 128 := by
  by_contra hge
  simp [legConfigOk, hge] at h

/-- The registers of leg `l` as a LEG_CONFIG with the payload `p` and the flags `flags` writes them, but for the staged period (Table 13-3). -/
def Dev.configLeg (d : Dev) (l : Nat) (p : Bytes) (flags : Nat) : Dev :=
  let d1 := ((d.setRegN (R.pwmLegCfg l) (flags + 256 * rd p 12 1)).setRegN (R.pwmLegDt l) (rd p 2 2 + 65536 * rd p 4 2)).setRegN
    (R.pwmLegMp l) (rd p 6 2 + 65536 * rd p 14 2)
  let d2 := (d1.setRegN (R.pwmLegLim l) (rd p 24 2 + 65536 * rd p 26 2)).setRegN (R.pwmLegFix l) (rd p 20 4)
  d2.setRegN (R.gdpLegProt l) (rd p 10 1 + 256 * rd p 11 1 + 65536 * rd p 8 2)

/-- The period of leg `l` staged for its next commit. -/
def Dev.stagePeriod (d : Dev) (l v : Nat) : Dev :=
  (d.setFld (F.pwmPerStg_v l) v).setLeg l { d.leg l with perNew := true, perAt := (d.leg l).commits }

section
variable {p : Bytes} (hp : c.packet.cmd.payload = p) (hok : legConfigOk p = true)
include hp hok

theorem Call.legConfig_not_refused : ¬ (!legConfigOk c.packet.cmd.payload) = true := by
  rw [hp, hok]
  exact Bool.false_ne_true

theorem bodyLegConfig_conflict (hstate : d.legState (rd p 0 1) ≠ 0) : bodyLegConfig d c = (d, .final St.conflict []) := by
  refine (if_neg (Call.legConfig_not_refused hp hok)).trans (if_pos ?_)
  rwa [hp]

/-- LEG_CONFIG of a leg in state 0 writes its registers. -/
theorem bodyLegConfig_writes (hstate : d.legState (rd p 0 1) = 0) :
    bodyLegConfig d c = if rd p 1 1 % 4 < 2 then
      (((d.configLeg (rd p 0 1) p (rd p 1 1)).stagePeriod (rd p 0 1) (rd p 16 4), .final St.done []) : Dev × Verdict)
    else (d.configLeg (rd p 0 1) p (rd p 1 1), .final St.done []) := by
  subst hp
  have hbody : bodyLegConfig d c = if rd c.packet.cmd.payload 1 1 % 4 < 2 then
      ((d.configLeg (rd c.packet.cmd.payload 0 1) c.packet.cmd.payload (rd c.packet.cmd.payload 1 1 % 128)).stagePeriod
        (rd c.packet.cmd.payload 0 1) (rd c.packet.cmd.payload 16 4), .final St.done [])
      else (d.configLeg (rd c.packet.cmd.payload 0 1) c.packet.cmd.payload (rd c.packet.cmd.payload 1 1 % 128), .final St.done []) :=
    (if_neg (Call.legConfig_not_refused rfl hok)).trans (if_neg (not_not.mpr hstate))
  rw [hbody, Nat.mod_eq_of_lt (legFlags_lt_of_legConfigOk hok)]

end

theorem bodyLegEnable_enables (hop : rd c.packet.cmd.payload 1 1 = 1) (hz : rd c.packet.cmd.payload 2 2 = 0)
    (hfree : d.enableRefusal (rd c.packet.cmd.payload 0 1) = 0) :
    let m := rd c.packet.cmd.payload 0 1
    let d1 := d.enableLegs m
    bodyLegEnable d c = (checkEnables [(c.oid, m)] { d1 with pwm := { d1.pwm with enables := d1.pwm.enables ++ [(c.oid, m)] } }, .accepted []) := by
  refine (if_neg ?_).trans ((if_pos hop).trans (if_neg (not_not.mpr hfree)))
  omega

theorem bodyLegEnable_disables (hop : rd c.packet.cmd.payload 1 1 = 0) (hz : rd c.packet.cmd.payload 2 2 = 0) :
    let m := rd c.packet.cmd.payload 0 1
    bodyLegEnable d c = (({ d with pwm := { d.pwm with disables := d.pwm.disables ++ [(c.oid, m)] } } : Dev).disableLegs m, .accepted []) := by
  refine (if_neg ?_).trans (if_neg ?_) <;> omega

/-- What an LV_REFERENCE that is not refused satisfies (R331). -/
structure Call.ReferenceLegal (c : Call) : Prop where
  volts : 3600 ≤ rd c.packet.cmd.payload 0 2 ∧ rd c.packet.cmd.payload 0 2 ≤ 16000
  ramp : 1 ≤ rd c.packet.cmd.payload 2 2 ∧ rd c.packet.cmd.payload 2 2 ≤ 5000
  zeros : rd c.packet.cmd.payload 4 4 = 0

/-- LV_REFERENCE sets the target, and the reference ramps to it while the lane of slot 20 runs. -/
theorem bodyLvReference_sets (h : c.ReferenceLegal) :
    let v := rd c.packet.cmd.payload 0 2
    let ms := rd c.packet.cmd.payload 2 2
    let d2 : Dev := { d.setFld F.pwmLvref_target v with pwm := { d.pwm with rampMs := ms } }
    let ramp : Ramp := ⟨Frac.ofInt (d.fld F.pwmLvref_ref), Frac.ofInt v, max 1 ((ms * 400 + d.cmu.period - 1) / d.cmu.period), 0⟩
    bodyLvReference d c =
      (if (d.lane 100).run then { d2 with cmu := { d2.cmu with lvRamp := some ramp } } else d2, .final St.done []) := by
  obtain ⟨⟨hlo, hhi⟩, ⟨h1, hmax⟩, hz⟩ := h
  exact if_neg (by omega)

end

/-- Settles O37: each row is `Dev.host` with what its function answers. -/
theorem legCommandsTakeEffect : Obligations.LegCommandsTakeEffect := by
  refine fun s c q => ⟨?_, ?_, ?_⟩
  · rintro _ h rfl hok o oid p d1 d2 d3
    have hcall : (s.dev.nextCall 0x0801 c q).packet.cmd.payload = p := rfl
    have hd3 : o.configLeg (rd p 0 1) p (rd p 1 1) = d3 := rfl
    clear_value d3
    refine ⟨fun hstate hmode => ?_, fun hstate hmode => ?_, fun hstate => ?_⟩
    · have hbody := bodyLegConfig_writes hcall hok hstate
      rw [if_neg (Nat.not_lt.mpr hmode), hd3] at hbody
      exact after_host_answers h hbody
    · have hbody := bodyLegConfig_writes hcall hok hstate
      rw [if_pos hmode, hd3] at hbody
      exact after_host_answers h hbody
    · exact after_host_answers h (bodyLegConfig_conflict hcall hok hstate)
  · rintro _ h rfl hz o oid
    let call := s.dev.nextCall 0x0802 c q
    refine ⟨fun hop hfree => ?_, fun hop => ?_⟩
    · have hbefore : (s.dev.opened 0x0802 c q).enableRefusal (rd c.payload 0 1) = 0 :=
        (Dev.interim_congr (fun d => d.enableRefusal (rd c.payload 0 1)) (fun _ _ => rfl) _ _ _ _ _).symm.trans hfree
      exact after_host_begins h rfl rfl rfl (congrArg Prod.snd (bodyLegEnable_enables (c := call) hop hz hbefore))
        (congrArg Prod.fst (bodyLegEnable_enables (c := call) hop hz hfree))
    · exact after_host_begins h rfl rfl rfl (congrArg Prod.snd (bodyLegEnable_disables (c := call) hop hz))
        (congrArg Prod.fst (bodyLegEnable_disables (c := call) hop hz))
  · rintro _ _ h rfl rfl hz hlo hhi h1 hmax o oid d2
    have hlegal : (s.dev.nextCall 0x0803 c q).ReferenceLegal := ⟨⟨hlo, hhi⟩, ⟨h1, hmax⟩, hz⟩
    have hbody := bodyLvReference_sets (d := o) hlegal
    refine ⟨fun hstill => ?_, fun hruns => ?_⟩
    · exact after_host_answers h (hbody.trans (congrArg (fun d => (d, Verdict.final St.done [])) (if_neg (Bool.eq_false_iff.mp hstill))))
    · exact after_host_answers h (hbody.trans (congrArg (fun d => (d, Verdict.final St.done [])) (if_pos hruns)))

/-! ### PWM, its staging registers and its boundaries (R323 to R326, R329, R342, R343) -/

/-- The offset of a period staging register names its leg. -/
theorem findLeg_pwmPerStg : ∀ l < 8, (List.range 8).find? (fun k => R.pwmPerStg l = R.pwmPerStg k || R.pwmPerStg l = R.pwmDutyStg k) = some l := by
  decide

/-- The offset of a duty staging register names its leg, and is no period staging register's. -/
theorem findLeg_pwmDutyStg : ∀ l < 8, (List.range 8).find? (fun k => R.pwmDutyStg l = R.pwmPerStg k || R.pwmDutyStg l = R.pwmDutyStg k) = some l ∧
    R.pwmDutyStg l ≠ R.pwmPerStg l := by
  decide

theorem okLeg_of_lt {l : Nat} (h : l < 8) : okLeg l = true := decide_eq_true h

theorem Dev.stageWrite_lv {d : Dev} {l : Nat} (h : d.legLv l = true) (per : Bool) (v : Nat) :
    d.stageWrite l per v = d.legFlag (F.pwmLegFlags_srcErr l) := if_pos h

section
variable {s : State} {l : Nat} (hl : l < 8)

theorem exec_pwmCommit (h : s.dev.flag F.cpxReady1_pcie = true) (v : Word) : exec (.pwmCommit v) s = .next (s.after
    ((bitsOf v.toNat 8).foldl (fun d l => if d.legLv l then d else d.registerCommit l) s.dev)) :=
  next_after_congr _ (Dev.direct_up h _)

include hl

theorem exec_pwmStageWrite_period (h : s.dev.flag F.cpxReady1_pcie = true) (v : Word) :
    exec (.pwmStageWrite (R.pwmPerStg l) v) s = .next (s.after (s.dev.stageWrite l true (v.toNat % 2 ^ 19))) := by
  show execPwmStageWrite _ v s = _
  simp only [execPwmStageWrite, findLeg_pwmPerStg l hl, commit, Dev.direct_up h, decide_true]

theorem exec_pwmStageWrite_duty (h : s.dev.flag F.cpxReady1_pcie = true) (v : Word) :
    exec (.pwmStageWrite (R.pwmDutyStg l) v) s = .next (s.after (s.dev.stageWrite l false (v.toNat % 2 ^ 19))) := by
  obtain ⟨hfind, hne⟩ := findLeg_pwmDutyStg l hl
  show execPwmStageWrite _ v s = _
  simp only [execPwmStageWrite, hfind, commit, Dev.direct_up h, decide_eq_false hne]

/-- A leg runs, drains or is in shadow: its periods go on. -/
def Dev.legCycles (d : Dev) (l : Nat) : Prop := d.legState l = 2 ∨ d.legState l = 3 ∨ d.legState l = 5

theorem exec_pwmBoundary_cycles (h : s.dev.legCycles l) : exec (.pwmBoundary l) s = .next (s.after
    (if (s.dev.nextBoundary l).1 then (s.dev.advance (s.dev.nextBoundary l).2).legMid l (s.dev.nextBoundary l).2
     else ((s.dev.advance (s.dev.nextBoundary l).2).stepTrim l).legPeriodEnd l (s.dev.nextBoundary l).2)) := by
  show execPwmBoundary l s = _
  rw [execPwmBoundary, commitIf_ok (okLeg_of_lt hl)]
  rcases h with h | h | h <;> simp only [h]

theorem exec_pwmBoundary_still (h : s.dev.legState l = 0 ∨ s.dev.legState l = 4) : exec (.pwmBoundary l) s = .next (s.after s.dev) := by
  show execPwmBoundary l s = _
  rw [execPwmBoundary, commitIf_ok (okLeg_of_lt hl)]
  rcases h with h | h <;> simp only [h]

omit hl in
/-- The middle of the period comes first where `upd` is 1 (R324). -/
theorem Dev.nextBoundary_mid {d : Dev} (hupd : d.fld (F.pwmLegCfg_upd l) = 1) (hhalf : (d.leg l).half = false) :
    d.nextBoundary l = (true, (d.leg l).start + d.legPeriod l / 2) :=
  if_pos ⟨hupd, by rw [hhalf, Bool.not_false]⟩

omit hl in
theorem Dev.nextBoundary_end {d : Dev} (h : d.fld (F.pwmLegCfg_upd l) ≠ 1 ∨ (d.leg l).half = true) :
    d.nextBoundary l = (false, d.periodEnd l) := by
  refine if_neg ?_
  rintro ⟨hupd, hhalf⟩
  rcases h with h | h
  · exact h hupd
  · rw [h] at hhalf
    exact absurd hhalf (by decide)

/-- What REFRESH_PULSE asks of a leg whose periods go on (R323). -/
def Dev.needsRefresh (d : Dev) (l : Nat) : Prop :=
  (d.leg l).refreshed = false ∧ d.legPeriod l ≤ (d.leg l).high ∧ d.fld (F.pwmLegCfg_bstN l) ≤ d.fld (F.pwmLegStat_noLo l) + 1

omit hl in
/-- The condition of REFRESH_PULSE, as the model computes it. -/
theorem Dev.refreshDue_iff (d : Dev) (l : Nat) :
    ((decide (d.legState l = 2) || decide (d.legState l = 3) || decide (d.legState l = 5)) && !(d.leg l).refreshed &&
      decide (d.legPeriod l ≤ (d.leg l).high) && decide (d.fld (F.pwmLegCfg_bstN l) ≤ d.fld (F.pwmLegStat_noLo l) + 1)) = true ↔
      d.legCycles l ∧ d.needsRefresh l := by
  simp [Dev.legCycles, Dev.needsRefresh, and_assoc, or_assoc]

theorem exec_refreshPulse_due (hcycles : s.dev.legCycles l) (hneeds : s.dev.needsRefresh l) : exec (.refreshPulse l) s =
    .next (s.after ((s.dev.advance (s.dev.periodEnd l - s.dev.refreshLen l)).refreshPulse l)) :=
  (commitIf_ok (okLeg_of_lt hl) _ _ _).trans
    (next_after_congr _ (if_pos ((s.dev.refreshDue_iff l).mpr ⟨hcycles, hneeds⟩)))

theorem exec_refreshPulse_still (h : ¬ s.dev.legCycles l) : exec (.refreshPulse l) s = .next (s.after s.dev) :=
  (commitIf_ok (okLeg_of_lt hl) _ _ _).trans
    (next_after_congr _ (if_neg fun hdue => h ((s.dev.refreshDue_iff l).mp hdue).1))

theorem exec_legPrechargeEnd_charging (h : s.dev.legState l = 1) :
    let d1 := (s.dev.advance (s.dev.leg l).chargeEnd).startLegRun l
    exec (.legPrechargeEnd l) s = .next (s.after (checkEnables d1.pwm.enables d1)) :=
  (commitIf_ok (okLeg_of_lt hl) _ _ _).trans (next_after_congr _ (if_pos h))

theorem exec_pwmTriggerPulse_running {b : Bool} {p : Nat} (hstate : s.dev.legState l = 2)
    (hp : (if b then (s.dev.leg l).trgB else (s.dev.leg l).trgA) = some p) (hin : p < s.dev.legPeriod l) :
    let d1 := s.dev.advance ((s.dev.leg l).start + p)
    exec (.pwmTriggerPulse l b) s = .next (s.after
      { d1 with pwm := { d1.pwm with lineAt := tput (fun _ => 0) d1.pwm.lineAt (2 * l + b2n b) d1.now } }) := by
  show execPwmTriggerPulse l b s = _
  rw [execPwmTriggerPulse, commitIf_ok (okLeg_of_lt hl)]
  simp only [hstate, hp, if_pos hin]

/-! ### Comparators, the interlock and the trip inputs (R334 to R339) -/

theorem exec_mainComparatorTrip :
    let d := s.dev.setFlag (F.gdpLegLatch_cmpMain l) true
    exec (.mainComparatorTrip l) s = .next (s.after
      (if d.blanked l then d else (d.bumpSat (F.gdpLegCount_crossings l)).tripLeg l (F.gdpLegLatch_oc l))) :=
  commitIf_ok (okLeg_of_lt hl) _ _ _

theorem exec_hardComparatorTrip : exec (.hardComparatorTrip l) s = .next (s.after
    ((s.dev.setFlag (F.gdpLegLatch_cmpHard l) true).tripLeg l (F.gdpLegLatch_hardOc l))) :=
  commitIf_ok (okLeg_of_lt hl) _ _ _

theorem exec_shootThroughBlock : exec (.shootThroughBlock l) s = .next (s.after (s.dev.tripLeg l (F.gdpLegLatch_shootBlock l))) :=
  commitIf_ok (okLeg_of_lt hl) _ _ _

omit hl in
theorem exec_tripInAssert {i : Nat} (hi : i < 4) (level : Bool) : exec (.tripInAssert i level) s = .next (s.after
    (({ s.dev with pwm := { s.dev.pwm with tripPins := setBit s.dev.pwm.tripPins i level } } : Dev).followTrip i (s.dev.tripForces i))) :=
  commitIf_ok (decide_eq_true hi) _ _ _

/-! ### DRV_EN and the supplies of the gates (R333, R340, R341) -/

/-- DRV_EN noted as low, with event 0x0806. -/
def Dev.drvFallen (d : Dev) : Dev :=
  (({ d with pwm := { d.pwm with drvLowAt := d.now } } : Dev).setFlag F.gdpStat_drvEn false).event 0x0806 0 (le 1 0)

/-- A leg that DRV_EN drops: both outputs off, state 0, its latch. -/
def Dev.drvDrop (d : Dev) (l : Nat) : Dev :=
  ((d.setLeg l { d.leg l with holdHi := false, holdLo := false }).stopLeg l 0).latchLeg l (F.gdpLegLatch_drvEnDrop l)

omit hl in
theorem exec_drvEnFall_low (h : s.dev.flag F.gdpStat_drvEn = false) : exec .drvEnFall s = .next (s.after s.dev) :=
  next_after_congr _ (if_pos (by rw [h, Bool.not_false]))

omit hl in
theorem exec_drvEnFall_high (h : s.dev.flag F.gdpStat_drvEn = true) :
    let on := (List.range 8).filter s.dev.legEnabled
    exec .drvEnFall s = .next (s.after
      (if on.isEmpty then on.foldl Dev.drvDrop s.dev.drvFallen else (on.foldl Dev.drvDrop s.dev.drvFallen).raise 268)) :=
  next_after_congr _ (if_neg (by simp [h]))

theorem Dev.enabledLegs_ne_nil {d : Dev} (h : d.legEnabled l = true) : (List.range 8).filter d.legEnabled ≠ [] :=
  List.ne_nil_of_mem (List.mem_filter.mpr ⟨List.mem_range.mpr hl, h⟩)

omit hl in
theorem exec_drvEnRise (h : s.dev.flag F.gdpStat_drvEn = false) (main hard : Nat) :
    let d1 := (List.range 8).foldl (fun d l =>
      (d.setFlag (F.gdpLegLatch_cmpMain l) (bit main l)).setFlag (F.gdpLegLatch_cmpHard l) (bit hard l)) s.dev
    let d2 := (d1.setFlag F.gdpStat_drvEn true).event 0x0806 0 (le 1 1)
    exec (.drvEnRise main hard) s = .next (s.after
      (if s.dev.now < s.dev.pwm.drvLowAt + 10 * tickUs then d2 else (List.range 8).foldl Dev.clearLatch d2)) :=
  next_after_congr _ (if_neg (Bool.eq_false_iff.mp h))

theorem exec_bootstrapUndervoltage_falls (h : s.dev.flag (F.gdpLegLatch_bstUv l) = false) : exec (.bootstrapUndervoltage l true) s =
    .next (s.after ((s.dev.setFlag (F.gdpLegLatch_bstUv l) true).bumpSat (F.gdpLegCount_bstUv l))) :=
  (commitIf_ok (okLeg_of_lt hl) _ _ _).trans
    (next_after_congr _ (if_neg (by simp [h])))

theorem exec_bootstrapUndervoltage_rises (h : s.dev.flag (F.gdpLegLatch_bstUv l) = true) :
    let d1 := s.dev.setFlag (F.gdpLegLatch_bstUv l) false
    exec (.bootstrapUndervoltage l false) s = .next (s.after (d1.setLeg l { d1.leg l with bstFrom := d1.now })) :=
  (commitIf_ok (okLeg_of_lt hl) _ _ _).trans
    (next_after_congr _ (if_neg (by simp [h])))

end

/-- Settles O41: one equation for each row, and the branch that the state of the leg takes. -/
theorem legRowsTakeEffect : Obligations.LegRowsTakeEffect := by
  intro s l v hl
  refine ⟨rfl, rfl, fun hup => ⟨exec_pwmCommit hup v, fun hlv => ⟨?_, ?_⟩, fun hown => ⟨?_, ?_⟩⟩,
    fun hcycles => ⟨fun hupd hhalf => ?_, fun hend => ?_,
      fun hnot hfull hcount => exec_refreshPulse_due hl hcycles ⟨hnot, hfull, hcount⟩⟩,
    fun hstill => ⟨exec_pwmBoundary_still hl hstill, ?_⟩, exec_legPrechargeEnd_charging hl, fun b p => exec_pwmTriggerPulse_running hl, ?_,
    exec_hardComparatorTrip hl, exec_shootThroughBlock hl, fun i level hi => exec_tripInAssert hi level, exec_drvEnFall_low,
    fun hhigh hnone => ?_, fun hhigh hon => ?_, fun main hard hlow => ?_, rfl, exec_bootstrapUndervoltage_falls hl,
    exec_bootstrapUndervoltage_rises hl⟩
  · rw [exec_pwmStageWrite_period hl hup, Dev.stageWrite_lv hlv]
  · rw [exec_pwmStageWrite_duty hl hup, Dev.stageWrite_lv hlv]
  · rw [exec_pwmStageWrite_period hl hup, Dev.stageWrite, if_neg (Bool.eq_false_iff.mp hown), if_pos rfl]
  · rw [exec_pwmStageWrite_duty hl hup, Dev.stageWrite, if_neg (Bool.eq_false_iff.mp hown), if_neg Bool.false_ne_true]
  · rw [exec_pwmBoundary_cycles hl hcycles, Dev.nextBoundary_mid hupd hhalf, if_pos rfl]
  · rw [exec_pwmBoundary_cycles hl hcycles, Dev.nextBoundary_end hend, if_neg Bool.false_ne_true]
  · exact exec_refreshPulse_still hl (by rw [Dev.legCycles]; omega)
  · intro d
    have hrow : exec (.mainComparatorTrip l) s = .next (s.after
        (if d.blanked l then d else (d.bumpSat (F.gdpLegCount_crossings l)).tripLeg l (F.gdpLegLatch_oc l))) := exec_mainComparatorTrip hl
    exact ⟨fun hblank => by rw [hrow, if_pos hblank], fun hopen => by rw [hrow, if_neg (Bool.eq_false_iff.mp hopen)]⟩
  · rw [exec_drvEnFall_high hhigh, hnone]
    rfl
  · intro d1
    have hsome : ¬ ((List.range 8).filter s.dev.legEnabled).isEmpty = true := by
      rw [List.isEmpty_iff]
      exact Dev.enabledLegs_ne_nil hl hon
    rw [exec_drvEnFall_high hhigh, if_neg hsome]
    rfl
  · intro d1 d2
    have hrow : exec (.drvEnRise main hard) s = .next (s.after
        (if s.dev.now < s.dev.pwm.drvLowAt + 10 * tickUs then d2 else (List.range 8).foldl Dev.clearLatch d2)) := exec_drvEnRise hlow main hard
    exact ⟨fun hsoon => by rw [hrow, if_pos hsoon], fun hlater => by rw [hrow, if_neg (Nat.not_lt.mpr hlater)]⟩

end Sys2Proof.Machine

/-! The proofs of the family 14_converters: the commands of the converters (O42), and their rows (O43). -/

namespace Sys2Proof.Machine

/-! ### ADC_CONFIG and ADC_INJECT (R347, R352, R355, R356) -/

section
variable {d : Dev} {c : Call}

/-- The slot words that the pair of an ADC_CONFIG will have: the words of the slots that it names, and for the others those to come (R355). -/
def Dev.writtenSlot (d : Dev) (c : Call) : Nat → Nat := fun k =>
  if bit (rd c.packet.cmd.payload 2 1) k then rd c.packet.cmd.payload (8 + 4 * k) 4 else d.comingSlot (rd c.packet.cmd.payload 0 1) k

/-- An ADC_CONFIG that is legal and touches no running consumer (Table 14-1, R352, R354, R355). -/
structure Dev.AdcConfigLegal (d : Dev) (c : Call) : Prop where
  pair : rd c.packet.cmd.payload 0 1 ≤ 5
  reference : rd c.packet.cmd.payload 1 1 ≤ 2
  zeros : rd c.packet.cmd.payload 3 5 = 0
  unnamed : ∀ k < 8, bit (rd c.packet.cmd.payload 2 1) k = false → rd c.packet.cmd.payload (8 + 4 * k) 4 = 0
  words : ∀ k ∈ bitsOf (rd c.packet.cmd.payload 2 1) 8, slotOk (rd c.packet.cmd.payload 0 1) (d.writtenSlot c k) = true
  together : slotsOk (d.writtenSlot c) = true
  unclaimed : bit (rd c.packet.cmd.payload 2 1) 7 = true → d.slotClaimed (rd c.packet.cmd.payload 0 1) = false
  untouched : d.touchesConsumer (rd c.packet.cmd.payload 0 1) (rd c.packet.cmd.payload 1 1) (d.writtenSlot c) = false

/-- What an ADC_CONFIG leaves to be done at the frame strobe: the reference, what waited for slots that it does not name, and its own words. -/
def Dev.waitingConfig (d : Dev) (c : Call) : Nat × List (Nat × Nat) :=
  let m := rd c.packet.cmd.payload 2 1
  let p := rd c.packet.cmd.payload 0 1
  let kept := match (d.adcPair p).newCfg with | some (_, l) => l.filter (fun e => !bit m e.1) | none => []
  (rd c.packet.cmd.payload 1 1,
    kept ++ ((bitsOf m 8).filter (fun k => d.writtenSlot c k ≠ d.slotWord p k)).map (fun k => (k, d.writtenSlot c k)))

theorem bodyAdcConfig_waits (h : d.AdcConfigLegal c) :
    bodyAdcConfig d c =
      (d.setPair (rd c.packet.cmd.payload 0 1) { d.adcPair (rd c.packet.cmd.payload 0 1) with newCfg := some (d.waitingConfig c) },
        .final St.done []) := by
  have hclean : (List.range 8).all (fun k => bit (rd c.packet.cmd.payload 2 1) k || rd c.packet.cmd.payload (8 + 4 * k) 4 = 0) = true := by
    refine List.all_eq_true.mpr fun k hk => ?_
    cases hbit : bit (rd c.packet.cmd.payload 2 1) k
    · rw [Bool.false_or, decide_eq_true (h.unnamed k (List.mem_range.mp hk) hbit)]
    · rfl
  have hwords : (bitsOf (rd c.packet.cmd.payload 2 1) 8).all (fun k => slotOk (rd c.packet.cmd.payload 0 1) (d.writtenSlot c k)) = true :=
    List.all_eq_true.mpr h.words
  refine (if_neg ?_).trans (if_neg ?_)
  · rintro (hbad | hbad | hbad | hbad | hbad | hbad)
    · exact hbad.not_ge h.pair
    · exact hbad.not_ge h.reference
    · exact hbad h.zeros
    · rw [hclean] at hbad
      exact Bool.false_ne_true hbad
    · exact Bool.false_ne_true ((congrArg (!·) hwords).symm.trans hbad)
    · exact Bool.false_ne_true ((congrArg (!·) h.together).symm.trans hbad)
  · rintro (⟨hnamed, hclaimed⟩ | htouched)
    · exact Bool.false_ne_true ((h.unclaimed hnamed).symm.trans hclaimed)
    · exact Bool.false_ne_true (h.untouched.symm.trans htouched)

/-- An ADC_INJECT that is legal, of a pair that is enabled and has no stream with `div` 1 (R356). -/
structure Dev.InjectLegal (d : Dev) (c : Call) : Prop where
  pair : rd c.packet.cmd.payload 0 1 ≤ 5
  input : rd c.packet.cmd.payload 1 1 ≤ 31
  reached : reaches (rd c.packet.cmd.payload 0 1) (rd c.packet.cmd.payload 1 1) = true
  flags : rd c.packet.cmd.payload 2 1 < 2
  zero : rd c.packet.cmd.payload 3 1 = 0
  enabled : d.bitAt R.adcCtrl (rd c.packet.cmd.payload 0 1) = true
  noStream : ∀ k < 8, slotSrc (d.slotWord (rd c.packet.cmd.payload 0 1) k) = 4 → slotDiv (d.slotWord (rd c.packet.cmd.payload 0 1) k) ≠ 1

/-- Nothing of the command processor's own state stands in the way of an injected conversion. -/
theorem Dev.injectLegal_withCpx (d : Dev) (x : Cpx) (c : Call) : ({ d with cpx := x } : Dev).InjectLegal c = d.InjectLegal c :=
  propext ⟨fun h => ⟨h.pair, h.input, h.reached, h.flags, h.zero, h.enabled, h.noStream⟩,
    fun h => ⟨h.pair, h.input, h.reached, h.flags, h.zero, h.enabled, h.noStream⟩⟩

theorem bodyAdcInject_accepts (h : d.InjectLegal c) :
    let p := rd c.packet.cmd.payload 0 1
    bodyAdcInject d c = (d.setPair p { d.adcPair p with injects := (d.adcPair p).injects ++
      [(c.oid, rd c.packet.cmd.payload 1 1, bit (rd c.packet.cmd.payload 2 1) 0, d.now)] }, .accepted []) := by
  refine (if_neg ?_).trans (if_neg ?_)
  · rintro (hbad | hbad | hbad | hbad | hbad)
    · exact hbad.not_ge h.pair
    · exact hbad.not_ge h.input
    · rw [h.reached] at hbad
      exact Bool.false_ne_true hbad
    · exact hbad.not_gt h.flags
    · exact hbad h.zero
  · rintro (hoff | hstream)
    · rw [h.enabled] at hoff
      exact Bool.false_ne_true hoff
    · obtain ⟨k, hk, hboth⟩ := List.any_eq_true.mp hstream
      rw [Bool.and_eq_true, decide_eq_true_eq, decide_eq_true_eq] at hboth
      exact h.noStream k (List.mem_range.mp hk) hboth.1 hboth.2

/-! ### DAC_CONFIG (R364) -/

/-- A DAC_CONFIG that is legal, of a channel for which nothing waits (Table 14-3, R364). -/
structure Dev.DacConfigLegal (d : Dev) (c : Call) : Prop where
  channel : rd c.packet.cmd.payload 0 1 ≤ 15
  span : rd c.packet.cmd.payload 1 1 ≤ 3
  flags : rd c.packet.cmd.payload 2 1 < 2
  zero : rd c.packet.cmd.payload 3 1 = 0
  div : 16 ≤ rd c.packet.cmd.payload 4 2
  zeros : rd c.packet.cmd.payload 6 2 = 0
  noChange : (d.dacCh (rd c.packet.cmd.payload 0 1)).change = none
  noDiv : (d.dacCh (rd c.packet.cmd.payload 0 1)).divDue = none
  state : d.cstate (rd c.packet.cmd.payload 0 1) = 0 ∨ d.cstate (rd c.packet.cmd.payload 0 1) = 2

/-- Nothing of the command processor's own state stands in the way of a DAC_CONFIG. -/
theorem Dev.dacConfigLegal_withCpx (d : Dev) (x : Cpx) (c : Call) : ({ d with cpx := x } : Dev).DacConfigLegal c = d.DacConfigLegal c :=
  propext ⟨fun h => ⟨h.channel, h.span, h.flags, h.zero, h.div, h.zeros, h.noChange, h.noDiv, h.state⟩,
    fun h => ⟨h.channel, h.span, h.flags, h.zero, h.div, h.zeros, h.noChange, h.noDiv, h.state⟩⟩

/-- The four cases of a legal DAC_CONFIG: the divider alone or the span too, of a channel that is off or that runs. -/
def Dev.dacConfigured (d : Dev) (c : Call) : Dev :=
  let i := rd c.packet.cmd.payload 0 1
  let span := rd c.packet.cmd.payload 1 1
  let div := rd c.packet.cmd.payload 4 2
  if span = d.fld (F.dacChCfg_span i) then
    if d.cstate i = 0 then (d.setFld (F.dacChCfg_div i) div).finish c.oid St.done []
    else d.setDac i { d.dacCh i with divDue := some (div, c.oid) }
  else if d.cstate i = 0 then
    ((d.setFld (F.dacChCfg_span i) span).setFld (F.dacChCfg_div i) div).setDac i { d.dacCh i with change := some ⟨span, div, c.oid, 4, d.now⟩ }
  else
    d.setDac i { d.dacCh i with
      change := some ⟨span, div, c.oid, 0, 0⟩, queue := if bit (rd c.packet.cmd.payload 2 1) 0 then [] else (d.dacCh i).queue }

section
variable {i span div : Nat} (hi : rd c.packet.cmd.payload 0 1 = i) (hspan : rd c.packet.cmd.payload 1 1 = span)
  (hdiv : rd c.packet.cmd.payload 4 2 = div)
include hi hspan hdiv

theorem Dev.dacConfigured_offDiv (hstate : d.cstate i = 0) (hsame : span = d.fld (F.dacChCfg_span i)) :
    d.dacConfigured c = (d.setFld (F.dacChCfg_div i) div).finish c.oid St.done [] := by
  subst hi hspan hdiv
  exact (if_pos hsame).trans (if_pos hstate)

theorem Dev.dacConfigured_onDiv (hstate : d.cstate i = 2) (hsame : span = d.fld (F.dacChCfg_span i)) :
    d.dacConfigured c = d.setDac i { d.dacCh i with divDue := some (div, c.oid) } := by
  subst hi hspan hdiv
  exact (if_pos hsame).trans (if_neg (by omega))

theorem Dev.dacConfigured_offSpan (hstate : d.cstate i = 0) (hother : span ≠ d.fld (F.dacChCfg_span i)) :
    d.dacConfigured c = ((d.setFld (F.dacChCfg_span i) span).setFld (F.dacChCfg_div i) div).setDac i
      { d.dacCh i with change := some ⟨span, div, c.oid, 4, d.now⟩ } := by
  subst hi hspan hdiv
  exact (if_neg hother).trans (if_pos hstate)

theorem Dev.dacConfigured_onSpan (hstate : d.cstate i = 2) (hother : span ≠ d.fld (F.dacChCfg_span i)) :
    d.dacConfigured c = d.setDac i { d.dacCh i with
      change := some ⟨span, div, c.oid, 0, 0⟩, queue := if bit (rd c.packet.cmd.payload 2 1) 0 then [] else (d.dacCh i).queue } := by
  subst hi hspan hdiv
  exact (if_neg hother).trans (if_neg (by omega))

end

theorem bodyDacConfig_accepts (h : d.DacConfigLegal c) : bodyDacConfig d c = (d.dacConfigured c, .accepted []) := by
  obtain ⟨hi, hspan, hflags, hz, hdiv, hzs, hchange, hdue, hstate⟩ := h
  refine (if_neg (by omega)).trans ((if_neg ?_).trans ?_)
  · rw [hchange, hdue]
    rintro (h | h | h | h | h)
    · omega
    · omega
    · omega
    · exact Bool.false_ne_true h
    · exact Bool.false_ne_true h
  · unfold Dev.dacConfigured
    dsimp only
    by_cases hsame : rd c.packet.cmd.payload 1 1 = d.fld (F.dacChCfg_span (rd c.packet.cmd.payload 0 1))
    · rw [if_pos hsame, if_pos hsame]
      split <;> rfl
    · rw [if_neg hsame, if_neg hsame]
      split <;> rfl

/-! ### DAC_ENABLE (R362, R363) -/

theorem bodyDacEnable_enables (hop : rd c.packet.cmd.payload 2 1 = 1) (hz : rd c.packet.cmd.payload 3 1 = 0)
    (hoff : ∀ i ∈ bitsOf (rd c.packet.cmd.payload 0 2) 16, d.cstate i = 0) :
    bodyDacEnable d c = ((bitsOf (rd c.packet.cmd.payload 0 2) 16).foldl Dev.dacOn d, .final St.done []) := by
  refine (if_neg (by omega)).trans ((if_pos hop).trans (if_neg ?_))
  rw [Bool.not_eq_true, List.any_eq_false]
  intro i hi
  simpa using hoff i hi

/-- DAC_ENABLE may drain channel `i`: no change of its span is under way. -/
def Dev.canDrain (d : Dev) (i : Nat) : Prop := d.cstate i ≠ 3 ∧ (d.cstate i = 0 ∨ d.spanChanging i = false)

section
variable (hop : rd c.packet.cmd.payload 2 1 = 0) (hz : rd c.packet.cmd.payload 3 1 = 0)
  (hcan : ∀ i ∈ bitsOf (rd c.packet.cmd.payload 0 2) 16, d.canDrain i)
include hop hz hcan

/-- DAC_ENABLE drains the channels of its mask; it answers at once where all of them are off then. -/
theorem bodyDacEnable_drains :
    let m := rd c.packet.cmd.payload 0 2
    let d1 := (bitsOf m 16).foldl Dev.dacOff d
    bodyDacEnable d c = if (bitsOf m 16).all (fun i => d1.cstate i = 0) then (d1, .final St.done [])
      else ({ d1 with dac := { d1.dac with drains := d1.dac.drains ++ [(c.oid, m)] } }, .accepted []) := by
  refine (if_neg (by omega)).trans ((if_neg (by omega)).trans (if_neg ?_))
  rw [Bool.not_eq_true, List.any_eq_false]
  intro i hi
  obtain ⟨hthree, hrest⟩ := hcan i hi
  rcases hrest with h | h <;> simp [hthree, h]

theorem bodyDacEnable_off
    (hall : ∀ i ∈ bitsOf (rd c.packet.cmd.payload 0 2) 16, ((bitsOf (rd c.packet.cmd.payload 0 2) 16).foldl Dev.dacOff d).cstate i = 0) :
    bodyDacEnable d c = ((bitsOf (rd c.packet.cmd.payload 0 2) 16).foldl Dev.dacOff d, .final St.done []) := by
  refine (bodyDacEnable_drains hop hz hcan).trans (if_pos ?_)
  exact List.all_eq_true.mpr fun i hi => decide_eq_true (hall i hi)

theorem bodyDacEnable_waits {d1 : Dev} (hd1 : (bitsOf (rd c.packet.cmd.payload 0 2) 16).foldl Dev.dacOff d = d1)
    (hsome : ∃ i ∈ bitsOf (rd c.packet.cmd.payload 0 2) 16, d1.cstate i ≠ 0) :
    bodyDacEnable d c =
      ({ d1 with dac := { d1.dac with drains := d1.dac.drains ++ [(c.oid, rd c.packet.cmd.payload 0 2)] } }, .accepted []) := by
  subst hd1
  refine (bodyDacEnable_drains hop hz hcan).trans (if_neg ?_)
  obtain ⟨i, hi, hon⟩ := hsome
  exact fun hall => hon (of_decide_eq_true (List.all_eq_true.mp hall i hi))

end

end

/-- Settles O42: each function answers, or accepts before and after ACCEPTED has been given, which changes nothing that it looks at. -/
theorem converterCommandsTakeEffect : Obligations.ConverterCommandsTakeEffect := by
  refine fun s c q hpair => ⟨?_, ?_, ?_, ?_⟩
  · rintro _ _ _ h rfl rfl rfl hz hp hr o word hunnamed hwords htogether hclaimed htouched kept new
    have hlegal : o.AdcConfigLegal (s.dev.nextCall 0x0901 c q) := ⟨hp, hr, hz, hunnamed, hwords, htogether, hclaimed, htouched⟩
    exact after_host_answers h (bodyAdcConfig_waits hlegal)
  · rintro _ _ h rfl rfl hflags hz hp hi hreach o hen hstream
    have hlegal : o.InjectLegal (s.dev.nextCall 0x0902 c q) := ⟨hp, hi, hreach, hflags, hz, hen, hstream⟩
    have hbefore : (s.dev.opened 0x0902 c q).InjectLegal (s.dev.nextCall 0x0902 c q) :=
      (Dev.interim_congr (fun d => d.InjectLegal _) (fun d x => d.injectLegal_withCpx x _) _ _ _ _ _).mp hlegal
    exact after_host_accepts h hpair (congrArg Prod.snd (bodyAdcInject_accepts hbefore)) (congrArg Prod.fst (bodyAdcInject_accepts hlegal))
  · rintro _ _ _ h rfl rfl rfl hflags hz hzs hi hspan hdiv o oid hchange hdue
    let call := s.dev.nextCall 0x0903 c q
    have hrow : o.cstate (rd c.payload 0 1) = 0 ∨ o.cstate (rd c.payload 0 1) = 2 →
        exec (.dacConfig c) s = .next (s.after ((o.dacConfigured call).goesOn q)) := by
      intro hstate
      have hlegal : o.DacConfigLegal call := ⟨hi, hspan, hflags, hz, hdiv, hzs, hchange, hdue, hstate⟩
      have hbefore : (s.dev.opened 0x0903 c q).DacConfigLegal call :=
        (Dev.interim_congr (fun d => d.DacConfigLegal _) (fun d x => d.dacConfigLegal_withCpx x _) _ _ _ _ _).mp hlegal
      exact after_host_accepts h hpair (congrArg Prod.snd (bodyDacConfig_accepts hbefore)) (congrArg Prod.fst (bodyDacConfig_accepts hlegal))
    exact ⟨fun hoff hsame => by rw [hrow (.inl hoff), Dev.dacConfigured_offDiv (c := call) rfl rfl rfl hoff hsame]; rfl,
      fun hon hsame => by rw [hrow (.inr hon), Dev.dacConfigured_onDiv (c := call) rfl rfl rfl hon hsame]; rfl,
      fun hoff hother => by rw [hrow (.inl hoff), Dev.dacConfigured_offSpan (c := call) rfl rfl rfl hoff hother]; rfl,
      fun hon hother => by rw [hrow (.inr hon), Dev.dacConfigured_onSpan (c := call) rfl rfl rfl hon hother]; rfl⟩
  · rintro _ h rfl hz a o oid
    let call := s.dev.nextCall 0x0904 c q
    refine ⟨fun hop hoff => ?_, fun hop hcan hall => ?_, fun hop hcan hsomeA hsomeO => ?_⟩
    · exact after_host_answers h (bodyDacEnable_enables (d := a) (c := call) hop hz fun i hi => (hoff i hi).1)
    · exact after_host_answers h (bodyDacEnable_off (d := a) (c := call) hop hz hcan hall)
    · intro d1
      have hcanO : ∀ i ∈ bitsOf (rd c.payload 0 2) 16, o.canDrain i := fun i hi =>
        (Dev.interim_congr (fun d => d.canDrain i) (fun _ _ => rfl) a 0x0904 c q []).mpr (hcan i hi)
      have hd1 : (bitsOf (rd c.payload 0 2) 16).foldl Dev.dacOff o = d1 := rfl
      clear_value d1
      rw [hd1] at hsomeO
      exact after_host_accepts h hpair (congrArg Prod.snd (bodyDacEnable_waits (d := a) (c := call) hop hz hcan rfl hsomeA))
        (congrArg Prod.fst (bodyDacEnable_waits (d := o) (c := call) hop hz hcanO hd1 hsomeO))

/-! ### Conversions (R348, R351, R356, R357) -/

theorem okPair_of_lt {p : Nat} (h : p < 6) : okPair p = true := decide_eq_true h

/-- The answer of an injected conversion: its code, whether its input was under calibration (`busy`) or its reference settling, and the instant of
its hold (R356). -/
def Dev.injectResult (d : Dev) (busy : Bool) (code : Nat) (x : Conv) : Bytes :=
  le 2 code ++ le 1 (b2n busy + 2 * b2n x.unsettled) ++ le 1 0 ++ le 8 (d.taiOfTick x.hold)

/-- A conversion that is kept gives its result to its command or to its slot (R348, R356). -/
def Dev.giveConv (d : Dev) (p : Nat) (busy : Bool) (x : Conv) (v : Int) (code : Nat) : Dev :=
  match x.oid, x.slot with
  | some o, _ => d.finish o St.done (d.injectResult busy code x)
  | none, some k => d.writeResult p k x v code
  | none, none => d

/-- A conversion of a pair that was disabled is discarded (R358). -/
def Dev.discardConv (d : Dev) (p : Nat) (x : Conv) : Dev :=
  let d1 := d.setFlag (F.adcPairStat_discarded p) true
  match x.oid, x.slot with
  | some o, _ => d1.finish o St.conflict []
  | none, some k => d1.unserveSlot p k x.trig
  | none, none => d1

section
variable {d : Dev} {p : Nat} {busy : Bool} {x : Conv} {v : Int} {code : Nat}

theorem Dev.giveConv_command {o : Nat} (h : x.oid = some o) :
    d.giveConv p busy x v code = d.finish o St.done (d.injectResult busy code x) := by
  rw [Dev.giveConv, h]

theorem Dev.giveConv_slot {k : Nat} (ho : x.oid = none) (hk : x.slot = some k) :
    d.giveConv p busy x v code = d.writeResult p k x v code := by
  rw [Dev.giveConv, ho, hk]

theorem Dev.discardConv_command {o : Nat} (h : x.oid = some o) :
    d.discardConv p x = (d.setFlag (F.adcPairStat_discarded p) true).finish o St.conflict [] := by
  rw [Dev.discardConv, h]

theorem Dev.discardConv_slot {k : Nat} (ho : x.oid = none) (hk : x.slot = some k) :
    d.discardConv p x = (d.setFlag (F.adcPairStat_discarded p) true).unserveSlot p k x.trig := by
  rw [Dev.discardConv, ho, hk]

end

/-- What a conversion that ends leaves of the pair. -/
def Dev.takenConv (d : Dev) (p : Nat) (x : Bool × Conv) : Dev :=
  (d.setPair p { d.adcPair p with convs := (d.adcPair p).convs.erase x }).advance (x.2.hold + 880)

section
variable {s : State} {p : Nat} (hp : p < 6)
include hp

theorem exec_adcSlotFire_fires {k t : Nat} (hk : k < 8) (ht : s.dev.slotFires p k = some t) : exec (.adcSlotFire p k) s = .next (s.after
    (((List.range k).filter (fun i => s.dev.slotFires p i = some t) ++ [k]).foldl (fun d i => d.fireAt p i t) s.dev)) := by
  refine (commitIf_ok (by rw [okPair_of_lt hp, decide_eq_true hk, Bool.and_self]) _ _ _).trans ?_
  rw [Dev.fireSlot, ht]

theorem exec_adcSlotFire_none {k : Nat} (hk : k < 8) (h : s.dev.slotFires p k = none) : exec (.adcSlotFire p k) s = .next (s.after s.dev) := by
  refine (commitIf_ok (by rw [okPair_of_lt hp, decide_eq_true hk, Bool.and_self]) _ _ _).trans ?_
  rw [Dev.fireSlot, h]

theorem exec_adcConversionDone_ends {b : Bool} {x : Bool × Conv} (code : Nat)
    (hx : (s.dev.adcPair p).convs.find? (fun y => y.1 = b) = some x)
    (hstill : ((settlePair p (x.2.hold + 880) 4 s.dev).adcPair p).convs.find? (fun y => y.1 = b) = some x) :
    let d := settlePair p (x.2.hold + 880) 4 s.dev
    let d1 := d.takenConv p x
    let r := d1.correct p b x.2 code
    exec (.adcConversionDone p b code) s = .next (s.after (((if x.2.dropped then d1.discardConv p x.2
      else d1.giveConv p ((d.adcPair p).calInputs.contains x.2.input) x.2 r.1 r.2).checkPairDrained p).takeCalInputs p)) := by
  refine (commitIf_ok (okPair_of_lt hp) _ _ _).trans ?_
  simp only [hx, hstill]
  rfl

theorem exec_adcRefSettled : exec (.adcRefSettled p) s = .next (s.after (if s.dev.flag (F.adcPairStat_settling p) then
    ((s.dev.advance (s.dev.adcPair p).settleEnd).setSettling p false).event 0x0902 p (le 1 (s.dev.fld (F.adcPairCfg_ref p))) else s.dev)) :=
  commitIf_ok (okPair_of_lt hp) _ _ _

theorem exec_adcInjectTimeout_waits {oid i t : Nat} {b : Bool} {r : List (Nat × Nat × Bool × Nat)}
    (h : (s.dev.adcPair p).injects = (oid, i, b, t) :: r)
    (hstill : ((settlePair p (t + 100 * tickUs + 1) 4 s.dev).adcPair p).injects = (oid, i, b, t) :: r) :
    let d := settlePair p (t + 100 * tickUs + 1) 4 s.dev
    exec (.adcInjectTimeout p) s = .next (s.after
      ((((d.advance (t + 100 * tickUs)).setPair p { d.adcPair p with injects := r }).finish oid St.conflict []).takeCalInputs p)) := by
  refine (commitIf_ok (okPair_of_lt hp) _ _ _).trans ?_
  simp only [h, hstill]

theorem exec_adcPairDisable : exec (.adcPairDisable p) s = .next (s.after
    (if s.dev.bitAt R.adcCtrl p && !s.dev.pairInUse p then s.dev.pairOff p else s.dev)) :=
  commitIf_ok (okPair_of_lt hp) _ _ _

theorem exec_adcPairEnable : exec (.adcPairEnable p) s = .next (s.after (if s.dev.bitAt R.adcCtrl p then s.dev else s.dev.pairOn p)) :=
  commitIf_ok (okPair_of_lt hp) _ _ _

end

/-! ### The firing of a slot (R351) -/

/-- A firing of slot `k` finds the converter `taker` free, or none, with `pend` pending: it is held, becomes the pending conversion, or is
dropped on overrun. -/
def Dev.placeConv (d : Dev) (p k t : Nat) (taker : Option Bool) (pend : Option Conv) (c : Conv) : Dev :=
  match taker, pend with
  | some b, none => d.beginConv p b c
  | _, none => d.setPend p (some c)
  | _, some _ => d.overrun p k t

section
variable {d : Dev} {p k t : Nat} {c : Conv}

theorem Dev.placeConv_held {b : Bool} {taker : Option Bool} {pend : Option Conv} (htaker : taker = some b) (hpend : pend = none) :
    d.placeConv p k t taker pend c = d.beginConv p b c := by
  subst htaker hpend
  rfl

theorem Dev.placeConv_pends {taker : Option Bool} {pend : Option Conv} (htaker : taker = none) (hpend : pend = none) :
    d.placeConv p k t taker pend c = d.setPend p (some c) := by
  subst htaker hpend
  rfl

theorem Dev.placeConv_overruns (taker : Option Bool) {pend : Option Conv} (hpend : pend ≠ none) :
    d.placeConv p k t taker pend c = d.overrun p k t := by
  obtain ⟨y, rfl⟩ := Option.ne_none_iff_exists'.mp hpend
  cases taker <;> rfl

/-- A slot of a pair that is off serves nobody, one of an input under calibration keeps its result, and any other takes its place (R351, R357,
R358). -/
theorem Dev.fireAt_eq (d : Dev) (p k t : Nat) :
    let w := d.slotWord p k
    let h := adcEdge d.shift t
    let d1 := settlePair p h 4 (d.advance t)
    let x := d1.adcPair p
    let d2 := d1.setPair p { x with fired := tput (fun _ => 0) x.fired k (t + 1) }
    let parity := if slotSrc w = 4 ∧ slotDiv w = 1 then some (decide (d2.sampleNumber t % 2 = 1)) else none
    d.fireAt p k t = if !d2.bitAt R.adcCtrl p then d2.unserveSlot p k t
      else if x.calInputs.contains (slotInput w) then d2.keepResult p k t
      else d2.placeConv p k t (x.takes h parity) x.pend (convOf (some k) (slotInput w) (slotBipolar w) h t none) := by
  intro w h d1 x d2 parity
  rfl

end

/-! ### Output channels (R360, R362 to R364) -/

theorem okDac_of_lt {ch : Nat} (h : ch < 16) : okDac ch = true := decide_eq_true h

section
variable {d : Dev} {ch code : Nat}

theorem Dev.pushDac_queues (h1 : 1 ≤ d.cstate ch) (h3 : d.cstate ch ≤ 3) (hroom : (d.dacCh ch).queue.length < 16) :
    (d.pushDac ch code).2 =
      (d.setFld (F.dacQueue_code ch) code).setDac ch { d.dacCh ch with queue := (d.dacCh ch).queue ++ [code] } := by
  unfold Dev.pushDac
  dsimp only
  rw [if_neg (by omega), if_neg (by omega)]

theorem Dev.pushDac_full (h1 : 1 ≤ d.cstate ch) (h3 : d.cstate ch ≤ 3) (hfull : 16 ≤ (d.dacCh ch).queue.length) :
    (d.pushDac ch code).2 = (d.setFlag (F.dacChFlags_qFull ch) true).bumpSat (F.dacChCount_discarded ch) := by
  unfold Dev.pushDac
  dsimp only
  rw [if_neg (by omega), if_pos hfull]

theorem Dev.pushDac_off (h : d.cstate ch = 0 ∨ 4 ≤ d.cstate ch) :
    (d.pushDac ch code).2 = (d.setFlag (F.dacChFlags_offWrite ch) true).bumpSat (F.dacChCount_discarded ch) := by
  unfold Dev.pushDac
  dsimp only
  rw [if_pos h]

/-- A tick of a channel that runs, with neither a span nor a divider to change, plays the head of the queue (R360). -/
theorem Dev.dacSample_plays {d1 : Dev}
    (hd1 : (d.advance (d.dacTick ch d.now)).setDac ch { d.dacCh ch with tickAt := d.dacTick ch d.now + 1 } = d1)
    (hstate : d1.cstate ch = 2) (hspan : d1.changeUnderWay ch = none) (hdiv : (d1.dacCh ch).divDue = none) :
    d.dacSample ch = d1.playDac ch := by
  subst hd1
  simp only [Dev.dacSample, hstate, hspan, hdiv]

end

section
variable {s : State} {ch : Nat} (hch : ch < 16)
include hch

theorem exec_dacQueuePush_up (hup : s.dev.flag F.cpxReady1_pcie = true) (v : Word) :
    exec (.dacQueuePush ch v) s = .next (s.after (s.dev.pushDac ch (v.toNat % 65536)).2) :=
  (commitIf_ok (okDac_of_lt hch) _ _ _).trans (next_after_congr _ (Dev.direct_up hup _))

theorem exec_dacQueuePush_down (hdown : s.dev.flag F.cpxReady1_pcie = false) (v : Word) :
    exec (.dacQueuePush ch v) s = .next (s.after s.dev) :=
  (commitIf_ok (okDac_of_lt hch) _ _ _).trans (next_after_congr _ (Dev.direct_down hdown _))

theorem exec_dacSampleTick : exec (.dacSampleTick ch) s = .next (s.after
    (if s.dev.cstate ch = 2 ∨ s.dev.cstate ch = 3 then s.dev.dacSample ch else s.dev)) :=
  commitIf_ok (okDac_of_lt hch) _ _ _

theorem exec_dacEnableSettle :
    let t := s.dev.dacTick ch ((s.dev.dacCh ch).stateAt + 10 * tickUs)
    exec (.dacEnableSettle ch) s = .next (s.after (if s.dev.cstate ch = 1 then
      (((s.dev.advance t).setDac ch { s.dev.dacCh ch with tickAt := t + 1 }).setCstate ch 2).playDac ch else s.dev)) :=
  commitIf_ok (okDac_of_lt hch) _ _ _

theorem exec_dacDrainDone :
    let d1 := (s.dev.advance ((s.dev.dacCh ch).safeAt + 10 * tickUs)).setCstate ch 0
    let d2 := d1.setFld F.dacStat_drained (setBit (d1.fld F.dacStat_drained) ch true)
    exec (.dacDrainDone ch) s = .next (s.after (if s.dev.cstate ch = 4 then checkDacDrains d2.dac.drains d2 else s.dev)) :=
  commitIf_ok (okDac_of_lt hch) _ _ _

theorem exec_dacSpanRelaySettle_changes {y : SpanChange} (hy : (s.dev.dacCh ch).change = some y) :
    exec (.dacSpanRelaySettle ch) s = .next (s.after (
      if y.phase = 4 then
        (((s.dev.advance (y.at_ + 250 * tickUs)).setDac ch { s.dev.dacCh ch with change := none }).event 0x0904 ch (le 1 y.span)).finish
          y.oid St.done []
      else if y.phase ≠ 1 then s.dev
      else ((s.dev.advance ((s.dev.dacCh ch).safeAt + 251 * tickUs)).setFld (F.dacChCfg_span ch) y.span).setDac ch
        { s.dev.dacCh ch with change := some { y with phase := 2 } })) := by
  refine (commitIf_ok (okDac_of_lt hch) _ _ _).trans ?_
  simp only [hy]

theorem exec_dacSpanRelaySettle_none (h : (s.dev.dacCh ch).change = none) : exec (.dacSpanRelaySettle ch) s = .next (s.after s.dev) := by
  refine (commitIf_ok (okDac_of_lt hch) _ _ _).trans ?_
  simp only [h]

end

/-- Settles O43: one equation for each row, and the branch that its condition takes. -/
theorem converterRowsTakeEffect : Obligations.ConverterRowsTakeEffect := by
  refine ⟨fun s p hp => ⟨fun k t => exec_adcSlotFire_fires hp, fun k => exec_adcSlotFire_none hp, ?_, ?_, ?_, ?_, ?_, ?_, ?_, ?_⟩,
    fun d p k t => ?_, fun s ch hch => ?_⟩
  · intro b code x hx d hstill d1 r
    have hrow := exec_adcConversionDone_ends hp code hx hstill
    refine ⟨fun o hkept ho => ?_, fun k hkept ho hk => ?_, fun o hdropped ho => ?_, fun k hdropped ho hk => ?_⟩
    · rw [hrow, if_neg (Bool.eq_false_iff.mp hkept), Dev.giveConv_command ho]
      rfl
    · rw [hrow, if_neg (Bool.eq_false_iff.mp hkept), Dev.giveConv_slot ho hk]
      rfl
    · rw [hrow, if_pos hdropped, Dev.discardConv_command ho]
      rfl
    · rw [hrow, if_pos hdropped, Dev.discardConv_slot ho hk]
      rfl
  · exact fun hsettles => by rw [exec_adcRefSettled hp, if_pos hsettles]
  · exact fun hsettled => by rw [exec_adcRefSettled hp, if_neg (Bool.eq_false_iff.mp hsettled)]
  · exact fun _ _ _ _ _ => exec_adcInjectTimeout_waits hp
  · exact fun hon hfree => by rw [exec_adcPairDisable hp, hon, hfree, Bool.not_false, Bool.and_self, if_pos rfl]
  · exact fun h => by rw [exec_adcPairDisable hp, if_neg (by rcases h with h | h <;> simp [h])]
  · exact fun hoff => by rw [exec_adcPairEnable hp, if_neg (Bool.eq_false_iff.mp hoff)]; rfl
  · exact fun hon => by rw [exec_adcPairEnable hp, if_pos hon]
  · intro w h d1 x d2 c parity
    have hfire : d.fireAt p k t = if !d2.bitAt R.adcCtrl p then d2.unserveSlot p k t
        else if x.calInputs.contains (slotInput w) then d2.keepResult p k t
        else d2.placeConv p k t (x.takes h parity) x.pend c := Dev.fireAt_eq d p k t
    refine ⟨fun hoff => ?_, fun hon hcal => ?_, fun hon hcal => ?_⟩
    · rw [hfire, hoff, Bool.not_false, if_pos rfl]
    · rw [hfire, hon, Bool.not_true, if_neg Bool.false_ne_true, if_pos hcal]
    · rw [hon, Bool.not_true, if_neg Bool.false_ne_true, if_neg (Bool.eq_false_iff.mp hcal)] at hfire
      exact ⟨fun b htaker hpend => hfire.trans (Dev.placeConv_held htaker hpend), fun hnone hpend => hfire.trans (Dev.placeConv_pends hnone hpend),
        fun hpend => hfire.trans (Dev.placeConv_overruns _ hpend)⟩
  · intro x st
    refine ⟨fun v hup => ⟨fun h1 h3 hroom => ?_, fun h1 h3 hfull => ?_, fun hoff => ?_⟩, fun v hdown => exec_dacQueuePush_down hch hdown v,
      fun hticks => ?_, fun _ _ _ => ?_, fun h2 h3 => ?_, fun h1 => ?_, fun h1 => ?_, fun h4 => ?_, fun h4 => ?_,
      fun y hy => ⟨fun h4 => ?_, fun h1 => ?_, fun h1 h4 => ?_⟩, exec_dacSpanRelaySettle_none hch⟩
    · rw [exec_dacQueuePush_up hch hup, Dev.pushDac_queues h1 h3 hroom]
    · rw [exec_dacQueuePush_up hch hup, Dev.pushDac_full h1 h3 hfull]
    · rw [exec_dacQueuePush_up hch hup, Dev.pushDac_off hoff]
    · rw [exec_dacSampleTick hch, if_pos hticks]
    · intro t d1 hstate hspan hdiv
      exact Dev.dacSample_plays rfl hstate hspan hdiv
    · rw [exec_dacSampleTick hch, if_neg (not_or.mpr ⟨h2, h3⟩)]
    · rw [exec_dacEnableSettle hch, if_pos h1]
    · rw [exec_dacEnableSettle hch, if_neg h1]
    · rw [exec_dacDrainDone hch, if_pos h4]
    · rw [exec_dacDrainDone hch, if_neg h4]
    · rw [exec_dacSpanRelaySettle_changes hch hy, if_pos h4]
    · rw [exec_dacSpanRelaySettle_changes hch hy, if_neg (by omega), if_neg (not_not.mpr h1)]
    · rw [exec_dacSpanRelaySettle_changes hch hy, if_neg h4, if_pos h1]

end Sys2Proof.Machine
